-- ==== Sys2Proof/Word.lean ====
section
/-! DEFINITION. The machine's words and the shape of a sparse table. -/
namespace Sys2Proof

/-- One byte of a memory. -/
abbrev Byte := BitVec 8

/-- One 32-bit control register (R13). -/
abbrev Word := BitVec 32

/-- One 64-bit general register of a tidy core (R199). -/
abbrev DWord := BitVec 64

/-- A sparse table: keys strictly rising, no entry equal to what an unlisted key reads as. -/
abbrev Tab (β : Type) := List (Nat × β)

end Sys2Proof
end

