-- ==== Sys2Proof/Types.lean ====
section
/-! DEFINITION. The units that commands name and the messages that commands carry. -/
namespace Sys2Proof

/-- A physical tile, numbered as its node: 24y + x (R299). -/
abbrev TileIx := Fin 576
/-- A region (R20). -/
abbrev RegionIx := Fin 144
/-- A brick (R20). -/
abbrev BrickIx := Fin 36
/-- An HBM stack H00-H19 (R31). -/
abbrev StackIx := Fin 20
/-- A Lamug port LP0-LP17 (R31). -/
abbrev LampIx := Fin 18
/-- A host port HP0-HP3 (R31). -/
abbrev HostIx := Fin 4
/-- A function of the host interface: 0-3 physical, 4-255 virtual (R436). -/
abbrev FnIx := Fin 256
/-- A resident context (R391). -/
abbrev CtxIx := Fin 256
/-- A side: 0 north, 1 east, 2 south, 3 west. -/
abbrev Side := Fin 4

/-- One tidy core of one tile. -/
structure CoreId where
  tile : TileIx
  core : Fin 2
  deriving DecidableEq, Repr

/-- One 32-byte word. -/
abbrev Word256 := BitVec 256

/-- The bulk packet types (R304); the last stands for the reserved codes. -/
inductive PType where
  | write | writeAck | read | readData | droveData | droveAck | notice
  | memWrite | memRead | memData | memAck | pruneNote | reserved
  deriving DecidableEq, Repr, Inhabited

/-- A bulk packet: the header fields of R303 and the payload words after any decoding (R302). Two fields are no header bits:
`cut`, its tail is poisoned (R306, R323), and `left`, what a drove packet has still to do where it stands: bits 0-4 the
branches of the fork it has reached that it has not taken, bit 5 it stands at its member's interface (R329). -/
structure Packet where
  typ     : PType := .write
  vc      : Nat := 0
  zre     : Bool := false
  last    : Bool := false
  words   : Nat := 0
  tag     : Nat := 0
  src     : Nat := 0
  dst     : Nat := 0
  status  : Nat := 0
  context : Nat := 0
  srcLid  : Nat := 0xFFFF
  dstLid  : Nat := 0xFFFF
  drove   : Nat := 0
  txn     : Nat := 0
  addr    : Nat := 0
  poison  : Nat := 0
  data    : List Word256 := []
  cut     : Bool := false
  left    : Nat := 0
  deriving DecidableEq, Repr, Inhabited

/-- A message of the hurdle network: an arm or a contribution on its way up to a node, or a completion on its way to a tile
(R338-R340). Nodes are numbered 0-143 for L1 by region, 144-179 for L2, 180-188 for L3 and 189 for the root. -/
structure HMsg where
  paddock : Nat := 0
  channel : Nat := 0
  /-- the node, or for a completion the tile, that it reaches -/
  dst     : Nat := 0
  /-- the tile or node it comes from -/
  src     : Nat := 0
  /-- for an arm: the participant tile, OP and rank range -/
  tile    : Nat := 0
  op      : Nat := 0
  first   : Nat := 0
  last    : Nat := 0
  value   : Nat := 0
  poison  : Bool := false
  code    : Nat := 0
  deriving DecidableEq, Repr, Inhabited

/-- A bit error that radiation or wear puts into a protected cell of a tile; the reader's code meets it later
(R74, R75, R178, R249). -/
inductive Upset where
  /-- `bits` wrong bits in the scratchpad word at a word index. -/
  | spdWord (word bits : Nat)
  /-- `bits` wrong bits in the aligned 8 bytes at a private-memory unit index of a core. -/
  | privUnit (core unit bits : Nat)
  /-- A wrong bit in a stationary slot's cell: array, slot, row, working column, bit of the weight field. -/
  | slotBit (array slot row col bit : Nat)
  /-- An error in an accumulator entry: array, storage row, working column, and whether it is uncorrectable. -/
  | accEntry (array row col : Nat) (ue : Bool)
  deriving DecidableEq, Repr

/-- A request that a client raises at a scratchpad port (R164, R167). -/
structure PortReq where
  /-- 0 feeder, 1 loader, 2 drain, 3 transfer engine, 4 network, 5 core 0, 6 core 1 (R192). -/
  requester : Nat
  write : Bool
  words : List Nat
  age : Nat := 0
  deriving DecidableEq, Repr, Inhabited

/-- A submission entry (R480): opcode, flags, command identifier, context, the reserved bytes and the seven operand words. -/
structure SqEntry where
  opcode : BitVec 8 := 0
  flags  : BitVec 8 := 0
  id     : BitVec 16 := 0
  ctx    : BitVec 8 := 0
  res    : BitVec 24 := 0
  w1 : BitVec 64 := 0
  w2 : BitVec 64 := 0
  w3 : BitVec 64 := 0
  w4 : BitVec 64 := 0
  w5 : BitVec 64 := 0
  w6 : BitVec 64 := 0
  w7 : BitVec 64 := 0
  deriving DecidableEq, Repr, Inhabited

/-- What a TABLE message writes (R312, R315, R326, R336): a route of a router's inactive bank, a fork entry, its removal, or
an entry of an interface's binding map. -/
inductive TableWrite where
  | route (control : Bool) (dst : Fin 672) (entry : BitVec 8)
  | fork (tag drove : BitVec 16) (mask : BitVec 5) (beneath uni : List Nat) (here timeout : BitVec 16)
  | unfork (tag drove : BitVec 16)
  | bind (lid : Fin 540) (node : Option TileIx)
  deriving DecidableEq, Repr

/-- What a millisecond measured in a region (R569-R577, R589): the raw estimate and the measured compute energy in mW, the rails'
currents in mA, and the temperature that the thermal model predicts within 10 ms. -/
structure RegionSample where
  region   : RegionIx
  raw      : Nat := 0
  measured : Nat := 0
  computeMa : Nat := 0
  transitMa : Nat := 0
  predicted : Nat := 0
  deriving DecidableEq, Repr

/-- What a millisecond measured in the module (R568, R589): module input and Fold draw, the sum of the domain outputs, the transit
rails' draw, the largest draw of links and memory and their floors, in mW; then regions, bricks (number, output in 0.1 A,
temperature), edge domains (entry of R49, current in 0.01 A, temperature), feed voltages in 0.1 V and converter outputs in W. -/
structure PowerSample where
  input    : Nat := 0
  fold     : Nat := 0
  outputs  : Nat := 0
  transit  : Nat := 0
  links    : Nat := 0
  linksFloor : Nat := 0
  memory   : Nat := 0
  memoryFloor : Nat := 0
  regions  : List RegionSample := []
  bricks   : List (BrickIx × Nat × Nat) := []
  edges    : List (Fin 42 × Nat × Nat) := []
  feedDv   : Nat × Nat := (0, 0)
  convW    : Nat × Nat := (0, 0)
  deriving DecidableEq, Repr

/-- A regulator of R551: a stage-1 converter (false A), a compute or transit rail, or the edge domain of an edge entry of R49. -/
inductive Regulator where
  | converter (b : Bool)
  | compute (r : RegionIx)
  | transit (r : RegionIx)
  | edge (k : Fin 42)
  deriving DecidableEq, Repr

/-- What a regulator's fault latch holds (R585): an output above 200 A or below half its setpoint, an output above setpoint or
overtemperature, an input below 5.5 V, or any other fault. -/
inductive RegFault where
  | short | over_ | input | other
  deriving DecidableEq, Repr

/-- What a self-test step finds (R609), on a tile of the region by its slot or on the region: a bad array column; a scratchpad word
that fails every re-run; a voltage point that passes only some FMULT steps lower, or not within eight; another unit of the tile; the
dispatch unit, shared cache or walker; a router, verge link or region controller. -/
inductive Finding where
  | column (slot array : Fin 4) (col : Fin 65)
  | word (slot : Fin 4) (word : BitVec 18)
  | point (slot : Fin 4) (k : Fin 8) (lower : Option (Fin 9))
  | tileUnit (slot : Fin 4)
  | shared
  | transit
  deriving DecidableEq, Repr

/-- A fabric packet: the header fields of R540 and the payload words. TYPE: 0 WRITE, 1 WRITE_ACK, 2 READ, 3 READ_DATA, 4 GROUP,
5 GROUP_ACK, 6 HURDLE, 7 HURDLE_DONE. -/
structure FPacket where
  typ    : Nat := 0
  vl     : Nat := 0
  status : Nat := 0
  words  : Nat := 0
  srcMod : Nat := 0xFFF
  dstMod : Nat := 0xFFF
  hops   : Nat := 0
  srcEp  : Nat := 0
  dstEp  : Nat := 0
  txn    : Nat := 0
  offset : Nat := 0
  poison : Nat := 0
  data   : List Word256 := []
  deriving DecidableEq, Repr, Inhabited

/-- A flit's header (R521), as a receiver that has checked the flit's CRC and its crypto frame sees it: TYPE 0 IDLE, 1 DATA,
2 CONTROL, 3 REPLAY_REQ, 4 LANE_CMD. -/
structure FlitHead where
  typ     : Nat := 0
  vl      : Nat := 0
  seq     : Nat := 0
  ack     : Nat := 0
  cvl     : Nat := 0
  credits : Nat := 0
  deriving DecidableEq, Repr, Inhabited

/-- A way to reach Fufin (R631): a mailbox, or an MCTP endpoint with the secured session that carries the message, if one does. -/
inductive Transport where
  | mailbox (pf : HostIx)
  | pcie (pf : HostIx) (session : Option (BitVec 32))
  | i3c (session : Option (BitVec 32))
  deriving DecidableEq, Repr

/-- A place that answers SPDM (R663). -/
inductive SpdmAt where
  | doe (fn : FnIx)
  | pcie (pf : HostIx)
  | i3c
  | lamp (n : LampIx)
  deriving DecidableEq, Repr

/-- How a maintenance activity is asked for (R648): by a MAINTAIN command at the head of a queue, by a MAINTAIN message, or by Fufin. -/
inductive MaintAsk where
  | command (fn : FnIx) (q : BitVec 16) (c : SqEntry)
  | message (via : Transport) (msg : List (BitVec 8))
  | fufin (target : BitVec 16) (w2 w3 : BitVec 64)
  deriving DecidableEq, Repr

/-- What a firmware manifest says of one component (R642, R669): version, security version, floor, and its SHA-384 digest. -/
structure FwComp where
  version : BitVec 32 := 0
  svn     : Fin 65 := 0
  floor   : Fin 65 := 0
  digest  : BitVec 384 := 0
  deriving DecidableEq, Repr, Inhabited

/-- A firmware set as it was checked: FUFIN, TILE, HBM_CTL, LINK, HOST; whether the components match the manifest, whether its
signature verifies, and whether its FUFIN reads the mirror of the previous minor (R643, R646, R669). -/
structure FwSet where
  comps   : Vector FwComp 5 := Vector.replicate 5 {}
  matches_ : Bool := true
  signed  : Bool := true
  mirrors : Bool := true
  deriving DecidableEq, Repr, Inhabited

/-- What the step of a maintenance job came to (R648): done; failed; the highest FMULT that passed (R565); the regions whose tiles
failed the digest (R647); the package as checked (R643); a licence as read, with the verdicts on its certificate and signature
(R667); a read of host memory that failed. -/
inductive StepResult where
  | done
  | failed
  | passes (f : Fin 75)
  | digests (bad : List RegionIx)
  | package (f : FwSet)
  | licence (bytes : List (BitVec 8)) (certOk sigOk : Bool)
  | hostFailed
  deriving DecidableEq, Repr

/-- A POWER message to a region controller (R336): to a power state, to an FMULT, or a grant in mW. -/
inductive PowerCmd where
  | wake | idle | nap | off
  | fmult (f : Fin 75)
  | grant (mw : BitVec 32)
  deriving DecidableEq, Repr

/-- Who reads or writes registers (R16): a function its control space, a tidy core its tile's system registers, or the Fold
controller over the control network: a tile's, a router's, a region controller's (at its first tile's router) or an HBM
controller's (at the stack's lowest edge node). -/
inductive RegBy where
  | host (fn : FnIx)
  | core (u : CoreId)
  | fold (node : Fin 672)
  deriving DecidableEq, Repr

/-- What host memory answers to a device that reads it: bytes at host addresses; a byte not listed answers 0. -/
abbrev HostMem := List (Nat × BitVec 8)

end Sys2Proof
end

