-- ==== Sys2Proof/Syntax.lean ====
section
/-! DEFINITION. The commands: one constructor for each row of the spec's table of operations and events. -/
namespace Sys2Proof

/-- A command of the block. Each constructor's docstring names the rule that governs its row. -/
inductive Instr where
  /-- R13: A write to a register that has no row of its own takes effect according to its field access codes, with reserved fields ignored. -/
  | registerWrite (by_ : RegBy) (addr : BitVec 32) (bytes : Fin 65) (v : BitVec 32)
  /-- R16: A read of the LO half of a 64-bit pair captures the HI half into the reader's shadow, and clears both halves of an RC pair. -/
  | reg64LoRead (by_ : RegBy) (addr : BitVec 32) (bytes : Fin 65)
  /-- R16: A write of the LO half of a 64-bit pair is held for that writer. -/
  | reg64LoWrite (by_ : RegBy) (addr v : BitVec 32)
  /-- R16: A write of the HI half commits both halves, using the LO held for the same writer or the current LO if none is held. -/
  | reg64HiWrite (by_ : RegBy) (addr v : BitVec 32)
  /-- R676: When every tile of a region or lent tile in CLEARING has been zero-filled, CLEARING ends and the region becomes assignable or returns to its paddock. -/
  | clearingEnd (region : Option RegionIx) (tile : Option TileIx)
  /-- R61: On each region tick every element in an array advances one cell east and every sum one row south, and sums leaving row 63 are written to the accumulator. -/
  | arrayTick (t : TileIx) (upsets : List Upset)
  /-- R82: Once the owning job is suspended, Fufin applies the column bypass and resumes the job. -/
  | columnBypassApply (t : TileIx) (array : Fin 4) (column : Fin 65)
  /-- R62: On each tick the feeder enters exactly one element row into the arrays, the next vector of the current pass or a bubble. -/
  | feederEntry (t : TileIx) (granted : Bool)
  /-- R65: The stationary loader commits one tile row of a block into a slot at the end of the tick in which its last byte arrives. -/
  | loaderCommit (t : TileIx)
  /-- R76: The drain reads one storage row per tick, converts it and writes it to scratchpad two ticks later, clearing it if CLEAR is set. -/
  | drainRead (t : TileIx) (granted : Bool)
  /-- R210: An ALU instruction computes rd from ra and rb under its funct. -/
  | alu (u : CoreId) (rd ra rb : Fin 32) (p : Fin 8) (funct : BitVec 8)
  /-- R211: ADDI adds a sign-extended immediate to ra. -/
  | addi (u : CoreId) (rd ra : Fin 32) (imm : BitVec 16)
  /-- R211: ANDI ands ra with a zero-extended immediate. -/
  | andi (u : CoreId) (rd ra : Fin 32) (imm : BitVec 16)
  /-- R211: ORI ors ra with a zero-extended immediate. -/
  | ori (u : CoreId) (rd ra : Fin 32) (imm : BitVec 16)
  /-- R211: XORI exclusive-ors ra with a zero-extended immediate. -/
  | xori (u : CoreId) (rd ra : Fin 32) (imm : BitVec 16)
  /-- R211: SHI shifts ra by an immediate amount of the kind its immediate names. -/
  | shi (u : CoreId) (rd ra : Fin 32) (imm : BitVec 16)
  /-- R211: LUI sets rd to the sign-extended immediate shifted left by 16. -/
  | lui (u : CoreId) (rd ra : Fin 32) (imm : BitVec 16)
  /-- R211: SLTI sets rd to 1 if ra is below the sign-extended immediate. -/
  | slti (u : CoreId) (rd ra : Fin 32) (imm : BitVec 16)
  /-- R212: LOAD reads 1, 2, 4 or 8 bytes at ra plus offset into rd with sign or zero extension. -/
  | load (u : CoreId) (rd ra : Fin 32) (width : Fin 8) (off : BitVec 13)
  /-- R212: STORE writes the low bytes of rs at ra plus offset. -/
  | store (u : CoreId) (rs ra : Fin 32) (width : Fin 8) (off : BitVec 13)
  /-- R213: An AMO performs one locked read-modify-write on local memory and returns the old value. -/
  | amo (u : CoreId) (rd ra rb : Fin 32) (p : Fin 8) (funct : BitVec 8)
  /-- R216: A scalar floating-point instruction computes on g registers in FP32 or FP64. -/
  | fpu (u : CoreId) (rd ra rb : Fin 32) (p : Fin 8) (funct : BitVec 8)
  /-- R214: A branch compares ra with rb and moves pc by the offset when the condition holds. -/
  | br (u : CoreId) (ra rb : Fin 32) (cond : Fin 8) (off : BitVec 13)
  /-- R214: JAL writes the return address and jumps by a word offset. -/
  | jal (u : CoreId) (rd : Fin 32) (off : BitVec 21)
  /-- R214: JALR writes the return address and jumps to ra plus an immediate. -/
  | jalr (u : CoreId) (rd ra : Fin 32) (imm : BitVec 16)
  /-- R215: SRR reads a tile system register into g. -/
  | srr (u : CoreId) (g : Fin 32) (tq : Fin 16) (imm : BitVec 12)
  /-- R215: SRW writes g into a tile system register. -/
  | srw (u : CoreId) (g : Fin 32) (tq : Fin 16) (imm : BitVec 12)
  /-- R232: FENCE flushes the combining buffer and waits for earlier accesses, or orders instruction fetch, as its bits select. -/
  | fence (u : CoreId) (g : Fin 32) (tq : Fin 16) (imm : BitVec 12)
  /-- R215: ECALL raises the ECALL exception with EVAL set to its immediate. -/
  | ecall (u : CoreId) (g : Fin 32) (tq : Fin 16) (imm : BitVec 12)
  /-- R215: EBREAK raises the EBREAK exception. -/
  | ebreak (u : CoreId) (g : Fin 32) (tq : Fin 16) (imm : BitVec 12)
  /-- R215: ERET returns to CORE_EPC in JOB mode. -/
  | eret (u : CoreId) (g : Fin 32) (tq : Fin 16) (imm : BitVec 12)
  /-- R215: PAUSE idles the core for imm12 plus one ticks. -/
  | pause (u : CoreId) (g : Fin 32) (tq : Fin 16) (imm : BitVec 12)
  /-- R242: EXIT waits for the core's M-, X- and S-class instructions, stops the core and may end the job. -/
  | exit (u : CoreId) (g : Fin 32) (tq : Fin 16) (imm : BitVec 12)
  /-- R215: TLD loads 32 bytes of local memory into a tensor descriptor register. -/
  | tld (u : CoreId) (g : Fin 32) (tq : Fin 16) (imm : BitVec 12)
  /-- R215: TST stores a tensor descriptor register to 32 bytes of local memory. -/
  | tst (u : CoreId) (g : Fin 32) (tq : Fin 16) (imm : BitVec 12)
  /-- R215: TRD reads one word of a tensor descriptor into g. -/
  | trd (u : CoreId) (g : Fin 32) (tq : Fin 16) (imm : BitVec 12)
  /-- R215: TWR writes g into one word of a tensor descriptor. -/
  | twr (u : CoreId) (g : Fin 32) (tq : Fin 16) (imm : BitVec 12)
  /-- R215: QMOV reads a queue handle into g. -/
  | qmov (u : CoreId) (g : Fin 32) (tq : Fin 16) (imm : BitVec 12)
  /-- R218: A vector integer instruction computes per enabled element. -/
  | vint (u : CoreId) (vd va vb : Fin 32) (p : Fin 8) (et : Fin 8) (funct : Fin 32)
  /-- R218: A vector floating-point instruction computes per enabled element. -/
  | vfp (u : CoreId) (vd va vb : Fin 32) (p : Fin 8) (et : Fin 8) (funct : Fin 32)
  /-- R218: A vector compare writes its result to a predicate register. -/
  | vcmp (u : CoreId) (vd va vb : Fin 32) (p : Fin 8) (et : Fin 8) (funct : Fin 32)
  /-- R220: VCVT converts each enabled element to the destination format its funct names. -/
  | vcvt (u : CoreId) (vd va vb : Fin 32) (p : Fin 8) (et : Fin 8) (funct : Fin 32)
  /-- R218: A vector permute broadcasts, shuffles, slides, compresses, expands or zips elements. -/
  | vperm (u : CoreId) (vd va vb : Fin 32) (p : Fin 8) (et : Fin 8) (funct : Fin 32)
  /-- R219: A vector reduction combines the enabled elements into element 0 of vd. -/
  | vred (u : CoreId) (vd va vb : Fin 32) (p : Fin 8) (et : Fin 8) (funct : Fin 32)
  /-- R222: VLD loads a vector by unit stride, stride, index or quad mode. -/
  | vld (u : CoreId) (vd ra rb : Fin 32) (p : Fin 8) (mode : Fin 4) (esz : Fin 4) (low : Fin 16)
  /-- R222: VST stores a vector by unit stride, stride, index or quad mode. -/
  | vst (u : CoreId) (vs ra rb : Fin 32) (p : Fin 8) (mode : Fin 4) (esz : Fin 4) (low : Fin 16)
  /-- R218: VMOV inserts g into an element of vd or extracts an element into g. -/
  | vmov (u : CoreId) (vd va vb : Fin 32) (p : Fin 8) (et : Fin 8) (funct : Fin 32)
  /-- R221: A vector special function computes a reciprocal, root, exponential or logarithm per element. -/
  | vspec (u : CoreId) (vd va vb : Fin 32) (p : Fin 8) (et : Fin 8) (funct : Fin 32)
  /-- R200: A predicate instruction operates on predicate registers or moves between p and g. -/
  | pred (u : CoreId) (vd va vb : Fin 32) (p : Fin 8) (et : Fin 8) (funct : Fin 32)
  /-- R209: LI loads a 47-bit sign-extended immediate into rd. -/
  | li (u : CoreId) (rd : Fin 32) (imm : BitVec 47)
  /-- R209: LADDI adds a 47-bit sign-extended immediate to rd. -/
  | laddi (u : CoreId) (rd : Fin 32) (imm : BitVec 47)
  /-- R209: LJAL writes the return address and jumps by a 47-bit byte offset. -/
  | ljal (u : CoreId) (rd : Fin 32) (imm : BitVec 47)
  /-- R266: MLOAD queues a stationary load of a block into a slot of the arrays its load word names. -/
  | mload (u : CoreId) (rd ra : Fin 32) (td : Fin 16) (z : Fin 2) (p : Fin 8) (q : Fin 8) (funct : Fin 32)
  /-- R270: MPASS queues a pass of activation vectors against a stationary slot. -/
  | mpass (u : CoreId) (rd ra : Fin 32) (td : Fin 16) (z : Fin 2) (p : Fin 8) (q : Fin 8) (funct : Fin 32)
  /-- R273: MDRAIN queues a drain of accumulator rows to a scratchpad surface. -/
  | mdrain (u : CoreId) (rd ra : Fin 32) (td : Fin 16) (z : Fin 2) (p : Fin 8) (q : Fin 8) (funct : Fin 32)
  /-- R275: MMODE sets ANCHOR_A or ANCHOR_B in issue order. -/
  | mmode (u : CoreId) (rd ra rb : Fin 32) (p : Fin 8) (q : Fin 8) (funct : Fin 32)
  /-- R278: MWAIT waits until an M ticket completes and writes its status. -/
  | mwait (u : CoreId) (rd ra rb : Fin 32) (p : Fin 8) (q : Fin 8)
  /-- R278: MPOLL returns the status of an M ticket, or 0 if it has not completed. -/
  | mpoll (u : CoreId) (rd ra rb : Fin 32) (p : Fin 8) (q : Fin 8)
  /-- R278: MWAITALL waits for every M-class instruction of the core and returns and clears the summary. -/
  | mwaitall (u : CoreId) (rd ra rb : Fin 32) (p : Fin 8) (q : Fin 8)
  /-- R279: XOPEN opens a transfer channel and writes its handle. -/
  | xopen (u : CoreId) (rd ra rb : Fin 32) (p : Fin 8) (q : Fin 8)
  /-- R279: XCLOSE waits for every transfer of the channel and frees it. -/
  | xclose (u : CoreId) (rd ra rb : Fin 32) (p : Fin 8) (q : Fin 8)
  /-- R281: XCOPY with DIR GET moves a surface from a far place into the tile's scratchpad. -/
  | xcopyGet (u : CoreId) (rd ra : Fin 32) (td : Fin 16) (z : Fin 2) (p : Fin 8) (q : Fin 8) (funct : Fin 16)
  /-- R281: XCOPY with DIR PUT moves a surface from the tile's scratchpad to a far place. -/
  | xcopyPut (u : CoreId) (rd ra : Fin 32) (td : Fin 16) (z : Fin 2) (p : Fin 8) (q : Fin 8) (funct : Fin 16)
  /-- R282: XPUT writes 8 or 16 bytes of g registers to a remote scratchpad address. -/
  | xput (u : CoreId) (rd ra rb : Fin 32) (p : Fin 8) (q : Fin 8) (funct : Fin 32)
  /-- R137: PACK_NM packs dense weights into N:M stored weights and indices, ending OVERFULL or pruning on overflow. -/
  | packNm (u : CoreId) (rd ra : Fin 32) (td : Fin 16) (z : Fin 2) (p : Fin 8) (q : Fin 8) (funct : Fin 4)
  /-- R137: UNPACK_NM writes a dense block from N:M stored weights with +0 at absent positions. -/
  | unpackNm (u : CoreId) (rd ra : Fin 32) (td : Fin 16) (z : Fin 2) (p : Fin 8) (q : Fin 8) (funct : Fin 4)
  /-- R140: PACK_BCR packs dense rows into blocked compressed-row form. -/
  | packBcr (u : CoreId) (rd ra : Fin 32) (td : Fin 16) (z : Fin 2) (p : Fin 8) (q : Fin 8) (funct : Fin 4)
  /-- R139: UNPACK_BCR in GATHER form writes stored blocks as a panel with a block list. -/
  | unpackBcrGather (u : CoreId) (rd ra : Fin 32) (td : Fin 16) (z : Fin 2) (p : Fin 8) (q : Fin 8) (funct : Fin 4)
  /-- R139: UNPACK_BCR in EXPAND form writes dense rows with absent blocks as zeros. -/
  | unpackBcrExpand (u : CoreId) (rd ra : Fin 32) (td : Fin 16) (z : Fin 2) (p : Fin 8) (q : Fin 8) (funct : Fin 4)
  /-- R284: XSEND sends a surface as a packed image to every member of a drove. -/
  | xsend (u : CoreId) (rd ra : Fin 32) (td : Fin 16) (z : Fin 2) (p : Fin 8) (q : Fin 8) (funct : Fin 32)
  /-- R285: XWAIT waits until a transfer or dispatch ticket completes and writes its status and record. -/
  | xwait (u : CoreId) (rd ra rb : Fin 32) (p : Fin 8) (q : Fin 8)
  /-- R285: XPOLL returns a transfer or dispatch ticket's status, writing the record when done. -/
  | xpoll (u : CoreId) (rd ra rb : Fin 32) (p : Fin 8) (q : Fin 8)
  /-- R285: XFENCE waits until every instruction on a channel has completed. -/
  | xfence (u : CoreId) (rd ra rb : Fin 32) (p : Fin 8) (q : Fin 8)
  /-- R285: XWAITALL waits for every transfer and dispatch instruction of the core and returns the summary. -/
  | xwaitall (u : CoreId) (rd ra rb : Fin 32) (p : Fin 8) (q : Fin 8)
  /-- R143: DLAYER loads a dispatch layer slot from a layer descriptor and expert table. -/
  | dlayer (u : CoreId) (rd ra rb : Fin 32) (p : Fin 8) (q : Fin 8)
  /-- R286: DRELEASE releases a layer slot once nothing of it is in flight. -/
  | drelease (u : CoreId) (rd ra rb : Fin 32) (p : Fin 8) (q : Fin 8)
  /-- R286: DSTEP opens a step on a layer slot and zeroes its counts. -/
  | dstep (u : CoreId) (rd ra rb : Fin 32) (p : Fin 8) (q : Fin 8)
  /-- R145: DGATE passes gate records to the open step, which admits or refuses them. -/
  | dgate (u : CoreId) (rd ra rb : Fin 32) (p : Fin 8) (q : Fin 8)
  /-- R149: A partial bundle whose oldest route has waited BUNDLE_WAIT ticks leaves. -/
  | bundleWaitExpiry (r : RegionIx) (k : Fin 2)
  /-- R156: DFLUSH closes admission, sends every partial bundle and completes with the step. -/
  | dflush (u : CoreId) (rd ra rb : Fin 32) (p : Fin 8) (q : Fin 8)
  /-- R286: DSPILL completes at SPILL_DONE of the last flushed step. -/
  | dspill (u : CoreId) (rd ra rb : Fin 32) (p : Fin 8) (q : Fin 8)
  /-- R152: DRETURN writes a result slice to the source tile and sends a return notice. -/
  | dreturn (u : CoreId) (rd ra rb : Fin 32) (p : Fin 8) (q : Fin 8)
  /-- R148: A route's translated spill write finishes. -/
  | spillWriteDone (r : RegionIx) (k : Fin 2) (token : BitVec 16) (rank : Fin 8)
  /-- R150: A write of DSP_BAL.RESET sets the balancer weights of the writer's slots to uniform. -/
  | dspBalReset (u : CoreId)
  /-- R289: HARM opens a hurdle handle on a channel and sends an arm message. -/
  | harm (u : CoreId) (rd ra rb : Fin 32) (p : Fin 8) (q : Fin 8)
  /-- R289: HCLOSE waits for the current generation and closes the hurdle handle. -/
  | hclose (u : CoreId) (rd ra rb : Fin 32) (p : Fin 8) (q : Fin 8)
  /-- R290: HPASS contributes a value to the next generation of a hurdle channel. -/
  | hpass (u : CoreId) (rd ra rb : Fin 32) (p : Fin 8) (q : Fin 8) (funct : Fin 32)
  /-- R291: HWAIT waits for the generation the core last passed and returns its value. -/
  | hwait (u : CoreId) (rd ra rb : Fin 32) (p : Fin 8) (q : Fin 8)
  /-- R291: HTEST reports whether the last passed generation has completed. -/
  | htest (u : CoreId) (rd ra rb : Fin 32) (p : Fin 8) (q : Fin 8)
  /-- R291: HSTAT writes the status word of the last completed generation. -/
  | hstat (u : CoreId) (rd ra rb : Fin 32) (p : Fin 8) (q : Fin 8)
  /-- R340: An arm message reaches a hurdle node, which checks OP and range and may set MISMATCH. -/
  | hurdleArmMessage (m : HMsg)
  /-- R339: A contribution reaches a hurdle node and is combined, completing the generation at the meeting node when all have arrived. -/
  | hurdleContribution (m : HMsg)
  /-- R339: A generation's completion reaches a participant tile with its value. -/
  | hurdleCompletion (m : HMsg)
  /-- R341: An uncorrectable error in a hurdle node completes its generations BROKEN. -/
  | hurdleNodeUe (node : Fin 190)
  /-- R426: A linked pass that has waited 4,096 ticks for its link is split into a head part and a continuation. -/
  | linkWaitSplit (t : TileIx)
  /-- R168: Each tick the scratchpad port arbiter grants requests oldest first into free banks for the next tick. -/
  | spdPortArbitration (t : TileIx) (raised : List PortReq)
  /-- R172: A combining buffer entry held for 64 ticks is flushed. -/
  | cbFlushTimeout (t : TileIx) (word : Fin 262144)
  /-- R178: A corrected scratchpad word is written back in the first free slot of its bank and read again. -/
  | spdEccWriteback (t : TileIx) (word : Fin 262144) (again : Bool)
  /-- R180: A write of SPD_ZONEn that changes sheets starts a zone sweep of those sheets. -/
  | spdZoneWrite (u : CoreId) (n : Fin 8) (value : BitVec 32)
  /-- R180: The zone sweep reads one sheet row per tick and writes it back under the new code. -/
  | zoneSweepRow (t : TileIx)
  /-- R183: The patrol scrubber reads a scratchpad word in an otherwise unused slot and treats its errors. -/
  | scrubStep (t : TileIx) (bank : Fin 32)
  /-- R187: Zero-fill writes one row run of 32 zero words per tick. -/
  | zeroFillRow (t : TileIx)
  /-- R193: A read of SPD_REMOTE returns and clears the refusal count. -/
  | spdRemoteRead (t : TileIx) (reader : Fin 3)
  /-- R297: A read of SEQ_RERUN returns and clears the detect-only re-read count. -/
  | seqRerunRead (t : TileIx) (reader : Fin 3)
  /-- R306: A WRITE packet arrives at its target tile, which checks its tag and performs its words after the tail beat. -/
  | write (p : Packet)
  /-- R305: A WRITE_ACK reaches the sender and is acted on by its status. -/
  | writeAck (p : Packet)
  /-- R306: A READ packet arrives at its target and is answered with the words read. -/
  | read (p : Packet)
  /-- R305: READ_DATA reaches the requester with its words and status. -/
  | readData (p : Packet)
  /-- R328: A DROVE_DATA packet reaches the bellwether, a fork or a member and is forwarded or performed. -/
  | droveData (p : Packet) (waiting : BitVec 5)
  /-- R332: A DROVE_ACK reaches the bellwether, which completes the send when all members are counted. -/
  | droveAck (p : Packet)
  /-- R152: A dispatch return notice reaches the source unit and resolves a shard of a route. -/
  | notice (p : Packet)
  /-- R449: An HBM controller accepts a MEM_WRITE, performs its words and answers MEM_ACK. -/
  | memWrite (p : Packet) (upsets : List (Nat × Nat))
  /-- R449: An HBM controller accepts a MEM_READ and returns the words with their marks. -/
  | memRead (p : Packet) (upsets : List (Nat × Nat))
  /-- R449: MEM_DATA reaches the requester with the words read. -/
  | memData (p : Packet)
  /-- R449: MEM_ACK reaches the sender of a MEM_WRITE. -/
  | memAck (p : Packet)
  /-- R330: A prune note reaches the bellwether and counts the members of a pruned branch. -/
  | pruneNote (p : Packet)
  /-- R314: A router takes a packet's next output from its table, moving it to BV3 where the route detours. -/
  | routerForward (t : TileIx) (input : Fin 5) (age : BitVec 12) (p : Packet)
  /-- R321: An output arbiter grants the oldest raised request during the last beat of the current transfer. -/
  | routerArbitration (t : TileIx) (out : Fin 5) (elapsed : BitVec 12)
  /-- R323: A grant not delivering its tail within OVERHOLD ticks is cut off and its holder fenced or failed. -/
  | overholdCutoff (t : TileIx) (out : Fin 5) (ticks : BitVec 16) (p : Packet)
  /-- R307: A link receiver checks a beat and corrects it or requests a replay. -/
  | linkBeatReceive (t : TileIx) (side : Side) (result : Fin 3) (newMs : Bool) (p : Option Packet)
  /-- R305: A request without a response for the request timeout is resent once or completes REFUSED. -/
  | requestTimeout (t : TileIx) (txn : BitVec 12)
  /-- R305: A request answered BUSY is resent after 256 transit ticks. -/
  | busyResend (t : TileIx) (txn : BitVec 12)
  /-- R326: A NET_DRV_CMD install builds a drove's fork entries. -/
  | droveInstall (t : TileIx) (members : BitVec 10) (drove : BitVec 16)
  /-- R327: A NET_DRV_CMD remove deletes a drove once its sends complete. -/
  | droveRemove (t : TileIx) (drove : BitVec 16)
  /-- R327: After a re-binding, once any send completes, Fufin rebuilds the drove tree. -/
  | droveRebuild (tag drove : BitVec 16)
  /-- R329: When a waiting branch gains credit the fork sends it the buffered copy. -/
  | forkBufferSend (t : TileIx) (branch : Fin 5)
  /-- R330: A branch without credit for a whole drove timeout is pruned for the send. -/
  | droveBranchPrune (t : TileIx) (branch : Fin 5) (p : Packet)
  /-- R336: A REG_READ control message reads a tile, router or region register. -/
  | regRead (node : Fin 672) (addr : BitVec 16)
  /-- R336: A REG_WRITE control message writes a tile, router or region register. -/
  | regWrite (node : Fin 672) (addr : BitVec 16) (v : BitVec 32)
  /-- R336: A REG_DATA message answers a register read. -/
  | regData
  /-- R686: An event record reaches the Fold, is given a SEQ and is written to the log buffer and ERR rings. -/
  | event (place : BitVec 16)
  /-- R418: A fault notice reaches the handler tile and is held in FLT_NOTE. -/
  | faultNote (t : TileIx)
  /-- R424: A pre-emption request makes each unit of a member tile stop at its pre-emption point, or a resume releases them. -/
  | preempt (t : TileIx) (resume : Bool)
  /-- R424: A member tile reports its pre-emption point, freezing the paddock when all have reported. -/
  | preemptDone (t : TileIx)
  /-- R86: A tile reset empties the arrays, cores and queues while keeping scratchpad and binding. -/
  | tileReset (t : TileIx)
  /-- R692: A region reset resets its four tiles, dispatch unit and translation caches. -/
  | regionReset (r : RegionIx)
  /-- R336: A power control message carries a power-state, frequency or cap command. -/
  | power (r : RegionIx) (c : PowerCmd)
  /-- R341: A HURDLE_CTL message moves a hurdle node to its twin or signals BROKEN. -/
  | hurdleCtl (node : Fin 190) (twin broken : Bool)
  /-- R312: A TABLE message writes routing, fork or binding-map entries. -/
  | table (t : TileIx) (w : TableWrite)
  /-- R317: A bank switch on CV-H makes every router switch its active table bank between packets. -/
  | bankSwitch
  /-- R336: A TELEMETRY message carries sensor and counter reports to the Fold. -/
  | telemetry (node : Fin 672) (report : List (BitVec 16 × BitVec 32))
  /-- R353: The monitor switches the reference to the standby oscillator when the active one drifts beyond 100 ppm. -/
  | oscillatorSwitch
  /-- R354: A transit PLL that does not relock within 10 microseconds kills its region. -/
  | transitPllLockTimeout (r : RegionIx)
  /-- R356: A region PLL that does not lock within 10 microseconds switches its compute rail off and its tiles become unfit. -/
  | regionPllLockTimeout (r : RegionIx)
  /-- R357: A droop or timing monitor trip lengthens the following region period. -/
  | clockStretch (r : RegionIx) (amount : Fin 4)
  /-- R359: A requested FMULT change gates the region clock at the next tick boundary and relocks the PLL. -/
  | frequencyChange (r : RegionIx)
  /-- R359: The region mesh restarts on the new clock and scheduled crossings are re-calibrated. -/
  | frequencyRestart (r : RegionIx)
  /-- R362: A scheduled crossing's calibration ends, setting its pad or failing. -/
  | calibrationDone (t : TileIx) (side : Side) (lam : BitVec 8)
  /-- R364: Every 1,024 reference edges the Fold sends the next marker value to every region controller. -/
  | timestampMarker (step : Fin 41)
  /-- R370: A write of SCH_CTL.GO checks and starts the segment at SCH_PC. -/
  | schGo (t : TileIx)
  /-- R376: A write of SCH_CTL.ABORT ends the running segment at once. -/
  | schAbort (t : TileIx)
  /-- R376: An aborting scheduler goes IDLE once no word of the segment remains in flight. -/
  | abortDrained (t : TileIx)
  /-- R369: A write of SCH_LOAD_CMD starts copying schedule entries from scratchpad. -/
  | schLoad (t : TileIx) (cmd : BitVec 32)
  /-- R369: The schedule copy finishes and LOAD_BUSY clears. -/
  | schLoadDone (t : TileIx)
  /-- R377: A write of SCH_LIMIT waits for earlier local accesses and sets the gate. -/
  | schLimitWrite (t : TileIx) (v : BitVec 32)
  /-- R377: A read of SCH_DONE orders later accesses after every delivered write up to its tick. -/
  | schDoneRead (u : CoreId)
  /-- R370: On each region tick a running scheduler performs schedule tick sigma or holds or slips. -/
  | scheduleTick (t : TileIx) (ready : Bool) (written : Fin 33)
  /-- R367: A scheduled word arrives in a link's crossing FIFO and is marked present after its pad. -/
  | scheduledWordArrive (t : TileIx) (side : Side)
  /-- R376: A scheduler whose sigma has not advanced for SCH_TMO sets STALLED. -/
  | schStall (t : TileIx)
  /-- R405: A page walk finishes, filling the caches or raising a translation fault. -/
  | walkComplete (r : BitVec 8) (ctx : CtxIx) (page : BitVec 56)
  /-- R399: An ATS Translation Completion arrives and is cached or leads to a Page Request. -/
  | atsTranslationCompletion (r : BitVec 8) (ctx : CtxIx) (page : BitVec 56) (error : Bool) (bytes out : BitVec 64) (read write : Bool)
  /-- R401: A PRG Response arrives and the walker retries or records PRI_DENIED. -/
  | prgResponse (ctx : CtxIx) (page : BitVec 56) (code : Fin 3)
  /-- R402: An ATS Invalidate Request drops host entries and is answered with an Invalidate Completion. -/
  | atsInvalidateRequest (fn : FnIx) (tag : Fin 32) (pasid : Option (BitVec 20)) (va : BitVec 64) (bytes : BitVec 64)
  /-- R403: The host disabling ATS or PRI drops every host entry of the function's contexts. -/
  | atsPriDisable (fn : FnIx) (ats pri : Bool)
  /-- R403: A write setting MMU_CTX_CFG.SVA takes effect only if ATS and PRI are enabled. -/
  | mmuSvaWrite (pf : HostIx) (ctx : CtxIx) (sva : Bool) (pasid : BitVec 20)
  /-- R437: MMU_INV_CMD with scope 0 invalidates a whole context. -/
  | mmuInvContext (pf : HostIx) (ctx : CtxIx)
  /-- R437: MMU_INV_CMD with scope 1 invalidates a range of pages. -/
  | mmuInvRange (pf : HostIx) (ctx : CtxIx) (va : BitVec 64) (pages : BitVec 20)
  /-- R437: MMU_INV_CMD with scope 2 invalidates every context of the function. -/
  | mmuInvFunction (pf : HostIx)
  /-- R440: XTC_INV_CMD with ALL invalidates the whole context from a core. -/
  | xtcInvAll (t : TileIx)
  /-- R440: XTC_INV_CMD without ALL invalidates a page range from a core. -/
  | xtcInvRange (t : TileIx) (va : BitVec 64) (pages : BitVec 20)
  /-- R398: An invalidation completes when no cache holds its entries and their accesses are performed. -/
  | invalidationComplete (n : BitVec 16)
  /-- R417: A fault record is written to the fault queue once there is room and the handler is notified. -/
  | faultRecordWrite (ctx : CtxIx)
  /-- R417: A write of MMU_FQ_HEAD frees fault queue records. -/
  | fqHeadWrite (pf : HostIx) (ctx : CtxIx) (head : BitVec 16)
  /-- R420: FQ_RES_CMD with RETRY resolves the named fault so its source resumes. -/
  | fqResRetry (pf : HostIx) (ctx : CtxIx) (id : BitVec 64)
  /-- R420: FQ_RES_CMD with FAIL resolves the named fault as failed. -/
  | fqResFail (pf : HostIx) (ctx : CtxIx) (id : BitVec 64)
  /-- R420: FLT_RES_CMD with RETRY from the handler core resolves a fault. -/
  | fltResRetry (u : CoreId) (id : BitVec 64)
  /-- R420: FLT_RES_CMD with FAIL from the handler core fails a fault. -/
  | fltResFail (u : CoreId) (id : BitVec 64)
  /-- R439: A read of FLT_NOTE_LO removes the oldest notice and captures its upper half. -/
  | fltNoteRead (u : CoreId)
  /-- R439: A write of FLT_HEAD advances the context's fault queue head. -/
  | fltHeadWrite (u : CoreId) (head : BitVec 16)
  /-- R428: A frozen paddock's state has been saved to its save area. -/
  | saveComplete (p : BitVec 16)
  /-- R429: At the end of a time slice the job is pre-empted and saved and the next job restored or started. -/
  | sliceEnd (p : BitVec 16)
  /-- R430: A restore ends and Fufin releases the member tiles to resume. -/
  | restoreComplete (p : BitVec 16) (control : Bool) (words : List (Nat × Nat))
  /-- R432: Once HBM has room for a suspended job's save area the save proceeds and the queued job starts. -/
  | saveAreaRoom (p : BitVec 16)
  /-- R453: The HBM patrol scrubber reads a line and treats its errors. -/
  | hbmScrubStep (k : StackIx) (upsets : List (Nat × Nat)) (own : Bool)
  /-- R456: A retirement migration copies the next line into the reserve and advances the pointer. -/
  | migrationStep (k : StackIx) (upsets : List (Nat × Nat))
  /-- R459: The controller issues a per-bank refresh and tracks lane drift. -/
  | hbmRefresh (k : StackIx) (temp : BitVec 8)
  /-- R460: A stack idle for SR_IDLE enters self-refresh. -/
  | selfRefreshEntry (k : StackIx)
  /-- R460: A request arriving in self-refresh waits while the stack exits. -/
  | selfRefreshExit (k : StackIx)
  /-- R461: Stack training or check of saved training ends at a rate or fails. -/
  | hbmTrainingDone (k : StackIx) (saved : Bool) (rate : Option (Fin 3)) (failed : List (Fin 32))
  /-- R463: A part of a memory test step ends and the next begins. -/
  | testStepPart (k : StackIx) (error : Bool)
  /-- R465: A stack reset enters self-refresh, resets the controller and reloads training. -/
  | stackReset (k : StackIx)
  /-- R469: A read of HBM_CE returns and clears the corrected word count. -/
  | hbmCeRead (k : StackIx)
  /-- R469: A read of HBM_UE returns and clears the uncorrectable word count. -/
  | hbmUeRead (k : StackIx)
  /-- R474: Setting FNC_CTL.ENABLE negotiates the session version and starts the admin queue. -/
  | fncEnable (fn : FnIx)
  /-- R505: Clearing FNC_CTL.ENABLE resets the function. -/
  | fncDisable (fn : FnIx)
  /-- R505: A Function Level Reset resets the function and, for a PF, its VFs. -/
  | flr (fn : FnIx)
  /-- R506: A host port reporting link down resets its PF and VFs. -/
  | hostLinkDown (p : HostIx)
  /-- R506: A host link trains, raising an event if below x16 or 64 GT/s. -/
  | hostLinkTrained (p : HostIx) (width gt : Nat)
  /-- R716: Assertion of PERST_N holds the port's link in reset and resets its functions. -/
  | perstNAssert (p : HostIx)
  /-- R716: Deassertion of PERST_N lets the host link train. -/
  | perstNDeassert (p : HostIx)
  /-- R479: A write of SQ_TAIL announces submission entries, or stops the queue if out of range. -/
  | sqTailDoorbell (fn : FnIx) (q tail : BitVec 16)
  /-- R479: A write of CQ_HEAD frees completion entries, or stops the queue if invalid. -/
  | cqHeadDoorbell (fn : FnIx) (q head : BitVec 16)
  /-- R478: Every microsecond the queue engine reads the tail word of a device-memory queue. -/
  | deviceRingPoll (fn : FnIx) (q : BitVec 16) (host : HostMem)
  /-- R481: The queue engine fetches a command once it can reserve its completion entries. -/
  | commandFetch (fn : FnIx) (q : BitVec 16) (entry : BitVec 512) (failed : Bool)
  /-- R481: COAL_US after the first pending completion the queue's vector is signalled. -/
  | coalesceTimeout (fn : FnIx) (q : BitVec 16)
  /-- R484: CREATE_QUEUE creates a queue pair. -/
  | createQueue (fn : FnIx) (q : BitVec 16) (c : SqEntry)
  /-- R484: DELETE_QUEUE stops a queue and completes when its fetched commands complete. -/
  | deleteQueue (fn : FnIx) (q : BitVec 16) (c : SqEntry)
  /-- R484: ALLOT moves queue pairs, contexts and region quota between a PF and a function. -/
  | allot (fn : FnIx) (q : BitVec 16) (c : SqEntry)
  /-- R485: CREATE_CONTEXT creates a context with its fault queue. -/
  | createContext (fn : FnIx) (q : BitVec 16) (c : SqEntry)
  /-- R485: DESTROY_CONTEXT invalidates and frees everything of a context. -/
  | destroyContext (fn : FnIx) (q : BitVec 16) (c : SqEntry)
  /-- R486: CREATE_PADDOCK creates a paddock from named regions or a count. -/
  | createPaddock (fn : FnIx) (q : BitVec 16) (c : SqEntry)
  /-- R487: GROW_PADDOCK adds regions to a paddock. -/
  | growPaddock (fn : FnIx) (q : BitVec 16) (c : SqEntry)
  /-- R487: SHRINK_PADDOCK removes regions, which enter CLEARING. -/
  | shrinkPaddock (fn : FnIx) (q : BitVec 16) (c : SqEntry)
  /-- R486: SET_PADDOCK changes priority, timing mode or slice. -/
  | setPaddock (fn : FnIx) (q : BitVec 16) (c : SqEntry)
  /-- R488: REPLACE_PADDOCK accepts the placement or re-binds member IDs and lifts GEOMETRY holds. -/
  | replacePaddock (fn : FnIx) (q : BitVec 16) (c : SqEntry)
  /-- R489: RELEASE_PADDOCK cancels jobs, clears regions and lent tiles and frees the paddock ID. -/
  | releasePaddock (fn : FnIx) (q : BitVec 16) (c : SqEntry)
  /-- R490: GET_PLACEMENT writes a consistent view of the paddock's member entries to a host buffer. -/
  | getPlacement (fn : FnIx) (q : BitVec 16) (c : SqEntry)
  /-- R491: ALLOC takes a run of HBM frames for the context. -/
  | alloc (fn : FnIx) (q : BitVec 16) (c : SqEntry)
  /-- R491: FREE releases owned frames for zero-fill. -/
  | free (fn : FnIx) (q : BitVec 16) (c : SqEntry)
  /-- R491: MAP writes page-table entries for a range and may resolve faults. -/
  | map (fn : FnIx) (q : BitVec 16) (c : SqEntry)
  /-- R491: UNMAP removes mappings and completes after invalidation. -/
  | unmap (fn : FnIx) (q : BitVec 16) (c : SqEntry)
  /-- R492: COPY moves bytes between host memory and the context as a job. -/
  | copy (fn : FnIx) (q : BitVec 16) (c : SqEntry)
  /-- R491: GET_FAULTS copies fault records to a host buffer and advances the head. -/
  | getFaults (fn : FnIx) (q : BitVec 16) (c : SqEntry)
  /-- R491: RESOLVE resolves a fault with RETRY or FAIL. -/
  | resolve (fn : FnIx) (q : BitVec 16) (c : SqEntry)
  /-- R493: LOAD_IMAGE captures a program image's header and segment table. -/
  | loadImage (fn : FnIx) (q : BitVec 16) (c : SqEntry) (host : HostMem)
  /-- R493: UNLOAD_IMAGE discards an image no queued job names. -/
  | unloadImage (fn : FnIx) (q : BitVec 16) (c : SqEntry)
  /-- R493: SUBMIT queues a job of an image on a paddock. -/
  | submit (fn : FnIx) (q : BitVec 16) (c : SqEntry)
  /-- R498: SUSPEND sets the HOST hold of a job. -/
  | suspend (fn : FnIx) (q : BitVec 16) (c : SqEntry)
  /-- R498: RESUME clears the HOST hold of a job. -/
  | resume (fn : FnIx) (q : BitVec 16) (c : SqEntry)
  /-- R498: CANCEL cancels a job. -/
  | cancel (fn : FnIx) (q : BitVec 16) (c : SqEntry)
  /-- R493: QUERY returns a job's state, holds and status. -/
  | query (fn : FnIx) (q : BitVec 16) (c : SqEntry)
  /-- R499: JOB_CTL.SUSPEND performs SUSPEND on the selected job. -/
  | jobCtlSuspend (fn : FnIx) (save : Bool)
  /-- R499: JOB_CTL.RESUME performs RESUME on the selected job. -/
  | jobCtlResume (fn : FnIx)
  /-- R499: JOB_CTL.CANCEL performs CANCEL on the selected job. -/
  | jobCtlCancel (fn : FnIx)
  /-- R497: A queued job starts when its paddock is free, its image loaded and CLEARING ended. -/
  | jobStart (job : BitVec 32) (host : HostMem)
  /-- R648: A STACK_TEST maintenance request tests named pseudo-channels of a stack. -/
  | stackTest (a : MaintAsk)
  /-- R648: A STACK_SCRUB maintenance request scrubs a stack. -/
  | stackScrub (a : MaintAsk)
  /-- R648: A LINK_RETRAIN maintenance request retrains a Lamug port. -/
  | linkRetrain (a : MaintAsk)
  /-- R648: A REGION_RETEST maintenance request resets and self-tests an unowned region. -/
  | regionRetest (a : MaintAsk)
  /-- R565: A RECHAR maintenance request re-characterises a region's tile ceilings. -/
  | rechar (a : MaintAsk)
  /-- R643: An FW_STAGE maintenance request writes and checks a firmware set in the inactive bank. -/
  | fwStage (a : MaintAsk)
  /-- R645: An FW_ACTIVATE maintenance request activates a component on a target from a bank. -/
  | fwActivate (a : MaintAsk)
  /-- R667: A LICENCE_INSTALL maintenance request checks and installs a licence. -/
  | licenceInstall (a : MaintAsk)
  /-- R641: A LOG_ROTATE maintenance request erases the oldest log blocks. -/
  | logRotate (a : MaintAsk)
  /-- R651: A maintenance step ends, applying pending suspend or cancel or starting the next step. -/
  | maintStepEnd (job : BitVec 32) (r : StepResult)
  /-- R516: Every 10 ms a DOWN Lamug port checks for a signal. -/
  | signalDetectPoll (n : LampIx) (signal : Bool)
  /-- R517: A Lamug training step completes and the next begins, or the port returns to DOWN. -/
  | trainingStepDone (n : LampIx) (ok : Bool) (lanes : List (Fin 9)) (saved : Bool) (peerVer : BitVec 16) (peerPrev : BitVec 16) (peerEncrypts : Bool)
  /-- R517: Ten seconds after a training failure the port retries. -/
  | trainingRetry (n : LampIx)
  /-- R519: A port idle for 100 microseconds enters LOW_POWER on four lanes. -/
  | lowPowerEntry (n : LampIx) (peerAllows : Bool)
  /-- R519: A queued data flit returns the port to UP. -/
  | lowPowerExit (n : LampIx)
  /-- R522: A receiver decodes a codeword and checks its flits, requesting replay on error. -/
  | codewordReceive (n : LampIx) (corrected : Option (Fin 17)) (flits : List FlitHead) (crcBad : Bool) (tagBad : Bool)
  /-- R522: A REPLAY_REQ makes the sender resend from the named SEQ. -/
  | replayReq (n : LampIx) (seq : BitVec 12) (newMs : Bool)
  /-- R534: A LANE_CMD makes the transmitter move its lanes onto the spare. -/
  | laneCmd (n : LampIx) (lane : Fin 9)
  /-- R534: A swap marker codeword makes the receiver apply the new lane map. -/
  | swapMarker (n : LampIx)
  /-- R534: A failing lane is replaced by the spare, or the link degrades or goes down. -/
  | laneFailure (n : LampIx) (lane : Fin 9)
  /-- R534: A link that has received no flit for 100 microseconds goes DOWN. -/
  | linkIdleTimeout (n : LampIx)
  /-- R529: A HELLO from the peer records its module ID and port. -/
  | hello (n : LampIx) (peer : BitVec 12) (port : BitVec 8)
  /-- R527: Every second the module floods a FLOOR_ADV message. -/
  | floorAdvTimer
  /-- R527: A received FLOOR_ADV updates the table and is forwarded. -/
  | floorAdv (n : LampIx) (m : BitVec 12) (ver : BitVec 16) (seq : BitVec 32) (floor : BitVec 16)
  /-- R527: A module unheard for 5 seconds leaves the floor table. -/
  | floorTableExpiry (m : BitVec 12)
  /-- R528: After the floor has held at 3.0 or above for 2 seconds fabric groups become usable. -/
  | floorHoldExpiry
  /-- R530: A LINK_STATE message reports a port change to the fabric manager. -/
  | linkState (n : LampIx) (dst : BitVec 12) (body : List Nat)
  /-- R530: A ROUTE message from the fabric manager writes routing entries. -/
  | route (n : LampIx) (src : BitVec 12) (dst : BitVec 12) (entries : List (Fin 19 × BitVec 12 × BitVec 16))
  /-- R530: A GROUP message from the fabric manager writes group entries. -/
  | group (n : LampIx) (src : BitVec 12) (dst : BitVec 12) (entries : List (BitVec 128))
  /-- R537: A KEY_UPDATE derives a new link key. -/
  | keyUpdate (n : LampIx)
  /-- R537: Every 24 hours, or before the frame counter limit, a rekey is started. -/
  | rekeyTimer (n : LampIx)
  /-- R530: An ECHO message measures reachability and round trip. -/
  | echo (n : LampIx) (src : BitVec 12) (dst : BitVec 12) (reply : Bool) (token : BitVec 64)
  /-- R541: A fabric WRITE packet is checked against its endpoint and performed, or forwarded. -/
  | fabricWrite (n : LampIx) (p : FPacket)
  /-- R541: A fabric WRITE_ACK reaches the sending endpoint. -/
  | fabricWriteAck (n : LampIx) (p : FPacket) (host : HostMem)
  /-- R541: A fabric READ is checked against its endpoint and answered. -/
  | fabricRead (n : LampIx) (p : FPacket) (host : HostMem)
  /-- R541: Fabric READ_DATA reaches the requester and is written. -/
  | fabricReadData (n : LampIx) (p : FPacket)
  /-- R544: A group write packet travels to the root and down the group tree to members. -/
  | fabricGroup (n : LampIx) (p : FPacket)
  /-- R544: A GROUP_ACK travels toward the root, which completes the write when all are counted. -/
  | groupAck (n : LampIx) (p : FPacket)
  /-- R545: A fabric hurdle contribution combines up the group tree. -/
  | fabricHurdle (n : LampIx) (p : FPacket)
  /-- R545: A fabric hurdle value travels down to every member endpoint. -/
  | hurdleDone (n : LampIx) (p : FPacket)
  /-- R539: Every microsecond the HOME block reads an endpoint's tail word. -/
  | endpointTailPoll (e : Fin 1024) (full : Bool) (host : HostMem)
  /-- R539: A WRITE descriptor sends local data to a remote endpoint window. -/
  | descWrite (e : Fin 1024) (host : HostMem)
  /-- R539: A READ descriptor reads a remote endpoint window. -/
  | descRead (e : Fin 1024) (host : HostMem)
  /-- R544: A GROUP_WRITE descriptor writes every member of a fabric group. -/
  | groupWrite (e : Fin 1024) (host : HostMem)
  /-- R545: A HURDLE descriptor contributes to a fabric group's generation. -/
  | descHurdle (e : Fin 1024) (host : HostMem)
  /-- R541: A fabric request with no response in 10 ms is resent once or fails LINK_FAILED. -/
  | fabricRequestTimeout (e : Fin 1024) (txn : BitVec 16) (host : HostMem)
  /-- R544: A group branch without credit for 1 ms is pruned for the write. -/
  | groupBranchPrune (n : LampIx) (p : FPacket)
  /-- R546: A write of LNK_PCTL.RESET takes the link down and retrains from step 1. -/
  | lnkPortReset (pf : HostIx) (n : LampIx)
  /-- R546: A write of LNK_PCTL.ENABLE disables or enables a port. -/
  | lnkPortEnableWrite (pf : HostIx) (n : LampIx) (on : Bool)
  /-- R548: A write of LNK_PEQ.FORGET discards the saved equalisation. -/
  | lnkEqForget (pf : HostIx) (n : LampIx)
  /-- R548: A read of LNK_PFEC_UE returns and clears the uncorrectable codeword count. -/
  | pfecUeRead (pf : HostIx) (n : LampIx)
  /-- R548: A read of LNK_PREPLAY returns and clears the replay count. -/
  | preplayRead (pf : HostIx) (n : LampIx)
  /-- R549: A write of LNK_MODULE sets the module ID unless a port is up. -/
  | lnkModuleWrite (pf : HostIx) (id : BitVec 12)
  /-- R531: A write of LNK_RT_DATA writes the selected routing entry. -/
  | lnkRtDataWrite (pf : HostIx) (entry : BitVec 16)
  /-- R549: LNK_EP_CMD open configures an endpoint from the staged words. -/
  | epOpen (pf : HostIx) (e : Fin 1024)
  /-- R549: LNK_EP_CMD close completes unstarted descriptors CLOSED and waits for those in flight. -/
  | epClose (pf : HostIx) (e : Fin 1024) (host : HostMem)
  /-- R543: LNK_EP_CMD write group entry installs a fabric group entry. -/
  | groupEntryWrite (pf : HostIx) (g : BitVec 8)
  /-- R717: An overcurrent switches CAB_PWR off and the port stays DOWN. -/
  | cabPwrOvercurrent (n : LampIx)
  /-- R552: A feed below 340 V for 50 microseconds or a converter fault stops that converter and the other carries the load. -/
  | feedLoss (b : Bool) (live : Bool)
  /-- R552: A feed at 360 V for 1 second restarts its converter. -/
  | feedRestore (b : Bool)
  /-- R705: FSENSE opening stops that feed's converter within 20 microseconds. -/
  | fsenseOpen (b : Bool)
  /-- R553: The 54 V bus below 45 V loses the module, sealing the log. -/
  | busUndervoltage
  /-- R554: A transit or edge regulator moves to its partner brick when its own input falls below 6.2 V. -/
  | regulatorInputSwitch (g : Regulator)
  /-- R556: A brick over 140 A for 5 microseconds folds back to current limit. -/
  | brickFoldback (b : BrickIx)
  /-- R587: A brick below 6.2 V for 10 microseconds fails and its block's compute state is lost. -/
  | brickFailure (b : BrickIx)
  /-- R558: A region inactive for 64 ticks enters IDLE. -/
  | idleEntry (r : RegionIx)
  /-- R558: An arriving packet, completion or response ungates an IDLE region. -/
  | idleExit (r : RegionIx)
  /-- R559: After NAP_US the region goes to NAP if requested by all. -/
  | napTimer (r : RegionIx)
  /-- R559: After OFF_MS the region goes OFF if allowed. -/
  | offTimer (r : RegionIx)
  /-- R560: A wake starts when its brick's headroom covers the reservation. -/
  | wakeStart (r : RegionIx)
  /-- R560: A region's wake from NAP or OFF completes. -/
  | wakeComplete (r : RegionIx) (digest : Bool)
  /-- R564: A raise's voltage slew completes and the FMULT change follows. -/
  | voltageSlewDone (r : RegionIx)
  /-- R565: Timing-monitor stretches over 1% at a voltage point lower a ceiling entry. -/
  | ageingCheck (r : RegionIx) (k : Fin 8) (tiles : List (Fin 4))
  /-- R568: Every millisecond Fufin shares the effective cap among classes and regions. -/
  | capAllocation (m : PowerSample)
  /-- R570: Every microsecond a region controller updates its burst account and paces or lowers FMULT. -/
  | grantEnforce (r : RegionIx) (e : BitVec 32)
  /-- R575: Every 1,024 ms an untrusted estimator is refitted. -/
  | estimatorRefit (r : RegionIx)
  /-- R576: Every millisecond region sensors are checked and excluded if failing. -/
  | sensorSelfCheck (r : RegionIx) (temps : Vector (BitVec 8) 4) (failed : List (Fin 4))
  /-- R577: A region at 105 degrees is forced to FMULT 16 without firmware. -/
  | thermalForcedDrop (r : RegionIx)
  /-- R578: A comparator at 110 degrees gates the clock and puts the region in NAP, tripped. -/
  | thermalTrip (r : RegionIx) (sensor : Fin 4)
  /-- R578: After 1 ms below 100 degrees the region wakes at FMULT 16. -/
  | tripRelease (r : RegionIx)
  /-- R579: A tripped region at 120 degrees switches its compute rail off, losing its state. -/
  | heatShutdown (r : RegionIx)
  /-- R580: A hot stack lowers its issue rate or enters self-refresh. -/
  | hbmThermalThrottle (k : StackIx) (temp : BitVec 8)
  /-- R581: A Lamug port domain at 105 degrees is limited to 4 lanes. -/
  | linkEdgeThermal (n : LampIx) (temp : BitVec 8)
  /-- R582: The Fold cap is set from coolant inlet and flow readings. -/
  | foldCapUpdate (inlets : BitVec 16 × BitVec 16) (outlets : BitVec 16 × BitVec 16) (flows : BitVec 16 × BitVec 16)
  /-- R584: The module drop line puts every region and stack into the lowest state within 2 microseconds. -/
  | dropLineAssert (source : Option Regulator)
  /-- R585: Fufin reads a regulator fault latch and acts on its source. -/
  | regulatorFault (g : Regulator) (f : RegFault) (brick : Bool) (clears : Bool)
  /-- R585: Fufin releases the module lowest state once no alert remains. -/
  | lowestStateRelease
  /-- R586: A region short latches the region dead, rebuilds routing and re-binds its IDs. -/
  | regionShort (r : RegionIx)
  /-- R595: The rise of the Fold supply applies the module reset and begins a cold or fast start. -/
  | moduleReset (feedA feedB intact : Bool)
  /-- R709: A start waiting at phase 6 enters phase 7 once flow and inlet are within limits. -/
  | startCoolantWait
  /-- R600: The next wave of regions wakes once every brick has released its previous reservation. -/
  | waveStart
  /-- R604: A gleaning round fetches missing spores from neighbours. -/
  | gleanRound (t : TileIx)
  /-- R608: A 250 ms self-test step runs and its findings are acted on. -/
  | selfTestStep (r : RegionIx) (found : List Finding)
  /-- R610: A tile's self-test ends, DETECT_ONLY clears and the tile is zero-filled. -/
  | selfTestEnd (t : TileIx)
  /-- R597: The memory test ends, the start is recorded and service begins. -/
  | startComplete
  /-- R615: Fufin records a lost tile, re-binds its ID, moves state and updates maps and geometry. -/
  | tileLossHandle (t : TileIx)
  /-- R616: The copy of a lost tile's state to its new tile ends. -/
  | stateMoveCopyDone
  /-- R607: Fufin writes a new HBM copy of the tile image from the survivor or flash. -/
  | tileImageCopyRebuild (bad : List StackIx)
  /-- R694: Fufin freezes the paddock, fails the job and resets a fenced tile. -/
  | fencedTileReset (t : TileIx)
  /-- R692: A host port reset resets its functions and port block. -/
  | hostPortReset (p : HostIx)
  /-- R627: A lockstep mismatch stops the active pair and the standby takes over. -/
  | lockstepMismatch (b : Bool)
  /-- R628: The ROM watchdog restarts a stopped pair one second later. -/
  | watchdogRestart (b : Bool) (passes : Bool)
  /-- R639: A log block is sealed when full or one second after its first entry. -/
  | logBlockSeal (replaced : Bool)
  /-- R631: A write of MGT_CTL.SEND passes the mailbox request to Fufin. -/
  | mgtSend (pf : HostIx) (v : BitVec 32)
  /-- R635: GET_VERSION returns the message set version. -/
  | getVersion (via : Transport) (msg : List (BitVec 8))
  /-- R635: GET_STATUS returns module status and component versions. -/
  | getStatus (via : Transport) (msg : List (BitVec 8))
  /-- R635: LOG_INFO returns the log's extent and losses. -/
  | logInfo (via : Transport) (msg : List (BitVec 8))
  /-- R640: READ_LOG returns log entries with their block seals. -/
  | readLog (via : Transport) (msg : List (BitVec 8)) (bad : List (BitVec 32))
  /-- R641: LOG_ACK raises the acknowledgement point. -/
  | logAck (via : Transport) (msg : List (BitVec 8))
  /-- R635: READ_DEFECTS returns defect map records. -/
  | readDefects (via : Transport) (msg : List (BitVec 8))
  /-- R635: READ_TELEMETRY returns sensor readings. -/
  | readTelemetry (via : Transport) (msg : List (BitVec 8))
  /-- R635: MAINT_QUERY returns a maintenance job's state. -/
  | maintQuery (via : Transport) (msg : List (BitVec 8))
  /-- R635: MAINT_CTL suspends, resumes or cancels a maintenance job. -/
  | maintCtl (via : Transport) (msg : List (BitVec 8))
  /-- R635: LIST_MAINT lists every non-terminal maintenance job. -/
  | listMaint (via : Transport) (msg : List (BitVec 8))
  /-- R653: STOP makes an orderly stop of the module. -/
  | stop (via : Transport) (msg : List (BitVec 8))
  /-- R595: NEXT_COLD forces or unforces a cold next start. -/
  | nextCold (via : Transport) (msg : List (BitVec 8))
  /-- R655: A write of MGT_LOG_ACK raises the acknowledgement point. -/
  | mgtLogAckWrite (pf : HostIx) (seq : BitVec 64)
  /-- R655: A read of MGT_LOG_LOST returns and clears the dropped-entry count. -/
  | mgtLogLostRead (pf : HostIx)
  /-- R631: MCTP Set Endpoint ID assigns the Fold's endpoint ID. -/
  | setEndpointId (via : Transport) (eid : BitVec 8)
  /-- R631: MCTP Get Endpoint ID returns the endpoint ID. -/
  | getEndpointId (via : Transport)
  /-- R631: MCTP Get MCTP Version Support returns supported versions. -/
  | getMctpVersionSupport (via : Transport) (typ : BitVec 8)
  /-- R631: MCTP Get Message Type Support returns supported types. -/
  | getMessageTypeSupport (via : Transport)
  /-- R631: MCTP Get Vendor Defined Message Support returns the vendor message set. -/
  | getVendorDefinedMessageSupport (via : Transport) (selector : BitVec 8)
  /-- R636: PLDM GetPDRRepositoryInfo returns the repository information. -/
  | getPdrRepositoryInfo (via : Transport)
  /-- R636: PLDM GetPDR returns a sensor PDR. -/
  | getPdr (via : Transport) (handle : BitVec 32)
  /-- R636: PLDM GetSensorReading returns a sensor's reading. -/
  | getSensorReading (via : Transport) (id : BitVec 16)
  /-- R636: PLDM GetSensorThresholds returns a sensor's thresholds. -/
  | getSensorThresholds (via : Transport) (id : BitVec 16)
  /-- R636: PLDM SetEventReceiver names the receiver of platform events. -/
  | setEventReceiver (via : Transport) (eid : BitVec 8)
  /-- R636: A sensor crossing a threshold sends a PlatformEventMessage at most once per second. -/
  | thresholdCrossing (id : BitVec 16) (level : Fin 3)
  /-- R644: PLDM QueryDeviceIdentifiers returns device identifiers. -/
  | queryDeviceIdentifiers (via : Transport)
  /-- R644: PLDM GetFirmwareParameters returns component versions. -/
  | getFirmwareParameters (via : Transport)
  /-- R644: PLDM RequestUpdate opens an update session as an FW_STAGE job. -/
  | requestUpdate (via : Transport) (bytes : BitVec 32)
  /-- R644: PLDM PassComponentTable passes the components of the update. -/
  | passComponentTable (via : Transport) (comp : Fin 6) (last : Bool)
  /-- R644: PLDM UpdateComponent starts transfer of a component. -/
  | updateComponent (via : Transport) (comp : Fin 6) (bytes : BitVec 32)
  /-- R644: The answer to a RequestFirmwareData delivers up to 4,096 bytes of the package. -/
  | requestFirmwareData (n : BitVec 16)
  /-- R644: The answer to TransferComplete closes a component transfer. -/
  | transferComplete
  /-- R644: The answer to VerifyComplete closes verification. -/
  | verifyComplete (ok : Bool)
  /-- R644: The answer to ApplyComplete closes the apply stage. -/
  | applyComplete (f : FwSet)
  /-- R644: PLDM ActivateFirmware starts a FUFIN takeover or marks components pending. -/
  | activateFirmware (via : Transport) (selfContained : Bool)
  /-- R644: PLDM GetStatus returns the update session state. -/
  | pldmGetStatus (via : Transport)
  /-- R644: PLDM CancelUpdateComponent cancels a component transfer. -/
  | cancelUpdateComponent (via : Transport)
  /-- R644: PLDM CancelUpdate ends the update session. -/
  | cancelUpdate (via : Transport)
  /-- R662: SPDM GET_VERSION returns supported SPDM versions. -/
  | spdmGetVersion (a : SpdmAt)
  /-- R662: SPDM GET_CAPABILITIES returns capabilities. -/
  | getCapabilities (a : SpdmAt) (version : BitVec 8)
  /-- R662: SPDM NEGOTIATE_ALGORITHMS fixes the algorithms. -/
  | negotiateAlgorithms (a : SpdmAt) (offers : Bool)
  /-- R661: SPDM GET_DIGESTS returns slot digests. -/
  | getDigests (a : SpdmAt)
  /-- R662: SPDM GET_CERTIFICATE returns the certificate chain of slot 0. -/
  | getCertificate (a : SpdmAt) (slot : BitVec 8) (offset length : BitVec 16)
  /-- R662: SPDM CHALLENGE is answered with a signature by the alias key. -/
  | challenge (a : SpdmAt) (slot : BitVec 8) (nonce : BitVec 256)
  /-- R664: SPDM GET_MEASUREMENTS returns the current measurement blocks, signed. -/
  | getMeasurements (a : SpdmAt) (index : BitVec 8) (sig : Bool) (nonce : BitVec 256)
  /-- R663: SPDM KEY_EXCHANGE opens a secured session within the session limits. -/
  | keyExchange (a : SpdmAt) (slot : BitVec 8) (mutual_ : Bool) (nonce : BitVec 256)
  /-- R662: SPDM FINISH completes the session handshake. -/
  | finish (a : SpdmAt) (session : BitVec 32) (ok : Bool)
  /-- R663: SPDM END_SESSION ends a secured session. -/
  | endSession (a : SpdmAt) (session : BitVec 32)
  /-- R662: SPDM HEARTBEAT keeps a session alive. -/
  | heartbeat (a : SpdmAt) (session : BitVec 32)
  /-- R663: A session whose heartbeat times out ends. -/
  | heartbeatTimeout (a : SpdmAt) (session : BitVec 32)
  /-- R662: SPDM KEY_UPDATE updates session keys on a DOE or MCTP session. -/
  | spdmKeyUpdate (a : SpdmAt) (session : BitVec 32) (op : BitVec 8)
  /-- R662: SPDM CHUNK_SEND passes part of a large request. -/
  | chunkSend (a : SpdmAt) (handle : BitVec 8) (seq : BitVec 16) (last : Bool) (part : List (BitVec 8))
  /-- R662: SPDM CHUNK_GET returns part of a large response. -/
  | chunkGet (a : SpdmAt) (handle : BitVec 8) (seq : BitVec 16)
  /-- R671: IDE_KM QUERY returns IDE capabilities of a port. -/
  | ideKmQuery (fn : FnIx) (session : BitVec 32)
  /-- R671: IDE_KM KEY_PROG programs a stream key. -/
  | keyProg (fn : FnIx) (session : BitVec 32) (stream : BitVec 8) (set_ : Bool) (dir : Bool)
  /-- R671: IDE_KM K_SET_GO activates a key set. -/
  | kSetGo (fn : FnIx) (session : BitVec 32) (stream : BitVec 8) (set_ : Bool) (dir : Bool)
  /-- R671: IDE_KM K_SET_STOP stops a key set. -/
  | kSetStop (fn : FnIx) (session : BitVec 32) (stream : BitVec 8) (set_ : Bool) (dir : Bool)
  /-- R671: A TLP failing its IDE check puts its stream Insecure. -/
  | ideIntegrityFailure (p : HostIx) (stream : Fin 5)
  /-- R679: DEBUG_CONSENT opens a debug consent for a context. -/
  | debugConsent (fn : FnIx) (session : BitVec 32) (ctx : CtxIx) (key : BitVec 384) (scope : BitVec 8) (minutes : BitVec 16)
  /-- R679: DEBUG_WITHDRAW ends a debug consent. -/
  | debugWithdraw (fn : FnIx) (session : BitVec 32) (ctx : CtxIx)
  /-- R680: DEBUG_READ reads frozen or saved tile state under consent. -/
  | debugRead (a : SpdmAt) (session : BitVec 32) (paddock lid : BitVec 16) (source core : BitVec 8) (offset : BitVec 32) (n : BitVec 16)
  /-- R679: A debug consent ends when its minutes elapse. -/
  | consentExpiry (ctx : CtxIx)
  /-- R678: A debug licence ends after its hours of module time. -/
  | debugLicenceExpiry
  /-- R689: A write of ERR_HEAD frees records of the ERR ring. -/
  | errHeadWrite (fn : FnIx) (head : BitVec 9)
  /-- R690: A read of ERR_CNTc returns and clears the class count. -/
  | errCntRead (fn : FnIx) (c : Fin 5)
  /-- R690: A read of ERR_LOST returns and clears the dropped-record count. -/
  | errLostRead (fn : FnIx)
  /-- R708: Every 10 ms coolant sensors are self-checked and the Fold cap set to 6,000 W if a pair is lost. -/
  | coolantSensorCheck (k : Fin 6) (v : Option (BitVec 16))
  /-- R719: Unmating JSB abandons any I3C transfer under way. -/
  | jsbUnmate
  /-- R720: The TAP BYPASS instruction selects the bypass register. -/
  | bypass
  /-- R720: The TAP SAMPLE instruction captures the boundary cells. -/
  | sample (others : BitVec 32)
  /-- R720: The TAP PRELOAD instruction loads the boundary cells. -/
  | preload (cells : BitVec 64)
  /-- R720: The TAP EXTEST instruction drives the pins, only in its allowed windows. -/
  | extest
  /-- R720: The TAP IDCODE instruction selects the 0x19A0_99CB identification register. -/
  | idcode
  /-- R720: The TAP CLAMP instruction holds the pins, only in its allowed windows. -/
  | clamp
  /-- R720: The TAP HIGHZ instruction floats the pins, only in its allowed windows. -/
  | highz
  /-- R596: A start phase (wake, boot, identity, verification, fabric, spores) ends and the next phase begins. -/
  | startPhaseEnd (badLicences : List (BitVec 8)) (badBanks : List (Fin 2)) (brokenSeals : Fin 3)
  /-- R473: The host sets or clears SR-IOV VF Enable, giving each enabled VF its admin queue pair or returning disabled VFs' allotments after their reset. -/
  | vfEnable (pf : HostIx) (count : Fin 64)
  /-- R401: The host re-enables PRI for a function, lifting the block on Page Requests left by a Response Failure. -/
  | priReenable (fn : FnIx)
  /-- R504: A host port block receives a completion TLP for a device read of host memory, delivering its data, poisoned if EP, UR or CA. -/
  | hostCompletionReceived (p : HostIx) (tag : BitVec 14) (ok ep : Bool) (data : List (BitVec 8))
  /-- R504: A host-memory read without a completion within the completion timeout delivers every word poisoned and raises 0x6002. -/
  | completionTimeout (p : HostIx) (tag : BitVec 14)
  /-- R466: An HBM controller suffers an uncorrectable internal error, leading to a stack reset or the stack going out of service. -/
  | hbmControllerError (k : StackIx) (cleared : Bool)
  /-- R534: A Lamug port block fails and the port goes OUT_OF_SERVICE. -/
  | portBlockFailure (n : LampIx)
  /-- R717: CAB_PRES_N changes as a cable or module is mated or unmated, switching CAB_PWR on or off. -/
  | cabPresChange (n : LampIx) (low : Bool)
  /-- R705: FSENSE closes as a feed connector mates, and after 1 s the feed comes into service under R552. -/
  | fsenseClose (b : Bool)
  /-- R650: Every second Fufin retries a maintenance request of its own that met a full deferral queue. -/
  | maintRequestRetry
  /-- R631: The I3C ENTDAA command assigns the Fold target its dynamic address on the sideband bus. -/
  | entdaa (addr : BitVec 7)
  /-- R631: The I3C SETDASA command assigns a dynamic address from static address 0x3A. -/
  | setdasa (static addr : BitVec 7)
  /-- R662: SPDM GET_ENCAPSULATED_REQUEST lets the requester fetch the device's encapsulated request for mutual authentication. -/
  | getEncapsulatedRequest (a : SpdmAt)
  /-- R662: SPDM DELIVER_ENCAPSULATED_RESPONSE carries the requester's answer to the device's encapsulated request. -/
  | deliverEncapsulatedResponse (a : SpdmAt) (ok : Bool) (leaf : BitVec 384)
  deriving DecidableEq, Repr

end Sys2Proof
end

