-- ==== Sys2Proof/Decode.lean ====
section
/-! DEFINITION. The command a table word spells. Commands are operations and events: the spec's table gives no row any bits. -/
namespace Sys2Proof

/-- The command that a word spells by the table's bits: no row of the table gives bits, so none. -/
def decodeTableWord (_nbits _w : Nat) : Option Instr := none

end Sys2Proof
end

