-- ==== Sys2Proof/Machine/Bits.lean ====
section
/-! DEFINITION. Bit fields, sign extension and byte order, as the conventions of 00_scope.md give them. -/
namespace Sys2Proof.Machine

/-- Bits `[lo + w - 1 : lo]` of a natural number. -/
def fld (n lo w : Nat) : Nat := n / 2 ^ lo % 2 ^ w

/-- Bit `i` of a natural number. -/
def bit (n i : Nat) : Bool := n / 2 ^ i % 2 == 1

/-- One bit as a number. -/
def b01 (b : Bool) : Nat := if b then 1 else 0

/-- `v` placed at bit `lo` in a field `w` bits wide. -/
def atBit (v lo w : Nat) : Nat := v % 2 ^ w * 2 ^ lo

/-- The number `n` with its field of `w` bits at `lo` replaced by `v`. -/
def setFld (n lo w v : Nat) : Nat := n - atBit (fld n lo w) lo w + atBit v lo w

/-- The low `w` bits of `n` read as two's complement. -/
def sext (w n : Nat) : Int := if n % 2 ^ w < 2 ^ (w - 1) then (n % 2 ^ w : Int) else (n % 2 ^ w : Int) - 2 ^ w

/-- An integer modulo `2^w`. -/
def wrap (w : Nat) (i : Int) : Nat := (i % (2 ^ w : Int)).toNat

/-- The `n` little-endian bytes of a number. -/
def toBytes (v : Nat) : Nat → List Byte
  | 0 => []
  | n + 1 => BitVec.ofNat 8 v :: toBytes (v / 256) n

/-- The number that little-endian bytes spell. -/
def ofBytes : List Byte → Nat
  | [] => 0
  | b :: t => b.toNat + 256 * ofBytes t

/-- Ceiling of a quotient. -/
def cdiv (a b : Nat) : Nat := (a + b - 1) / b

end Sys2Proof.Machine
end

