-- ==== Sys2Proof/Machine/Float.lean ====
section
/-! DEFINITION. Binary floating point by exact dyadic arithmetic and one rounding (R93, R98, R100-R102, R112, R216, R217). -/
namespace Sys2Proof.Machine

/-- Rounding modes of CORE_FCSR.RM (R217). -/
inductive RM where
  | nearestEven | towardZero | down | up | nearestAway
  deriving DecidableEq, Repr, Inhabited

/-- The rounding mode that a value of RM names; 5-7 are never held (R245). -/
def rmOfNat : Nat → RM
  | 1 => .towardZero
  | 2 => .down
  | 3 => .up
  | 4 => .nearestAway
  | _ => .nearestEven

/-- The five sticky flags NV, DZ, OF, UF, NX (R217, R245). -/
structure FFlags where
  nv : Bool := false
  dz : Bool := false
  of : Bool := false
  uf : Bool := false
  nx : Bool := false
  deriving DecidableEq, Repr, Inhabited

/-- Flags of two steps together. -/
def FFlags.or (a b : FFlags) : FFlags :=
  ⟨a.nv || b.nv, a.dz || b.dz, a.of || b.of, a.uf || b.uf, a.nx || b.nx⟩

/-- The FLAGS field of CORE_FCSR (R245). -/
def FFlags.toNat (f : FFlags) : Nat :=
  16 * b01 f.nv + 8 * b01 f.dz + 4 * b01 f.of + 2 * b01 f.uf + b01 f.nx

/-- A floating-point datum: NaN, an infinity, or plus or minus `m * 2^e`. -/
inductive FV where
  | nan
  | inf (neg : Bool)
  | fin (neg : Bool) (m : Nat) (e : Int)
  deriving DecidableEq, Repr, Inhabited

/-- An IEEE binary format: exponent bits and mantissa bits. -/
structure FFmt where
  eb : Nat
  mb : Nat
  deriving DecidableEq, Repr

/-- IEEE binary32. -/
def fp32 : FFmt := ⟨8, 23⟩
/-- IEEE binary64. -/
def fp64 : FFmt := ⟨11, 52⟩
/-- BF16: binary32 with 8 significant bits (R93, R217). -/
def bf16 : FFmt := ⟨8, 7⟩

/-- Width of a format in bits. -/
def FFmt.width (f : FFmt) : Nat := 1 + f.eb + f.mb

/-- Exponent bias. -/
def FFmt.bias (f : FFmt) : Int := 2 ^ (f.eb - 1) - 1

/-- The bits of +infinity. -/
def FFmt.infBits (f : FFmt) : Nat := (2 ^ f.eb - 1) * 2 ^ f.mb

/-- The canonical quiet NaN (R102, R112, R217). -/
def FFmt.nanBits (f : FFmt) : Nat := f.infBits + 2 ^ (f.mb - 1)

/-- The sign bit's place value. -/
def FFmt.signBit (f : FFmt) : Nat := 2 ^ (f.eb + f.mb)

/-- Decoding an IEEE format; subnormals are honoured, every NaN is one NaN (R93, R217). -/
def FFmt.decode (f : FFmt) (bits : Nat) : FV :=
  let neg := bit bits (f.eb + f.mb)
  let e := fld bits f.mb f.eb
  let m := fld bits 0 f.mb
  if e = 2 ^ f.eb - 1 then (if m = 0 then .inf neg else .nan)
  else if e = 0 then .fin neg m (1 - f.bias - f.mb)
  else .fin neg (m + 2 ^ f.mb) ((e : Int) - f.bias - f.mb)

/-- `m / 2^k` (with `st` standing for a nonzero part below) rounded to an integer under `rm`. -/
def roundShift (rm : RM) (neg : Bool) (m k : Nat) (st : Bool) : Nat × Bool :=
  let q := m / 2 ^ k
  let r := m % 2 ^ k
  let half := if k = 0 then 0 else 2 ^ (k - 1)
  let inexact := r ≠ 0 || st
  let above := k ≠ 0 && (decide (r > half) || (r == half && st))
  let tie := k ≠ 0 && r == half && !st
  let up := match rm with
    | .nearestEven => above || (tie && q % 2 == 1)
    | .nearestAway => above || tie
    | .towardZero => false
    | .down => inexact && neg
    | .up => inexact && !neg
  (if up then q + 1 else q, inexact)

/-- Does overflow go to infinity under `rm` for this sign? -/
def overflowsToInf (rm : RM) (neg : Bool) : Bool :=
  match rm with
  | .nearestEven | .nearestAway => true
  | .towardZero => false
  | .down => neg
  | .up => !neg

/-- The value plus or minus `(m + st) * 2^e` (with `0 ≤ st < 1`, nonzero if the flag is set) rounded once to
the format: its bits and flags. Subnormals are kept, tininess is judged after rounding (R100, R112, R217). -/
def FFmt.round (f : FFmt) (rm : RM) (neg : Bool) (m : Nat) (e : Int) (st : Bool) : Nat × FFlags :=
  let s := if neg then f.signBit else 0
  if m = 0 ∧ st = false then (s, {}) else
  let low : Int := 1 - f.bias - f.mb
  let top : Int := (if m = 0 then e - 1 else (Nat.log2 m : Int) + e)
  let q := max (top - f.mb) low
  let (m', ix) :=
    if q ≤ e then (m * 2 ^ (e - q).toNat, st) else roundShift rm neg m (q - e).toNat st
  let bits := (q - low).toNat * 2 ^ f.mb + m'
  if bits ≥ f.infBits then
    (s + (if overflowsToInf rm neg then f.infBits else f.infBits - 1), { of := true, nx := true })
  else
    let q1 := top - f.mb
    let r1 := if q1 ≤ e then m * 2 ^ (e - q1).toNat else (roundShift rm neg m (q1 - e).toNat st).1
    let tiny := decide (q1 < low) && decide (r1 < 2 ^ (low + f.mb - q1).toNat)
    (s + bits, { nx := ix, uf := ix && tiny })

/-- Encoding a datum with one rounding (`st` as in `FFmt.round`). -/
def FFmt.encode (f : FFmt) (rm : RM) : FV → Nat × FFlags
  | .nan => (f.nanBits, {})
  | .inf neg => ((if neg then f.signBit else 0) + f.infBits, {})
  | .fin neg m e => f.round rm neg m e false

/-- Signed mantissas of two finite data over one exponent. -/
def alignFin (n1 : Bool) (m1 : Nat) (e1 : Int) (n2 : Bool) (m2 : Nat) (e2 : Int) : Int × Int × Int :=
  let e := min e1 e2
  let a : Int := (m1 * 2 ^ (e1 - e).toNat : Nat)
  let b : Int := (m2 * 2 ^ (e2 - e).toNat : Nat)
  (if n1 then -a else a, if n2 then -b else b, e)

/-- The exact sum of two data; an exact zero sum of unlike signs is +0, or -0 rounding down. -/
def FV.add (rm : RM) : FV → FV → FV × FFlags
  | .nan, _ => (.nan, {})
  | _, .nan => (.nan, {})
  | .inf a, .inf b => if a = b then (.inf a, {}) else (.nan, { nv := true })
  | .inf a, .fin .. => (.inf a, {})
  | .fin .., .inf b => (.inf b, {})
  | .fin n1 m1 e1, .fin n2 m2 e2 =>
    if m1 = 0 ∧ m2 = 0 then (.fin (if n1 = n2 then n1 else rm == .down) 0 0, {})
    else
      let (a, b, e) := alignFin n1 m1 e1 n2 m2 e2
      let t := a + b
      if t = 0 then (.fin (rm == .down) 0 0, {}) else (.fin (t < 0) t.natAbs e, {})

/-- The exact product of two data, with the specials of R98. -/
def FV.mul : FV → FV → FV × FFlags
  | .nan, _ => (.nan, {})
  | _, .nan => (.nan, {})
  | .inf a, .inf b => (.inf (a != b), {})
  | .inf a, .fin b m _ => if m = 0 then (.nan, { nv := true }) else (.inf (a != b), {})
  | .fin a m _, .inf b => if m = 0 then (.nan, { nv := true }) else (.inf (a != b), {})
  | .fin a m1 e1, .fin b m2 e2 => (.fin (a != b) (m1 * m2) (e1 + e2), {})

/-- The datum with its sign changed. -/
def FV.neg : FV → FV
  | .nan => .nan
  | .inf a => .inf (!a)
  | .fin a m e => .fin (!a) m e

/-- Numeric order of two data that are not NaN: `a < b`. -/
def FV.lt : FV → FV → Bool
  | .inf a, .inf b => a && !b
  | .inf a, .fin .. => a
  | .fin .., .inf b => !b
  | .fin n1 m1 e1, .fin n2 m2 e2 => let (a, b, _) := alignFin n1 m1 e1 n2 m2 e2; decide (a < b)
  | _, _ => false

/-- Numeric equality of two data; NaN equals nothing. -/
def FV.eq : FV → FV → Bool
  | .inf a, .inf b => a == b
  | .fin n1 m1 e1, .fin n2 m2 e2 => let (a, b, _) := alignFin n1 m1 e1 n2 m2 e2; decide (a = b)
  | _, _ => false

/-- Is the datum NaN? -/
def FV.isNan : FV → Bool
  | .nan => true
  | _ => false

/-- Is the datum's sign negative? -/
def FV.isNeg : FV → Bool
  | .nan => false
  | .inf a => a
  | .fin a _ _ => a

/-- Is the datum a zero? -/
def FV.isZero : FV → Bool
  | .fin _ m _ => m == 0
  | _ => false

/-- Sum rounded to a format. -/
def FFmt.add (f : FFmt) (rm : RM) (a b : Nat) : Nat × FFlags :=
  let (v, g) := FV.add rm (f.decode a) (f.decode b)
  let (r, h) := f.encode rm v
  (r, g.or h)

/-- Product rounded to a format. -/
def FFmt.mul (f : FFmt) (rm : RM) (a b : Nat) : Nat × FFlags :=
  let (v, g) := FV.mul (f.decode a) (f.decode b)
  let (r, h) := f.encode rm v
  (r, g.or h)

/-- `a * b + c` rounded once (R217). -/
def FFmt.fma (f : FFmt) (rm : RM) (a b c : Nat) : Nat × FFlags :=
  let (p, g) := FV.mul (f.decode a) (f.decode b)
  let (v, g') := FV.add rm p (f.decode c)
  let (r, h) := f.encode rm v
  (r, (g.or g').or h)

/-- Quotient rounded to a format (IEEE 754-2019). -/
def FFmt.div (f : FFmt) (rm : RM) (a b : Nat) : Nat × FFlags :=
  match f.decode a, f.decode b with
  | .nan, _ => (f.nanBits, {})
  | _, .nan => (f.nanBits, {})
  | .inf _, .inf _ => (f.nanBits, { nv := true })
  | .inf n, .fin k _ _ => f.encode rm (.inf (n != k))
  | .fin n _ _, .inf k => f.encode rm (.fin (n != k) 0 0)
  | .fin n m1 e1, .fin k m2 e2 =>
    if m2 = 0 then
      if m1 = 0 then (f.nanBits, { nv := true }) else ((f.encode rm (.inf (n != k))).1, { dz := true })
    else
      let sh := f.mb + 4 + Nat.log2 m2
      let num := m1 * 2 ^ sh
      f.round rm (n != k) (num / m2) (e1 - e2 - sh) (num % m2 != 0)

/-- The integer square root by bisection on its bits, from bit `n - 1` down. -/
def isqrtBits (m : Nat) : Nat → Nat → Nat
  | 0, r => r
  | n + 1, r => let r' := r + 2 ^ n; if r' * r' ≤ m then isqrtBits m n r' else isqrtBits m n r

/-- Square root rounded to a format. -/
def FFmt.sqrt (f : FFmt) (rm : RM) (a : Nat) : Nat × FFlags :=
  match f.decode a with
  | .nan => (f.nanBits, {})
  | .inf n => if n then (f.nanBits, { nv := true }) else (f.infBits, {})
  | .fin n m e =>
    if m = 0 then f.encode rm (.fin n 0 0)
    else if n then (f.nanBits, { nv := true })
    else
      let k : Nat := 2 * (f.mb + 4) + (if e % 2 = 0 then 0 else 1)
      let x := m * 2 ^ k
      let r := isqrtBits x (Nat.log2 x / 2 + 1) 0
      f.round rm false r ((e - k) / 2) (r * r != x)

/-- minimumNumber and maximumNumber, with -0 below +0 (R217); `mx` chooses the maximum. -/
def FFmt.minMax (f : FFmt) (mx : Bool) (a b : Nat) : Nat :=
  let x := f.decode a
  let y := f.decode b
  if x.isNan ∧ y.isNan then f.nanBits
  else if x.isNan then b
  else if y.isNan then a
  else
    let xBelow := x.lt y || (x.eq y && x.isNeg && !y.isNeg)
    if xBelow = mx then b else a

/-- The integer a datum rounds to, saturated to `[lo, hi]`, NaN to 0; both set NV (R217). -/
def FV.toInt (rm : RM) (lo hi : Int) : FV → Int × FFlags
  | .nan => (0, { nv := true })
  | .inf n => (if n then lo else hi, { nv := true })
  | .fin n m e =>
    let (q, ix) := if 0 ≤ e then (m * 2 ^ e.toNat, false) else roundShift rm n m (-e).toNat false
    let v : Int := if n then -(q : Int) else q
    if v < lo then (lo, { nv := true }) else if v > hi then (hi, { nv := true }) else (v, { nx := ix })

/-- An integer as a datum. -/
def FV.ofInt (i : Int) : FV := .fin (i < 0) i.natAbs 0

/-- FCLASS's one-hot class (R216). -/
def FFmt.classify (f : FFmt) (a : Nat) : Nat :=
  match f.decode a with
  | .nan => 2 ^ 8
  | .inf n => if n then 2 ^ 0 else 2 ^ 7
  | .fin n m _ =>
    if m = 0 then (if n then 2 ^ 3 else 2 ^ 4)
    else if m < 2 ^ f.mb then (if n then 2 ^ 2 else 2 ^ 5)
    else (if n then 2 ^ 1 else 2 ^ 6)

end Sys2Proof.Machine
end

