-- ==== Sys2Proof/Machine/Formats.lean ====
section
/-! DEFINITION. Array operand formats, products, exact entries and drain rounding (R92-R98, R100-R112, R120). -/
namespace Sys2Proof.Machine

/-- Element width in bits of a format code (R92); 0 for a reserved code. -/
def fmtWidth : Nat → Nat
  | 0x0 => 16 | 0x1 => 8 | 0x2 => 8 | 0x3 => 8 | 0x4 => 8 | 0x5 => 8 | 0x6 => 8
  | 0x7 => 6 | 0x8 => 6 | 0x9 => 4 | 0xA => 32 | 0xB => 64 | _ => 0

/-- Does the format carry one E8M0 scale per 32 elements (R92)? -/
def fmtMX (c : Nat) : Bool := decide (4 ≤ c ∧ c ≤ 9)

/-- A small format with `eb` exponent and `mb` mantissa bits and no special values (R93). -/
def decodeSmall (eb mb : Nat) (bias : Int) (bits : Nat) : FV :=
  let neg := bit bits (eb + mb)
  let e := fld bits mb eb
  let m := fld bits 0 mb
  if e = 0 then .fin neg m (1 - bias - mb) else .fin neg (m + 2 ^ mb) ((e : Int) - bias - mb)

/-- The value of one element before its block scale (R93). -/
def decodeElem (c bits : Nat) : FV :=
  match c with
  | 0x0 => bf16.decode bits
  | 0x1 | 0x4 => if fld bits 0 7 = 0x7F then .nan else decodeSmall 4 3 7 bits
  | 0x2 | 0x5 => FFmt.decode ⟨5, 2⟩ bits
  | 0x3 => FV.ofInt (sext 8 bits)
  | 0x6 => let i := sext 8 bits; .fin (i < 0) i.natAbs (-6)
  | 0x7 => decodeSmall 3 2 3 bits
  | 0x8 => decodeSmall 2 3 1 bits
  | 0x9 => decodeSmall 2 1 1 bits
  | 0xA => fp32.decode bits
  | 0xB => fp64.decode bits
  | _ => .fin false 0 0

/-- An element with its E8M0 scale code: code 0xFF makes every element NaN (R94). Formats without a scale pass 127. -/
def scaled (v : FV) (k : Nat) : FV :=
  if k = 0xFF then .nan
  else match v with
    | .fin n m e => .fin n m (e + k - 127)
    | x => x

/-- Zero under R120: zero before its scale, and the scale is not NaN. -/
def elemZero (c bits k : Nat) : Bool := (decodeElem c bits).isZero && k != 0xFF

/-- The group of formats that may meet in one pass (R97): 1 BF16, 2 8-bit float, 3 integer, 4 6- and 4-bit float. -/
def fmtGroup : Nat → Nat
  | 0x0 => 1
  | 0x1 | 0x2 | 0x4 | 0x5 => 2
  | 0x3 | 0x6 => 3
  | 0x7 | 0x8 | 0x9 => 4
  | _ => 0

/-- The cell rate C of a format pair, or none for a pair not in R97. -/
def pairRate (act wt : Nat) : Option Nat :=
  match fmtGroup act, fmtGroup wt with
  | 1, 1 => some 1
  | 2, 2 | 2, 4 | 4, 2 | 3, 3 => some 2
  | 4, 4 => some 4
  | _, _ => none

/-- SPECIAL of an exact entry (R103). -/
inductive Special where
  | finite | posInf | negInf | nan
  deriving DecidableEq, Repr, Inhabited

/-- Combining two SPECIAL values, and whether it is an invalid operation (R107). -/
def Special.comb : Special → Special → Special × Bool
  | .finite, x => (x, false)
  | x, .finite => (x, false)
  | .posInf, .posInf => (.posInf, false)
  | .negInf, .negInf => (.negInf, false)
  | .nan, _ => (.nan, false)
  | _, .nan => (.nan, false)
  | .posInf, .negInf => (.nan, true)
  | .negInf, .posInf => (.nan, true)

/-- One partial sum: an FP32 value in normal mode, or an exact integer with its status (R55, R100, R103). -/
structure Sum where
  f : Nat := 0x80000000
  n : Int := 0
  hi : Bool := false
  lo : Bool := false
  sp : Special := .finite
  deriving DecidableEq, Repr, Inhabited

/-- The four flags of one array in ARR_XSTAT (R119). -/
structure XFlags where
  of : Bool := false
  nv : Bool := false
  xlo : Bool := false
  xhi : Bool := false
  deriving DecidableEq, Repr, Inhabited

def XFlags.or (a b : XFlags) : XFlags := ⟨a.of || b.of, a.nv || b.nv, a.xlo || b.xlo, a.xhi || b.xhi⟩

/-- XSTAT as the status word carries it: OF, NV, XLO, XHI in bits 3 to 0 (R255). -/
def XFlags.toNat (x : XFlags) : Nat := 8 * b01 x.of + 4 * b01 x.nv + 2 * b01 x.xlo + b01 x.xhi

/-- One row's addition in normal mode: exact sum of the incoming FP32 value and the exact product, one rounding (R100, R102). -/
def addNormal (s : Nat) (p : FV) (invalid : Bool) : Nat × XFlags :=
  let (v, g) := FV.add .nearestEven (fp32.decode s) p
  let (r, h) := fp32.encode .nearestEven v
  (r, { of := h.of, nv := g.nv || invalid })

/-- A two's complement integer of `w` bits. -/
def wrapI (w : Nat) (i : Int) : Int := sext w (wrap w i)

/-- `⌊p / 2^q⌋` of a finite product, and whether nonzero bits were discarded (R105). -/
def floorShift (neg : Bool) (m : Nat) (e q : Int) : Int × Bool :=
  let a : Int := if neg then -(m : Int) else m
  if q ≤ e then (a * 2 ^ (e - q).toNat, false)
  else let d : Int := 2 ^ (q - e).toNat; (a / d, a % d ≠ 0)

/-- One product added to an exact entry of anchor `A` (R105-R107); `wide` is BF16 exact mode (R108). -/
def addExact (wide : Bool) (A : Int) (s : Sum) (p : FV) (invalid : Bool) : Sum × XFlags :=
  match p with
  | .nan => let (k, nv) := s.sp.comb .nan; ({ s with sp := k }, { nv := nv || invalid })
  | .inf n => let (k, nv) := s.sp.comb (if n then .negInf else .posInf); ({ s with sp := k }, { nv := nv })
  | .fin n m e =>
    if wide then ({ s with n := wrapI 1024 (s.n + (floorShift n m e (-266)).1) }, {})
    else
      let (d, tr) := floorShift n m e (A - 192)
      let high := decide ((m : Int) * 2 ^ (e - (A + 32)).toNat ≥ 2 ^ ((A + 32) - e).toNat)
      ({ s with n := wrapI 256 (s.n + d), hi := s.hi || high, lo := s.lo || tr }, { xlo := tr, xhi := high })

/-- Two exact sums added, as an ADD write does (R104, R107). -/
def combineExact (wide : Bool) (a b : Sum) : Sum × XFlags :=
  let (k, nv) := a.sp.comb b.sp
  ({ f := a.f, n := wrapI (if wide then 1024 else 256) (a.n + b.n), hi := a.hi || b.hi, lo := a.lo || b.lo, sp := k }, { nv := nv })

/-- The IEEE format of a drain's output code: 0x0 BF16, 0xA FP32, 0xB FP64 (R273). -/
def drainFmt (c : Nat) : FFmt := if c = 0x0 then bf16 else if c = 0xB then fp64 else fp32

/-- A normal-mode entry converted to the drain's output format (R112). -/
def drainNormal (out bits : Nat) : Nat × XFlags :=
  if out = 0xA then (bits, {})
  else let (r, h) := (drainFmt out).encode .nearestEven (fp32.decode bits); (r, { of := h.of })

/-- An exact or BF16 exact entry rounded once into the drain's output format (R112). -/
def drainExact (out : Nat) (wide : Bool) (A : Int) (s : Sum) : Nat × XFlags :=
  let f := drainFmt out
  match s.sp with
  | .nan => (f.nanBits, {})
  | .posInf => (f.infBits, {})
  | .negInf => (f.signBit + f.infBits, {})
  | .finite =>
    if s.hi then (f.nanBits, { xhi := true })
    else
      let (r, h) := f.encode .nearestEven (.fin (s.n < 0) s.n.natAbs (if wide then -266 else A - 192))
      (r, { of := h.of })

/-- Conversion to one of the narrow MX element types, to nearest even, saturating (R220): exponent bits, mantissa
bits, bias, largest finite code, the code NaN becomes. -/
def encodeSmall (eb mb : Nat) (bias : Int) (maxCode nanCode : Nat) : FV → Nat × FFlags
  | .nan => (nanCode, { nv := true })
  | .inf n => (maxCode + b01 n * 2 ^ (eb + mb), { of := true, nx := true })
  | .fin n m e =>
    let s := b01 n * 2 ^ (eb + mb)
    if m = 0 then (s, {}) else
    let low : Int := 1 - bias - mb
    let q := max ((Nat.log2 m : Int) + e - mb) low
    let (m', ix) := if q ≤ e then (m * 2 ^ (e - q).toNat, false) else roundShift .nearestEven n m (q - e).toNat false
    let bits := (q - low).toNat * 2 ^ mb + m'
    if bits > maxCode then (s + maxCode, { of := true, nx := true })
    else (s + bits, { nx := ix, uf := ix && decide (bits < 2 ^ mb) })

end Sys2Proof.Machine
end

