-- ==== Sys2Proof/Machine/Tab.lean ====
section
/-! DEFINITION. Reading and writing sparse tables in canonical form. -/
namespace Sys2Proof.Machine

/-- What key `k` reads as in `t`: its entry, or the type's default value. -/
def tget {β : Type} [Inhabited β] : Tab β → Nat → β
  | [], _ => default
  | (k', v) :: t, k => if k = k' then v else tget t k

/-- `t` without any entry for key `k`. -/
def tdel {β : Type} (t : Tab β) (k : Nat) : Tab β := t.filter fun e => !decide (e.1 = k)
/-- An entry put before the first one of a greater key. -/
def tins {β : Type} : Tab β → Nat → β → Tab β
  | [], k, v => [(k, v)]
  | (k', v') :: t, k, v => if k < k' then (k, v) :: (k', v') :: t else (k', v') :: tins t k v
/-- `t` with key `k` reading as `v`; an entry equal to the default value is removed. -/
def tput {β : Type} [Inhabited β] [DecidableEq β] (t : Tab β) (k : Nat) (v : β) : Tab β :=
  if v = default then tdel t k else tins (tdel t k) k v

/-- `t` with the value at key `k` changed by `f`. -/
def tmod {β : Type} [Inhabited β] [DecidableEq β] (t : Tab β) (k : Nat) (f : β → β) : Tab β :=
  tput t k (f (tget t k))

/-- Every listed value changed by `f`. -/
def tmap {β : Type} [Inhabited β] [DecidableEq β] (f : β → β) (t : Tab β) : Tab β :=
  t.filterMap fun e => if f e.2 = default then none else some (e.1, f e.2)

/-- The canonical form: keys strictly rising from `lo` on, and no default value listed. -/
def tabFrom {β : Type} [Inhabited β] [DecidableEq β] : Nat → Tab β → Bool
  | _, [] => true
  | lo, (k, v) :: t => decide (lo ≤ k) && !decide (v = default) && tabFrom (k + 1) t

/-- The canonical form of a table. -/
def Tab.wf {β : Type} [Inhabited β] [DecidableEq β] (t : Tab β) : Bool := tabFrom 0 t

/-- A set of numbers as a strictly rising list: membership by `List.contains`, insertion here. -/
def setIns : List Nat → Nat → List Nat
  | [], k => [k]
  | a :: t, k => if k < a then k :: a :: t else if k = a then a :: t else a :: setIns t k

/-- A set of numbers without `k`. -/
def setDel (t : List Nat) (k : Nat) : List Nat := t.filter fun a => !decide (a = k)

/-- `k` in or out of the set, as `b` says. -/
def setPut (t : List Nat) (k : Nat) (b : Bool) : List Nat := if b then setIns t k else setDel t k

/-- Is the list strictly rising from `lo` on? -/
def risingFrom : Nat → List Nat → Bool
  | _, [] => true
  | lo, a :: t => decide (lo ≤ a) && risingFrom (a + 1) t

/-- The list with its element `i` changed by `f` (nothing where there is none). -/
def listMod {α : Type} : List α → Nat → (α → α) → List α
  | [], _, _ => []
  | a :: t, 0, f => f a :: t
  | a :: t, n + 1, f => a :: listMod t n f

/-- The numbers `a, a+1, …, a+n-1`. -/
def upto (a : Nat) : Nat → List Nat
  | 0 => []
  | n + 1 => a :: upto (a + 1) n

end Sys2Proof.Machine
end

