-- ==== Sys2Proof/Machine/Desc.lean ====
section
/-! DEFINITION. Tensor descriptors: fields, element places, streams, sheets and validity (R95, R223, R224). -/
namespace Sys2Proof.Machine

/-- Least multiple of 32 at or above. -/
def up32 (n : Nat) : Nat := (n + 31) / 32 * 32

/-- A tensor descriptor's fields (R223). ROWS, COLS and PLANES are held as counts. -/
structure Desc where
  fmt        : Nat
  base       : Nat
  cols       : Nat
  rows       : Nat
  planes     : Nat
  rowPitch   : Nat
  planePitch : Nat
  zone       : Bool
  zchk       : Bool
  transposed : Bool
  gdrop      : Bool
  vdrop      : Nat
  nm         : Nat
  idxBase    : Nat
  scaleBase  : Nat
  deriving DecidableEq, Repr

/-- The descriptor held in 256 bits. -/
def Desc.ofNat (d : Nat) : Desc where
  fmt := fld d 23 4
  base := fld d 0 23
  cols := fld d 48 16 + 1
  rows := fld d 32 16 + 1
  planes := fld d 87 4 + 1
  rowPitch := fld d 64 23
  planePitch := fld d 96 23
  zone := bit d 135
  zchk := bit d 134
  transposed := bit d 133
  gdrop := bit d 132
  vdrop := fld d 130 2
  nm := fld d 128 2
  idxBase := fld d 160 23
  scaleBase := fld d 192 23

/-- The reserved bits of a descriptor that are not zero (R223). -/
def descReserved (d : Nat) : Bool :=
  fld d 27 5 != 0 || fld d 91 5 != 0 || fld d 119 9 != 0 || fld d 136 24 != 0 || fld d 183 9 != 0 || fld d 215 9 != 0

/-- Element width in bits. -/
def Desc.width (d : Desc) : Nat := fmtWidth d.fmt
/-- Bytes that hold one row of elements. -/
def Desc.rowBytes (d : Desc) : Nat := cdiv (d.width * d.cols) 8
/-- The sparsity factor S that NM names. -/
def Desc.s (d : Desc) : Nat := if d.nm = 1 then 2 else if d.nm = 2 then 4 else 1
/-- Does the surface have an index stream? -/
def Desc.hasIdx (d : Desc) : Bool := d.nm != 0
/-- Does the surface have a scale stream? -/
def Desc.hasScale (d : Desc) : Bool := fmtMX d.fmt
/-- Bytes of one plane's index stream. -/
def Desc.idxLen (d : Desc) : Nat := cdiv (d.rows * d.cols) 4
/-- Bytes of one plane's scale stream; a diagonal block has one byte per weight. -/
def Desc.scaleLen (d : Desc) (diag : Bool) : Nat := if diag then d.cols else d.rows * d.s * cdiv d.cols 32
def Desc.idxStart (d : Desc) (p : Nat) : Nat := d.idxBase + p * up32 d.idxLen
def Desc.scaleStart (d : Desc) (diag : Bool) (p : Nat) : Nat := d.scaleBase + p * up32 (d.scaleLen diag)

/-- Bit place of element (i, k) of plane p, in bits from the start of the scratchpad. -/
def Desc.elemBit (d : Desc) (p i k : Nat) : Nat :=
  8 * (d.base + p * d.planePitch) +
    (if d.rowPitch = 0 then d.width * (i * d.cols + k) else 8 * (i * d.rowPitch) + d.width * k)

/-- The byte runs (offset, bytes) that hold the elements: whole planes where rows are packed as one stream, else rows. -/
def Desc.elemRuns (d : Desc) : List (Nat × Nat) :=
  (upto 0 d.planes).flatMap fun p =>
    if d.rowPitch = 0 then [(d.base + p * d.planePitch, cdiv (d.width * d.rows * d.cols) 8)]
    else (upto 0 d.rows).map fun i => (d.base + p * d.planePitch + i * d.rowPitch, d.rowBytes)

/-- The byte runs of the index and scale streams. -/
def Desc.auxRuns (d : Desc) (diag : Bool) : List (Nat × Nat) :=
  (if d.hasIdx then (upto 0 d.planes).map fun p => (d.idxStart p, d.idxLen) else []) ++
  (if d.hasScale then (upto 0 d.planes).map fun p => (d.scaleStart diag p, d.scaleLen diag) else [])

/-- The byte run of each row, over all planes, in surface order (R281). -/
def Desc.rowRuns (d : Desc) : List (Nat × Nat) :=
  (upto 0 d.planes).flatMap fun p => (upto 0 d.rows).map fun i =>
    (d.base + p * d.planePitch + (if d.rowPitch = 0 then d.width * i * d.cols / 8 else i * d.rowPitch), d.rowBytes)

/-- The sheets that hold a byte of the runs, ascending. -/
def sheetsOf (runs : List (Nat × Nat)) : List Nat :=
  runs.foldl (fun acc r => if r.2 = 0 then acc else
    (upto (r.1 / 32768) ((r.1 + r.2 - 1) / 32768 + 1 - r.1 / 32768)).foldl setIns acc) []

/-- The sheets of a surface (R277). -/
def Desc.sheets (d : Desc) (diag : Bool) : List Nat := sheetsOf (d.elemRuns ++ d.auxRuns diag)

/-- Does any byte of the surface lie outside the scratchpad? -/
def Desc.outside (d : Desc) (diag : Bool) : Bool := (d.elemRuns ++ d.auxRuns diag).any fun r => decide (r.1 + r.2 > 0x800000)

/-- R224: is the descriptor refused? `weightSheet` tells a sheet's zone. -/
def descBad (weightSheet : Nat → Bool) (diag : Bool) (bits : Nat) : Bool :=
  let d := Desc.ofNat bits
  descReserved bits || decide (d.fmt ≥ 12) || d.vdrop == 3 || d.nm == 3 ||
  d.base % 32 != 0 || d.rowPitch % 32 != 0 || d.planePitch % 32 != 0 || d.idxBase % 32 != 0 || d.scaleBase % 32 != 0 ||
  (d.rowPitch != 0 && decide (d.rowPitch < up32 d.rowBytes)) ||
  (d.nm != 0 && (d.fmt == 0xA || d.fmt == 0xB)) ||
  d.outside diag ||
  (d.zchk && (d.sheets diag).any fun s => weightSheet s != d.zone)

end Sys2Proof.Machine
end

