-- ==== Sys2Proof/Config.lean ====
section
/-! DEFINITION. The free values: what the spec leaves open. Each is opaque, so no statement can rest on a value. -/
namespace Sys2Proof.Config

/-- The special functions VRCP, VRSQ, VEXP, VLOG, VEXP2 (index 0-4) on FP32 bits: fixed functions whose bits the spec
does not state (R221); VEXP is also the dispatch unit's exponential (R146). -/
opaque special : Nat → Nat → Nat

/-- What an accumulator entry reads as when the half was last written in another mode (R71 states no overlay). -/
opaque overlaidEntry : Nat → Nat

/-- The scale code of a lane that the slot's load did not fill (R123 states none). -/
opaque unheldScale : Nat → Nat

/-- The weight bits that a BF16 exact pass meets where the four arrays hold unlike blocks (R108 loads one block). -/
opaque unlikeBlocks : Nat → Nat

/-- A fresh value for each number of the state's counter: results the spec leaves open. -/
opaque freeValue : Nat → Nat

/-- The sticky flags (R245's order) that a special function raises: the spec states only its result (R221). -/
opaque specialFlags : Nat → Nat → Nat

/-- A vector shift by the element width or more: kind (0 left, 1 logical right, 2 arithmetic right), width, element,
amount. R218 states no result. -/
opaque wideShift : Nat → Nat → Nat → Nat → Nat

/-- Whether a fused multiply-add of zero, infinity and a quiet NaN raises NV: IEEE Std 754-2019, which R217 follows,
leaves it to the implementation. -/
opaque fmaInvalid : Bool

/-- The row that a line of a pseudo-channel lies in, the bank of a row, and the spare rows of a bank: internal to the stack
(R446, R454 state none). -/
opaque hbmRow : Nat → Nat
opaque hbmBank : Nat → Nat
opaque spareRows : Nat

/-- The fused ceiling table of a physical tile: the FMULT of entry k (R561); each module's own. -/
opaque fusedCeiling : Nat → Nat → Nat

/-- Leakage in mW of a region at a compute-rail voltage in mV and a temperature in degrees: the factory calibration's table
(R571). -/
opaque leakage : Nat → Nat → Nat → Nat

/-- Where a record packs its items, whose widths the spec does not state: DETAIL of an event record by code (R687), WHERE of a
defect record by kind (R611). -/
opaque packDetail : Nat → List Nat → Nat
opaque packWhere : Nat → List Nat → Nat

/-- Where the boundary cells lie in their register (R720): TRST_N and the I3C, status and sense pins are as the given numbers say. -/
opaque packCells : List Nat → Nat

/-- Signatures of the secure element (ECDSA P-384, R638, R660, R664): by the generation of the alias key, over the numbers signed. -/
opaque sign : Nat → List Nat → Nat

/-- What is fused or stored in each module alone: the serial number, the Unique Device Secret, the boot ROM, and the public key in
the DeviceID certificate (R658-R661). -/
opaque serial : BitVec 64
opaque deviceSecret : List (BitVec 8)
opaque bootRom : List (BitVec 8)
opaque deviceCert : Nat × Nat

/-- The certificate chain of slot 0: for an alias generation and what its certificate names, the alias public key, the digests of ROM
and FUFIN, and the security version (R661). -/
opaque certChain : Nat → List Nat → List (BitVec 8)

/-- How measurement block 8 packs the licences in force, the variant code and the floors before they are hashed (R664). -/
opaque packLicences : List Nat → List (BitVec 8)

/-- The responder's public values of a key exchange, by the session's number (DSP0274). -/
opaque exchange : Nat → Nat

end Sys2Proof.Config
end

