-- ==== Sys2Proof/Machine/Geometry.lean ====
section
/-! DEFINITION. Coordinates, numbering and attachment (R2-R4, R20-R22, R25-R31, R299). A physical tile is its node number 24y + x. -/
namespace Sys2Proof.Machine

/-- x of a physical tile. -/
def tx (t : Nat) : Nat := t % 24
/-- y of a physical tile. -/
def ty (t : Nat) : Nat := t / 24
/-- The tile at (x, y). -/
def tileAt (x y : Nat) : Nat := 24 * y + x
/-- Field of a tile (R20). -/
def fieldOf (t : Nat) : Nat := 3 * (ty t / 8) + tx t / 8
/-- Local region of a tile (R20). -/
def localRegion (t : Nat) : Nat := 4 * (ty t / 2 % 4) + tx t / 2 % 4
/-- Region of a tile (R20). -/
def regionOf (t : Nat) : Nat := 16 * fieldOf t + localRegion t
/-- Slot of a tile within its region (R20). -/
def slotOf (t : Nat) : Nat := 2 * (ty t % 2) + tx t % 2
/-- Binding position within the field (R20). -/
def posOf (t : Nat) : Nat := 16 * slotOf t + localRegion t
/-- Brick of a tile (R20). -/
def brickOf (t : Nat) : Nat := 6 * (ty t / 4) + tx t / 4
/-- Seams crossed along one axis (R22). -/
def seams1 (a b : Nat) : Nat :=
  b01 (decide (min a b < 8 ∧ 8 ≤ max a b)) + b01 (decide (min a b < 16 ∧ 16 ≤ max a b))
/-- Seams crossed between two tiles (R22). -/
def seamsBetween (t u : Nat) : Nat := seams1 (tx t) (tx u) + seams1 (ty t) (ty u)
/-- The tile of field `f` at binding position `i` (R20, R26). -/
def tileAtPos (f i : Nat) : Nat :=
  let slot := i / 16
  let lr := i % 16
  tileAt (8 * (f % 3) + 2 * (lr % 4) + slot % 2) (8 * (f / 3) + 2 * (lr / 4) + slot / 2)
/-- The designated tile of a logical ID. -/
def designated (l : Nat) : Nat := tileAtPos (l / 60) (l % 60)
/-- The tile in slot `k` of region `r`. -/
def tileInRegion (r k : Nat) : Nat := tileAtPos (r / 16) (16 * k + r % 16)
/-- The four tiles of a region, NW, NE, SW, SE. -/
def regionTiles (r : Nat) : List Nat := (upto 0 4).map (tileInRegion r)
/-- Brick of a region. -/
def brickOfRegion (r : Nat) : Nat := brickOf (tileInRegion r 0)
/-- The neighbour of a tile on a side: 0 north, 1 east, 2 south, 3 west. -/
def neighbour (t side : Nat) : Option Nat :=
  match side with
  | 0 => if ty t = 0 then none else some (t - 24)
  | 1 => if tx t = 23 then none else some (t + 1)
  | 2 => if ty t = 23 then none else some (t + 24)
  | _ => if tx t = 0 then none else some (t - 1)
/-- The side opposite to a side. -/
def opposite (side : Nat) : Nat := (side + 2) % 4
/-- L of a scheduled link: 6 within a field, 10 across a seam (R362). -/
def linkL (t side : Nat) : Nat :=
  match neighbour t side with
  | none => 0
  | some u => if seamsBetween t u = 0 then 6 else 10
/-- The edge node on an outward side of an edge tile (R299). -/
def edgeNode (t side : Nat) : Option Nat :=
  match side with
  | 0 => if ty t = 0 then some (576 + tx t) else none
  | 1 => if tx t = 23 then some (600 + ty t) else none
  | 2 => if ty t = 23 then some (624 + tx t) else none
  | _ => if tx t = 0 then some (648 + ty t) else none
/-- The tile an edge node belongs to (R299). -/
def edgeTile (n : Nat) : Nat :=
  if n < 600 then n - 576
  else if n < 624 then tileAt 23 (n - 600)
  else if n < 648 then tileAt (n - 624) 23
  else tileAt 0 (n - 648)
/-- Is the number an edge node's? -/
def isEdge (n : Nat) : Bool := decide (576 ≤ n ∧ n < 672)
/-- FA-N and FA-S (R299). -/
def isFold (n : Nat) : Bool := n == 587 || n == 635
/-- The edge nodes of stack `k` in ascending order (R31). -/
def stackNodes (k : Nat) : List Nat :=
  if k < 8 then upto (648 + 3 * k) 3
  else if k < 16 then upto (600 + 3 * (k - 8)) 3
  else if k = 16 then upto 580 3
  else if k = 17 then upto 593 3
  else if k = 18 then upto 628 3
  else upto 641 3
/-- The edge node of Lamug port `k` (R31). -/
def lampNode (k : Nat) : Nat :=
  match k with
  | 0 => 576 | 1 => 577 | 2 => 578 | 3 => 585 | 4 => 586 | 5 => 588 | 6 => 597 | 7 => 598 | 8 => 599
  | 9 => 624 | 10 => 625 | 11 => 626 | 12 => 633 | 13 => 634 | 14 => 636 | 15 => 645 | 16 => 646 | _ => 647
/-- The edge node of host port `k` (R472). -/
def hostNode (k : Nat) : Nat :=
  match k with
  | 0 => 579 | 1 => 596 | 2 => 627 | _ => 644
/-- The host port at an edge node. -/
def hostOfNode (n : Nat) : Option Nat := (upto 0 4).find? fun k => hostNode k == n
/-- Regions of a brick (R21). -/
def brickRegions (b : Nat) : List Nat := (upto 0 144).filter (fun r => brickOfRegion r == b)
/-- The brick that carries the other half of a brick's load is chosen in the power chapter; quads of regions are the
bricks' blocks (R21, R338). -/
def quadOf (r : Nat) : Nat := brickOfRegion r
/-- Level of the meeting node of a set of regions (R338, R339). -/
def meetLevel (rs : List Nat) : Nat :=
  match rs with
  | [] => 1
  | r :: _ =>
    if rs.all (· == r) then 1
    else if rs.all (fun x => quadOf x == quadOf r) then 2
    else if rs.all (fun x => x / 16 == r / 16) then 3
    else 4
/-- The completion bound of R339 in transit ticks. -/
def hurdleBound : Nat → Nat
  | 1 => 12
  | 2 => 40
  | 3 => 80
  | _ => 160
/-- Host port of a function (R472). -/
def portOfFn (fn : Nat) : Nat := if fn < 4 then fn else (fn - 4) / 63

end Sys2Proof.Machine
end

