-- ==== Sys2Proof/Machine/StateTile.lean ====
section
/-! DEFINITION. The state of one tile: arrays, scratchpad, tidy cores, sequencer, transfer engine, network interface, scheduler. -/
namespace Sys2Proof.Machine

/-- One cell's slot: 24 weight bits, 8 index bits, and whether its parity bit disagrees with them (R51, R123). -/
structure Cell where
  w   : Nat := 0
  idx : Nat := 0
  bad : Bool := false
  deriving DecidableEq, Repr, Inhabited

/-- The identity of a loaded block: issuing core and ticket SEQ (R70, R269). -/
structure BlockId where
  core : Nat
  seq  : Nat
  deriving DecidableEq, Repr, Inhabited

/-- One row of a slot, in working-column order (R51, R83): its 64 cells (an empty list is cleared cells), and the scale
code of each output column of the row's block (none where no load filled the lane). -/
structure SRow where
  cells  : List Cell := []
  scales : List (Option Nat) := []
  deriving DecidableEq, Repr, Inhabited

/-- One stationary slot of one array: its rows and the block last loaded (R70). -/
structure Slot where
  rows   : Tab SRow := []
  block  : Option BlockId := none
  loadNo : Nat := 0
  deriving DecidableEq, Repr, Inhabited

/-- What an accumulator entry was last written with: a clear, normal mode, or an exact mode (R71, R103). -/
inductive AccVal where
  | zero
  | fp (bits : Nat)
  | exact (s : Sum)
  deriving DecidableEq, Repr, Inhabited

/-- An accumulator entry with the number of its half's mode changes when it was written: the storage of another mode
overlays it in a way the spec does not state (R71). -/
structure AccEntry where
  gen : Nat := 0
  v   : AccVal := .zero
  deriving DecidableEq, Repr, Inhabited

/-- What the entry's SECDED code will show at its next read (R74). -/
inductive EntryEcc where
  | ok | ce | ue | found
  deriving DecidableEq, Repr, Inhabited

/-- The mode of an accumulator half; BF16 exact mode is a mode of its own (R71, R272). -/
inductive HalfMode where
  | normal | exact | bf16Exact
  deriving DecidableEq, Repr, Inhabited

/-- The index table of one half (R134). -/
structure IndexTable where
  valid   : Bool := false
  entries : Tab Nat := []
  kept    : Nat := 0
  scanned : Nat := 0
  deriving DecidableEq, Repr, Inhabited

/-- One activation element at a row: its bits, its scale code, and whether it forms a product. -/
structure Elem where
  bits  : Nat := 0
  scale : Nat := 127
  live  : Bool := false
  deriving DecidableEq, Repr, Inhabited

/-- One element row inside the arrays with the sums that travel with it (R60, R61, R63): `age` is the tick since it
entered; partial sums at (array*64+column)*4+lane. -/
structure Wave where
  age    : Nat := 0
  valid  : Bool := false
  epoch  : Bool := false
  pass   : Nat := 0
  slot   : Nat := 0
  mask   : Nat := 0
  lanes  : Nat := 1
  spars  : Nat := 1
  afmt   : Nat := 0
  wfmt   : Nat := 0
  exact  : Bool := false
  diag   : Bool := false
  /-- anchor of each array and lane, at array*4+lane -/
  anchors : Tab Int := []
  elems  : List Elem := []
  /-- storage row of lane 0 -/
  row    : Nat := 0
  set    : Bool := false
  poison : Bool := false
  sums   : Tab Sum := []
  /-- columns (array*64+column) that met a slot parity error -/
  badCols : List Nat := []
  deriving DecidableEq, Repr, Inhabited

/-- A captured pass: its pass word, its SOURCE descriptor and the anchor captured at issue (R104, R270). -/
structure PassW where
  word   : Nat := 0
  desc   : Nat := 0
  anchor : Int := 0
  /-- number of the linked transfer on its channel; 0 where none was issued (R276) -/
  link   : Nat := 0
  deriving DecidableEq, Repr, Inhabited

/-- What a sequencer queue entry asks for (R251). A skipped pass keeps its place in the order (R129). -/
inductive MOp where
  | load (word desc : Nat)
  | pass (p : PassW)
  | drain (word desc : Nat)
  | skippedPass
  deriving DecidableEq, Repr, Inhabited

/-- One sequencer instruction, from issue to completion. -/
structure MEntry where
  core    : Nat := 0
  seq     : Nat := 0
  op      : MOp := .skippedPass
  /-- place in the sequence of both cores -/
  no      : Nat := 0
  /-- the core's count of retired instructions at issue: issue order for R260 -/
  stamp   : Nat := 0
  /-- array tick at issue -/
  at_     : Nat := 0
  deriving DecidableEq, Repr, Inhabited

/-- The pass whose vectors are entering, or whose last vectors are still inside (R59, R131-R133, R276). -/
structure PassRun where
  entry    : MEntry := {}
  next     : Nat := 0
  entered  : Nat := 0
  dropped  : Nat := 0
  bubbles  : Nat := 0
  kept     : Nat := 0
  done     : Bool := false
  full     : Bool := false
  linkFail : Bool := false
  linkWait : Nat := 0
  /-- split for a pre-emption: its next vectors wait for the release (R426) -/
  split    : Bool := false
  lastE    : Option Nat := none
  /-- vectors read ahead and kept, oldest first (R131) -/
  skid     : List Wave := []
  poisoned : List Nat := []
  x        : XFlags := {}
  rerun    : Bool := false
  reruns   : Nat := 0
  /-- arrays whose event 0x1001 this pass has raised (R75) -/
  raised1001 : List Nat := []
  deriving DecidableEq, Repr, Inhabited

/-- The load under way (R65): W, rows committed, ticks behind R65, E_last of R80, and re-reads of the present row. -/
structure LoadRun where
  entry  : MEntry := {}
  start  : Nat := 0
  rows   : Nat := 0
  delay  : Nat := 0
  eLast  : Option Nat := none
  rerun  : Bool := false
  reruns : Nat := 0
  poisoned : Bool := false
  deriving DecidableEq, Repr, Inhabited

/-- One scratchpad word a unit is about to write: offset, byte mask, data, mark. -/
structure SpdWrite where
  off    : Nat := 0
  bytes  : List Byte := []
  poison : Bool := false
  deriving DecidableEq, Repr, Inhabited

/-- The drain under way (R76-R78): storage rows read, and the rows converted and not yet written. -/
structure DrainRun where
  entry    : MEntry := {}
  /-- output row under way (counted from the drain's first), and storage rows of it read -/
  row      : Nat := 0
  part     : Nat := 0
  /-- next destination row of a SCATTER drain -/
  dest     : Nat := 0
  read     : Nat := 0
  pipe1    : List SpdWrite := []
  pipe2    : List SpdWrite := []
  rowsOut  : Nat := 0
  /-- is the row being assembled poisoned (R111)? -/
  rowBad   : Bool := false
  poisoned : List Nat := []
  x        : XFlags := {}
  deriving DecidableEq, Repr, Inhabited

/-- A held status (R255, R261) of one unit: 0 sequencer, 1+c channel c, 17+s layer slot s. -/
structure Held where
  core   : Nat := 0
  unit   : Nat := 0
  seq    : Nat := 0
  status : Nat := 0
  words  : List Nat := []
  deriving DecidableEq, Repr, Inhabited

/-- The summary of R260. -/
structure Summary where
  code  : Nat := 0
  /-- issue stamp of the instruction that gave CODE -/
  codeAt : Nat := 0
  flags : Nat := 0
  count : Nat := 0
  deriving DecidableEq, Repr, Inhabited

/-- Where a sequencer stands. -/
structure Seqr where
  queue   : List MEntry := []
  passes  : List PassRun := []
  load    : Option LoadRun := none
  drain   : Option DrainRun := none
  nextNo  : Nat := 1
  anchorA : Int := 0
  anchorB : Int := 0
  issueA  : HalfMode := .normal
  issueB  : HalfMode := .normal
  /-- tick after which the loader's next load may read its first band (R166) -/
  loadEnd : Nat := 0
  deriving DecidableEq, Repr, Inhabited

/-- The four arrays of a tile with their accumulator banks. Entries at (array*512+storage row)*64+column, rows at
array*512+storage row, slots at 2*array+slot. -/
structure Arrays where
  slots   : Tab Slot := []
  acc     : Tab AccEntry := []
  ecc     : Tab EntryEcc := []
  rowPoison : List Nat := []
  anchorTag : Tab Int := []
  modeA   : HalfMode := .normal
  modeB   : HalfMode := .normal
  genA    : Nat := 0
  genB    : Nat := 0
  idxA    : IndexTable := {}
  idxB    : IndexTable := {}
  waves   : List Wave := []
  tick    : Nat := 0
  epoch   : Bool := false
  passes  : Nat := 0
  bubbles : Nat := 0
  dropVec : Nat := 0
  dropGrp : Nat := 0
  /-- loaded blocks in which a physical column (array*65+column) showed a slot parity error (R82) -/
  parityBlocks : List (Nat × Nat) := []
  /-- storage rows at which a physical column showed an uncorrectable accumulator error (R82) -/
  ueRows  : List (Nat × Nat) := []
  /-- physical column bypassed in each array, plus one; 0 for none (R81) -/
  bypass  : Tab Nat := []
  exhausted : List Nat := []
  /-- columns declared bad whose bypass waits for the job's suspension (R82): array*65+column -/
  pendingBypass : List Nat := []
  deriving DecidableEq, Repr, Inhabited

/-- One combining-buffer entry (R171). -/
structure CbEntry where
  word   : Nat := 0
  bytes  : Nat := 0
  mask   : Nat := 0
  poison : Bool := false
  requester : Nat := 0
  age    : Nat := 0
  deriving DecidableEq, Repr, Inhabited

/-- The scratchpad's side state; its bytes and marks are in the machine's memory. -/
structure Spd where
  cb       : List CbEntry := []
  requests : List PortReq := []
  /-- what the arbiters granted for the next tick -/
  granted  : List PortReq := []
  /-- ticks each requester had a request raised and not granted (R195) -/
  wait     : Tab Nat := []
  /-- wrong bits in a word, at word index (R178) -/
  upset    : Tab Nat := []
  /-- words corrected and waiting for the check-back (R178) -/
  checkBack : List Nat := []
  /-- words moved to spares (R182) -/
  spares   : List Nat := []
  spareOut : Option Nat := none
  /-- sheets still to sweep, row reached, requester (R180) -/
  sweep    : List Nat := []
  sweepRow : Nat := 0
  sweepBy  : Nat := 0
  /-- next bank address the patrol scrubber reads, by bank (R183) -/
  patrol   : Tab Nat := []
  /-- next global row of a running zero-fill (R187) -/
  fillRow  : Option Nat := none
  deriving DecidableEq, Repr, Inhabited

/-- A source that waits at issue on a translation: for its walk, or on a fault until that is resolved (R204, R414). -/
structure CoreHold where
  va    : Nat := 0
  write : Bool := false
  fault : Option Nat := none
  resolved : Option Bool := none
  deriving DecidableEq, Repr, Inhabited

/-- A translated load whose data has not arrived: destination register and the bytes still to come (R204). -/
structure LoadWait where
  txn    : Nat := 0
  vec    : Bool := false
  rd     : Nat := 0
  /-- where the arriving bytes go: byte position in the assembled value -/
  pos    : Nat := 0
  len    : Nat := 0
  /-- byte position within the word asked for -/
  inWord : Nat := 0
  signed : Bool := false
  /-- width of the whole scalar value in bytes -/
  width  : Nat := 0
  deriving DecidableEq, Repr, Inhabited

/-- A hurdle channel as one core armed it (R289-R291). -/
structure HurdleCh where
  op     : Nat := 0
  first  : Nat := 0
  last   : Nat := 0
  passed : Nat := 0
  completed : Nat := 0
  value  : Nat := 0
  poison : Bool := false
  code   : Nat := 0
  deriving DecidableEq, Repr, Inhabited

/-- The state of one tidy core (R199, R243-R247). -/
structure Core where
  running : Bool := false
  exited : Option Nat := none
  g      : Tab DWord := []
  gp     : List Nat := []
  v      : Tab (BitVec 512) := []
  vp     : List Nat := []
  p      : Tab DWord := []
  t      : Tab (BitVec 256) := []
  q      : Tab DWord := []
  pc     : DWord := 0
  supervisor : Bool := false
  fcsr   : Nat := 0
  evec   : DWord := 0
  epc    : DWord := 0
  ecause : Nat := 0
  eval   : DWord := 0
  ticks  : Nat := 0
  retired : Nat := 0
  /-- instructions that a waiting XFENCE found on its channel (R285) -/
  fence  : Option Nat := none
  hold   : Option CoreHold := none
  loads  : List LoadWait := []
  stores : List (Nat × Nat) := []
  hurdles : Tab (Option HurdleCh) := []
  /-- SEQ of the last ticket issued to each unit: 0 sequencer, 1+c channel, 17+s layer slot (R253, R261) -/
  seqs   : Tab (Option Nat) := []
  mSum   : Summary := {}
  xSum   : Summary := {}
  /-- HI shadows of 64-bit pairs read, by the LO register's number (R16) -/
  shadow : Tab (Option Nat) := []
  /-- LO values held for a later HI write (R16) -/
  heldLo : Tab (Option Nat) := []
  privUpset : Tab Nat := []
  privWritten : List Nat := []
  deriving DecidableEq, Repr, Inhabited

/-- The kinds of channel instruction (R251). -/
inductive XOp where
  | get | put | xput | packNm | unpackNm | packBcr | unpackGather | unpackExpand | xsend | dreturn
  deriving DecidableEq, Repr, Inhabited

/-- A channel instruction with its captured operands: the 128-byte descriptor of R411. -/
structure XEntry where
  op    : XOp := .get
  instr : Nat := 0
  core  : Nat := 0
  seq   : Nat := 0
  ra    : Nat := 0
  rb    : Nat := 0
  rb1   : Nat := 0
  rbPoison : Bool := false
  desc  : Nat := 0
  par   : Nat := 0
  /-- the core's count of retired instructions at issue -/
  stamp : Nat := 0
  /-- number by which passes link to it, 0 for an instruction they cannot name -/
  link  : Nat := 0
  deriving DecidableEq, Repr, Inhabited

/-- An XCOPY or XSPARSE as passes linked to it see it: its number on the channel, its row mark and its final code (R276). -/
structure XLink where
  no   : Nat := 0
  op   : XOp := .get
  mark : Nat := 0
  code : Option Nat := none
  deriving DecidableEq, Repr, Inhabited

/-- A transfer channel: its queue and the state record of its head transfer (R412). -/
structure Channel where
  open_   : Bool := false
  owner   : Nat := 0
  queue   : List XEntry := []
  /-- the head transfer has begun -/
  active  : Bool := false
  /-- the translation the head transfer's next element waits for, with its fault if one was recorded -/
  wait    : Option CoreHold := none
  /-- the restart point: elements performed -/
  pos     : Nat := 0
  /-- an element's request awaits its answer -/
  busy    : Bool := false
  bytes   : Nat := 0
  netBytes : Nat := 0
  rerun   : Bool := false
  poisoned : Bool := false
  /-- sparse transfers: far words read for the present element, far writes it still makes, block row, stored blocks, the
  ROWPTR and COLIDX entries last met, and groups pruned -/
  buf     : List (Nat × Nat × Bool) := []
  outs    : List (Nat × List Byte × Bool) := []
  blockRow : Nat := 0
  stored  : Nat := 0
  ptr     : Nat := 0
  ptrEnd  : Nat := 0
  ptrBase : Nat := 0
  prevCol : Option Nat := none
  pruned  : Nat := 0
  /-- transfers that passes may link to: how many were issued, how many before the channel was opened, and the latest -/
  linkNo   : Nat := 0
  linkBase : Nat := 0
  links    : List XLink := []
  deriving DecidableEq, Repr, Inhabited

/-- Who waits for the answer to a request of a tile. -/
inductive ReqFor where
  | channel (ch : Nat) (pos n : Nat)
  | coreLoad (core : Nat)
  | coreStore (core : Nat)
  | dispatch (region slot bundle : Nat)
  | save
  | glean (n side : Nat)
  deriving DecidableEq, Repr, Inhabited

/-- A request awaiting its response (R305, R309): the packet as sent and what has been retried. -/
structure Request where
  pkt   : Packet := {}
  for_  : ReqFor := .save
  moved : Bool := false
  cut   : Bool := false
  timedOut : Bool := false
  /-- answered BUSY and waiting to be sent again -/
  busy  : Bool := false
  /-- the later packets of a drove send -/
  more  : List Packet := []
  deriving DecidableEq, Repr, Inhabited

/-- The network interface of a tile (R301, R311, R315, R323, R345-R350). -/
structure NetIf where
  requests : List Request := []
  nextTxn  : Nat := 0
  fenced   : Bool := false
  escape   : List Packet := []
  /-- packets waiting for the region's wake (R345) -/
  waiting  : List Packet := []
  tx       : Nat := 0
  rx       : Nat := 0
  drvBusy  : Bool := false
  /-- drove sends of which a word performed here carried a mark: (tag, drove, transaction) (R331) -/
  drovePoison : List (Nat × Nat × Nat) := []
  /-- binding-map entries that differ from the binding (R315) -/
  bmap     : Tab (Option (Option Nat)) := []
  deriving DecidableEq, Repr, Inhabited

/-- A scheduled word (R367). -/
structure SWord where
  index  : Nat := 0
  count  : Nat := 0
  poison : Nat := 0
  data   : List Word256 := []
  present : Bool := false
  deriving DecidableEq, Repr, Inhabited

/-- The states of SCH_STAT.STATE (R382). -/
inductive SchState where
  | idle | running | boundary | fault | aborting
  deriving DecidableEq, Repr, Inhabited

/-- What calibration has left at one side of a tile (R362, R363, R387). -/
structure LinkCal where
  pad : Nat := 0
  calibrated : Bool := false
  failed  : Bool := false
  pending : Bool := false
  deriving DecidableEq, Repr, Inhabited

/-- The verge scheduler (R368-R379). -/
structure Sched where
  mem     : Tab (BitVec 128) := []
  state   : SchState := .idle
  sigma   : Nat := 0
  first   : Nat := 0
  length  : Nat := 0
  segs    : Nat := 0
  stalled : Bool := false
  slips   : Nat := 0
  holds   : Nat := 0
  credits : Tab Nat := []
  fifo    : Tab (List SWord) := []
  /-- words waiting for the write port, with their schedule ticks (R372) -/
  delivery : List (Nat × SpdWrite) := []
  loadBusy : Bool := false
  cal     : Tab LinkCal := []
  /-- event 0x3102 has been raised for this segment -/
  countErr : Bool := false
  deriving DecidableEq, Repr, Inhabited

/-- A drove as its bellwether holds it (R325-R332). -/
structure Drove where
  id      : Nat := 0
  tag     : Nat := 0
  members : List Nat := []
  timeout : Nat := 1000
  removing : Bool := false
  deriving DecidableEq, Repr, Inhabited

/-- A drove send in progress at its bellwether (R328, R332). -/
structure DroveSend where
  tag    : Nat := 0
  drove  : Nat := 0
  txn    : Nat := 0
  sender : Nat := 0
  senderTxn : Nat := 0
  delivered : List Nat := []
  refused : List Nat := []
  prunedCount : Nat := 0
  poisoned : Bool := false
  lastIn : Bool := false
  deriving DecidableEq, Repr, Inhabited

/-- The spore agent of a tile (R602-R606). -/
structure Spore where
  /-- STATE: 0 IDLE, 1 RECEIVE, 2 GLEAN, 3 VERIFY, 4 SELFTEST, 5 FAILED -/
  state    : Nat := 0
  received : List Nat := []
  count    : Nat := 0
  /-- spores gleaned from neighbours and sent by unicast -/
  gleaned  : Nat := 0
  fromFold : Nat := 0
  verified : Bool := false
  mismatch : Nat := 0
  /-- the control stores are loaded (R606, R607) -/
  loaded   : Bool := false
  /-- a gleaning round is under way -/
  round    : Bool := false
  /-- rounds begun (R604) -/
  rounds   : Nat := 0
  deriving DecidableEq, Repr, Inhabited

/-- One entry of a translation cache (R404): context, first address and size of the page, W, TARGET, output address,
whether it came by ATS, and whether its parity is in error (R406). -/
structure TlbEntry where
  ctx    : Nat := 0
  va     : Nat := 0
  size   : Nat := 4096
  w      : Bool := false
  target : Nat := 0
  out    : Nat := 0
  ats    : Bool := false
  bad    : Bool := false
  deriving DecidableEq, Repr, Inhabited

/-- One physical tile. -/
structure Tile where
  arr   : Arrays := {}
  spd   : Spd := {}
  core0 : Core := {}
  core1 : Core := {}
  seqr  : Seqr := {}
  chans : Tab Channel := []
  held  : List Held := []
  net   : NetIf := {}
  sched : Sched := {}
  droves : List Drove := []
  sends : List DroveSend := []
  spore : Spore := {}
  /-- tile translation cache, most recently used first (R404) -/
  tlb   : List TlbEntry := []
  xtcHit : Nat := 0
  xtcMiss : Nat := 0
  notes : List (Nat × Nat) := []
  /-- plain tile system registers by number; unlisted ones hold their reset value (R243) -/
  sr    : Tab (Option Nat) := []
  /-- pre-emption asked for, reached, and held frozen (R424) -/
  preempting : Bool := false
  atPoint : Bool := false
  clearing : Bool := false
  job   : Nat := 0
  deriving DecidableEq, Repr, Inhabited

end Sys2Proof.Machine
end

