-- ==== Sys2Proof/Machine/StateChip.lean ====
section
/-! DEFINITION. The state of the die's shared units: regions, dispatch units, networks, translation, HBM stacks. -/
namespace Sys2Proof.Machine

/-- Where a logical ID is bound (R27, R28): its designated tile, another tile, or nowhere. -/
inductive Bind where
  | designated
  | tile (t : Nat)
  | hole
  deriving DecidableEq, Repr, Inhabited

/-- The variants (R1). -/
inductive Variant where
  | e | p | f
  deriving DecidableEq, Repr, Inhabited

/-- A record of the persistent defect map (R611): KIND, cause, WHERE by kind, time, SEQ and DETAIL. -/
structure Defect where
  kind   : Nat := 0
  cause  : Nat := 0
  where_ : List Nat := []
  time   : Nat := 0
  seq    : Nat := 0
  detail : Nat := 0
  deriving DecidableEq, Repr, Inhabited

/-- Variant, binding, ownership marks and the geometry table's own registers (R1, R25-R29, R36-R50, R725). -/
structure Org where
  variant  : Variant := .e
  binds    : Tab Bind := []
  /-- paddock a lent ID belongs to (R37) -/
  lent     : Tab (Option Nat) := []
  stranded : List Nat := []
  unfit    : List Nat := []
  dead     : List Nat := []
  /-- lost tiles that Fufin has still to handle, each with whether its state can be read (R614, R615) -/
  lost     : List (Nat × Bool) := []
  /-- the state move under way: logical ID, old tile, new tile, paddock (R616) -/
  moving   : Option (Nat × Nat × Nat × Nat) := none
  /-- regions and tiles in CLEARING, and the tiles not yet zero-filled (R39, R676) -/
  clearing : List Nat := []
  clearingTiles : List Nat := []
  toFill   : List Nat := []
  /-- regions under REGION_RETEST, owned meanwhile by no host's paddock (R648) -/
  retest   : List Nat := []
  geoGen   : Nat := 0
  geoChanged : Tab Nat := []
  /-- the defect map, oldest first, and its last SEQ (R611) -/
  defects  : List Defect := []
  defectSeq : Nat := 0
  /-- IDs a licence raise still has to bind (R622) -/
  toBind   : List Nat := []
  deriving DecidableEq, Repr, Inhabited

/-- One expert of a layer (R144). -/
structure Expert where
  replicas : List Nat := []
  cap      : Nat := 0
  nrep     : Nat := 0
  policy   : Nat := 0
  nshard   : Nat := 0
  ringOff  : Nat := 0
  spillVa  : Nat := 0
  spillSlots : Nat := 0
  count    : Nat := 0
  deriving DecidableEq, Repr, Inhabited

/-- A route: a token, a chosen expert and its rank (R148, R152). -/
structure Route where
  token  : Nat := 0
  rank   : Nat := 0
  expert : Nat := 0
  weight : Nat := 0
  slotNo : Nat := 0
  /-- shards whose notices have arrived -/
  shards : List Nat := []
  resolved : Bool := false
  lost   : Bool := false
  dropped : Bool := false
  spilled : Bool := false
  spillDone : Bool := false
  replica : Nat := 0
  sent   : Bool := false
  deriving DecidableEq, Repr, Inhabited

/-- A token in flight (R145, R155). -/
structure Token where
  token   : Nat := 0
  srcLid  : Nat := 0
  rowOff  : Nat := 0
  outOff  : Nat := 0
  retSlot : Nat := 0
  /-- the step it was admitted in -/
  step    : Nat := 0
  /-- its score row carried a mark -/
  bad     : Bool := false
  routes  : List Route := []
  deriving DecidableEq, Repr, Inhabited

/-- A bundle in flight or being gathered (R149, R155). -/
structure Bundle where
  no      : Nat := 0
  expert  : Nat := 0
  replica : Nat := 0
  routes  : List (Nat × Nat) := []
  sent    : Bool := false
  lostRaised : Bool := false
  deriving DecidableEq, Repr, Inhabited

/-- The dispatch instructions (R286). -/
inductive DOp where
  | dlayer | drelease | dstep | dgate | dflush | dspill
  deriving DecidableEq, Repr, Inhabited

/-- A dispatch instruction in a layer slot's queue (R251). -/
structure DEntry where
  op   : DOp := .dstep
  tile : Nat := 0
  core : Nat := 0
  seq  : Nat := 0
  ra   : Nat := 0
  rb   : Nat := 0
  pos  : Nat := 0
  refused : Nat := 0
  stamp   : Nat := 0
  deriving DecidableEq, Repr, Inhabited

/-- One layer slot (R143-R157). -/
structure LayerSlot where
  heldBy  : Option Nat := none
  desc    : Nat := 0
  experts : Tab Expert := []
  queue   : List DEntry := []
  stepOpen : Bool := false
  flushed : Bool := true
  stepDone : Bool := true
  step    : Nat := 0
  tokens  : List Token := []
  bundles : List Bundle := []
  seen    : List Nat := []
  /-- ordered routes held until DFLUSH -/
  held    : List (Nat × Nat) := []
  sent    : Nat := 0
  spilled : Nat := 0
  dropped : Nat := 0
  lost    : Nat := 0
  /-- the last flushed step, and its tokens combined after spill (R156) -/
  flushedStep : Nat := 0
  combinedSpill : Nat := 0
  /-- routes whose spill write has not finished: (token, rank) of the present step -/
  spillWrites : List (Nat × Nat) := []
  /-- what the spill path of the slot waits for: a walk, or a fault (R413) -/
  spillHold : Option CoreHold := none
  bundleNo : Nat := 0
  /-- last return latencies and weight by (expert*4+replica) (R150) -/
  latencies : Tab (List Nat) := []
  lowest  : List Nat := []
  rrCredit : Tab Int := []
  deriving DecidableEq, Repr, Inhabited

/-- Power states of a region's compute rail (R24). -/
inductive PState where
  | on | idle | nap | off
  deriving DecidableEq, Repr, Inhabited

/-- One region: dispatch unit, shared cache, walker, clock, power and thermal state. -/
structure Region where
  slot0   : LayerSlot := {}
  slot1   : LayerSlot := {}
  dspErr  : Nat := 0
  stlb    : List TlbEntry := []
  /-- walk cache: context, level, index prefix, table address (R404) -/
  wcache  : List (Nat × Nat × Nat × Nat) := []
  rckStretchMax : Nat := 3
  fmultReq : Nat := 16
  fmult    : Nat := 16
  pendingFmult : Option Nat := none
  /-- the FMULT that a change under way moves to (R359) -/
  changing : Option Nat := none
  transitLock : Bool := true
  regionLock : Bool := false
  stopped  : Bool := true
  stretch  : Tab Nat := []
  pllFailed : Bool := false
  power    : PState := .off
  tripped  : Bool := false
  forced   : Bool := false
  untrusted : Bool := false
  trustCount : Nat := 0
  badCount : Nat := 0
  pacing   : Bool := false
  pacingMs : Nat := 0
  limit    : Nat := 74
  voltMv   : Nat := 0
  railOffLatched : Bool := false
  temps    : List Nat := [0, 0, 0, 0]
  excluded : List Nat := []
  grant    : Nat := 0
  burst    : Nat := 0
  /-- estimator correction k, in units of 1/10^6 (R572) -/
  corr     : Nat := 1000000
  /-- stretch by which the controller paces, in eighths (R570) -/
  pace     : Nat := 0
  /-- a refit has been made since the estimator was declared untrusted (R575) -/
  refit    : Bool := false
  /-- last millisecond: corrected estimate and measurement in mW, with the point they were taken at (R569, R572, R591) -/
  estMw    : Nat := 0
  measMw   : Nat := 0
  atFmult  : Nat := 16
  atMv     : Nat := 550
  /-- a wake under way, and the current it holds at its brick in 0.1 A with the measured milliseconds to go (R560) -/
  waking   : Bool := false
  reserve  : Nat := 0
  reserveMs : Nat := 0
  /-- the wake is a trip's release or one in the lowest state: it returns at FMULT 16 -/
  wakeLow  : Bool := false
  /-- times of trips within the last second (R578) -/
  trips    : List Nat := []
  /-- milliseconds each sensor has read away from the median (R576) -/
  away     : Tab Nat := []
  /-- milliseconds the prediction has been below 90 degrees (R577) -/
  coolMs   : Nat := 0
  /-- at 105 degrees and not yet below 100 (R577) -/
  hot      : Bool := false
  /-- both copies failed the digest at a wake: the tiles are tested before the region wakes again (R607) -/
  testFirst : Bool := false
  shutHot  : Bool := false
  slewTo   : Option Nat := none
  runBank  : Nat := 0
  pendingBank : Option Nat := none
  deriving DecidableEq, Repr, Inhabited

/-- A fork entry (R326): context tag, drove, branch mask over north, east, south, west and local, the members beneath each
branch, the members sent unicast copies, and the drove timeout. -/
structure Fork where
  tag     : Nat := 0
  drove   : Nat := 0
  mask    : Nat := 0
  beneath : List Nat := []
  uni     : List Nat := []
  /-- logical ID of the member that the local branch serves -/
  here    : Nat := 0xFFFF
  timeout : Nat := 1000
  deriving DecidableEq, Repr, Inhabited

/-- One bulk router with its fork entries (R308, R312, R321-R326, R351). Tables at bank*672+node. -/
structure Router where
  table   : Tab (Option Nat) := []
  ctable  : Tab (Option Nat) := []
  bank    : Nat := 0
  overhold : Nat := 64
  /-- requests raised at each output port: (output, input, channel, age) -/
  raised  : List (Nat × Nat × Nat × Nat) := []
  /-- current holder of each output: input*4+channel and ticks held -/
  holder  : Tab (Option (Nat × Nat)) := []
  lastWin : Tab Nat := []
  forks   : List Fork := []
  /-- copies in the fork buffer, each with the branches that wait for it (R329) -/
  forkBuf : List (Nat × Packet) := []
  /-- branches pruned for a send: (tag, drove, txn, branch) -/
  pruned  : List (Nat × Nat × Nat × Nat) := []
  /-- replays in a row and in the present millisecond, by input side (R307) -/
  replays : Tab Nat := []
  replaysMs : Tab Nat := []
  deriving DecidableEq, Repr, Inhabited

/-- One paddock's channel at a hurdle node (R340): the arms met (tile, OP, first and last rank), whether two differ, the
children whose contributions have arrived, whether its part has gone up, the partial value, and the generations completed. -/
structure HNode where
  arms    : List (Nat × Nat × Nat × Nat) := []
  mismatch : Bool := false
  arrived : List Nat := []
  passedUp : Bool := false
  value   : Nat := 0
  poison  : Bool := false
  gen     : Nat := 0
  deriving DecidableEq, Repr, Inhabited

/-- A message on the control network that asks for an answer (R336). -/
structure CtlReg where
  node : Nat := 0
  addr : Nat := 0
  data : Nat := 0
  deriving DecidableEq, Repr, Inhabited

/-- The three networks (R299-R345). -/
structure Net where
  flight  : List Packet := []
  routers : Tab Router := []
  /-- Fufin has written the routing tables (R313) -/
  routed  : Bool := false
  /-- links failed: node*4+side (R307, R320) -/
  failedLinks : List Nat := []
  /-- hurdle state by (node*65536+paddock)*64+channel; messages on their way; nodes moved to their twins (R338-R341) -/
  hurdles : Tab HNode := []
  harms   : List HMsg := []
  hpasses : List HMsg := []
  hdones  : List HMsg := []
  twinned : List Nat := []
  regData : List CtlReg := []
  /-- fault notices on their way: tile, fault ID, KIND (R418) -/
  faultNotes : List (Nat × Nat × Nat) := []
  telemetry : List (Nat × List Nat) := []
  deriving DecidableEq, Repr, Inhabited

/-- A page walk in flight (R405): region, context, page address, write asked, host route, waiting sources. -/
structure Walk where
  region : Nat := 0
  ctx    : Nat := 0
  va     : Nat := 0
  write  : Bool := false
  ats    : Bool := false
  pageReq : Bool := false
  deriving DecidableEq, Repr, Inhabited

/-- A fault outstanding (R413-R420): its record's fields and whether it is recorded. -/
structure Fault' where
  id     : Nat := 0
  src    : Nat := 0
  unit   : Nat := 0
  va     : Nat := 0
  kind   : Nat := 0
  write  : Bool := false
  sva    : Bool := false
  ctx    : Nat := 0
  pad    : Nat := 0
  lid    : Nat := 0
  recorded : Bool := false
  toCore : Bool := false
  deriving DecidableEq, Repr, Inhabited

/-- One resident context's MMU register set and fault queue (R391, R436). -/
structure MmuCtx where
  live   : Bool := false
  fn     : Nat := 0
  sva    : Bool := false
  pasid  : Nat := 0
  fqFull : Bool := false
  badRes : Bool := false
  root   : Nat := 0
  svaBase : Nat := 0
  svaLimit : Nat := 0
  fqBase : Nat := 0
  intEn  : Bool := false
  vector : Nat := 0
  log2   : Nat := 6
  head   : Nat := 0
  tail   : Nat := 0
  res    : Nat := 0
  deriving DecidableEq, Repr, Inhabited

/-- Who asked for an invalidation (R398): a function's MMU_INV, a tile's XTC_INV, a host's ATS request (by function and
tag), or a command of a queue, whose completion it owes. -/
inductive InvBy where
  | mmu (fn : Nat)
  | tile (t : Nat)
  | ats (fn tag : Nat)
  | cmd (fn queue no : Nat) (free : List Nat)
  deriving DecidableEq, Repr, Inhabited

/-- An invalidation under way: who asked, and the places (TARGET, address, bytes) that accesses under the dropped entries
may still be using. -/
structure Inval where
  by_    : InvBy := .mmu 0
  ctxs   : List Nat := []
  places : List (Nat × Nat × Nat) := []
  deriving DecidableEq, Repr, Inhabited

/-- Translation (R391-R440). -/
structure Mmu where
  ctxs   : Tab MmuCtx := []
  walks  : List Walk := []
  faults : List Fault' := []
  /-- IDs of faults resolved (R419) -/
  resolvedIds : List Nat := []
  /-- faults each job has had (R415) -/
  faultSeq : Tab Nat := []
  invs   : List Inval := []
  /-- by function: MMU_INV address, command, invalidations done (R437) -/
  invAddr : Tab Nat := []
  invCmd  : Tab Nat := []
  invDone : Tab Nat := []
  priBlocked : List Nat := []
  deriving DecidableEq, Repr, Inhabited

/-- Service states of a stack; that it is degraded follows from its edge ports (R32, R467). -/
inductive StackState where
  | inService | out | inReset
  deriving DecidableEq, Repr, Inhabited

/-- One HBM stack's controller (R442-R470). -/
structure Stack where
  state   : StackState := .inService
  rate    : Nat := 0
  selfRefresh : Bool := false
  migrating : Option Nat := none
  migPtr  : Nat := 0
  testing : Option Nat := none
  testPart : Nat := 0
  testBg  : Nat := 0
  testData : Bool := false
  /-- steps still to make: pseudo-channel and background; the present one is a repeat (R464) -/
  testPlan : List (Nat × Nat) := []
  testAgain : Bool := false
  testErr : Bool := false
  retired : List Nat := []
  pendingRetire : List Nat := []
  noReserveRaised : Bool := false
  scrubHours : Nat := 8
  srIdle  : Nat := 100
  ce      : Nat := 0
  ue      : Nat := 0
  errAddr : Nat := 0
  errKind : Nat := 0
  temp    : Nat := 0
  upset   : Tab Nat := []
  scrubLine : Nat := 0
  /-- corrected words by row, and rows with an uncorrectable error, each with its time (R454, R455) -/
  rowCe   : Tab (List (Nat × Nat)) := []
  ueRows  : List (Nat × Nat) := []
  softRepairs : List Nat := []
  hardRepairs : List Nat := []
  trainingSaved : Bool := false
  edgeFailed : Bool := false
  lostPower : Bool := false
  internalUe : Bool := false
  /-- frames whose owner's data is lost with the stack -/
  lost    : Bool := false
  /-- sixteenths of the issue rate allowed (R580) -/
  throttle : Nat := 16
  srForced : Bool := false
  runBank  : Nat := 0
  pendingBank : Option Nat := none
  deriving DecidableEq, Repr, Inhabited

/-- Who owns an HBM frame (R445, R485). -/
inductive FrameOwner where
  | free
  | ctx (c : Nat)
  | table (c : Nat)
  | faultQueue (c : Nat)
  | save (job : Nat)
  | device
  | zeroing
  deriving DecidableEq, Repr, Inhabited

end Sys2Proof.Machine
end

