-- ==== Sys2Proof/Machine/StateHost.lean ====
section
/-! DEFINITION. The state of contexts, paddocks, jobs, the host interface and the event records. -/
namespace Sys2Proof.Machine

/-- A final completion still owed: the queue and its fetch number, the command identifier, and for a job request its kind
(0 the job's own command, 1 SUSPEND, 2 RESUME, 3 CANCEL). -/
structure Owed where
  fn    : Nat := 0
  queue : Nat := 0
  no    : Nat := 0
  id    : Nat := 0
  kind  : Nat := 0
  /-- a SUSPEND that asked for a save -/
  save  : Bool := false
  deriving DecidableEq, Repr, Inhabited

/-- What a paddock does once its resident job is frozen and, where needed, saved (R428, R487, R488). -/
inductive After where
  | shrink (o : Owed) (regions : List Nat)
  | replace (o : Owed) (pairs : List (Nat × Nat))
  | slice
  | switchOff
  deriving DecidableEq, Repr, Inhabited

/-- A tile as a save area holds it (R434), by rank: its state and its bytes and marks by offset. -/
structure SavedTile where
  lid   : Nat := 0
  tile  : Tile := {}
  spd   : List (Nat × Byte) := []
  spdMarks : List Nat := []
  priv  : List (Nat × Byte) := []
  privMarks : List Nat := []
  deriving DecidableEq, Repr, Inhabited

/-- A save area (R432-R434): its frames, and what it holds. -/
structure SaveArea where
  frames : List Nat := []
  bytes  : Nat := 0
  made   : Bool := false
  mixed  : Bool := false
  tiles  : List SavedTile := []
  /-- layer slots of the paddock, at region*2+slot -/
  slots  : List (Nat × LayerSlot) := []
  /-- hurdle state and messages of the paddock (R342) -/
  hurdles : List (Nat × HNode) := []
  harms   : List HMsg := []
  hpasses : List HMsg := []
  hdones  : List HMsg := []
  deriving DecidableEq, Repr, Inhabited

/-- A live paddock (R35, R429, R486). -/
structure Paddock where
  live    : Bool := false
  ctx     : Nat := 0
  regions : List Nat := []
  prio    : Nat := 0
  mixed   : Bool := false
  slice   : Nat := 0
  /-- jobs in order of submission -/
  jobs    : List Nat := []
  /-- job whose state is resident on the tiles -/
  resident : Option Nat := none
  preempt : Bool := false
  reported : List Nat := []
  frozen  : Bool := false
  after   : Option After := none
  /-- a save or a restore of the resident job is under way -/
  saving  : Bool := false
  restoring : Bool := false
  /-- the release under way, with the command that asked for it if one did (R489) -/
  releasing : Bool := false
  releaseBy : Option Owed := none
  deriving DecidableEq, Repr, Inhabited

/-- Job states (R495). -/
inductive JobState where
  | none | queued | deferred | running | suspending | suspended | resuming | cancelling | done | failed | cancelled
  deriving DecidableEq, Repr, Inhabited

/-- A program image's header and segments, as captured at LOAD_IMAGE (R238-R240). -/
structure Image where
  live     : Bool := false
  lvlMajor : Nat := 2
  lvlMinor : Nat := 0
  supervisor : Bool := false
  faultCore : Bool := false
  evec     : Nat := 0
  handlerRank : Nat := 0
  handlerCore : Nat := 0
  minMembers : Nat := 0
  /-- FILE_OFF, FILE_BYTES, MEM_BYTES, DEST_OFF, DEST, RANK_FIRST, RANK_LAST of each segment (R239) -/
  segments : List (List Nat) := []
  base     : Nat := 0
  bytes    : Nat := 0
  deriving DecidableEq, Repr, Inhabited

/-- An event record's RECORD field as a unit sends it (R687). NODE, REGION, LOGICAL and UNIT are none-valued by default. -/
structure EventRec where
  code    : Nat := 0
  counted : Nat := 0
  fn      : Nat := 0xFF
  ctx     : Option Nat := none
  paddock : Nat := 0
  node    : Nat := 1023
  region  : Nat := 0xFF
  lid     : Nat := 0xFFFF
  unit    : Nat := 0xFFFF
  job     : Nat := 0
  detail  : List Nat := []
  deriving DecidableEq, Repr, Inhabited

/-- Kinds of job (R491, R493, R502). -/
inductive JobKind where
  | compute | copy | maintenance
  deriving DecidableEq, Repr, Inhabited

/-- A job (R493-R500). -/
structure Job where
  live     : Bool := false
  kind     : JobKind := .compute
  fn       : Nat := 0
  ctx      : Nat := 0
  paddock  : Nat := 0
  image    : Nat := 0
  img      : Image := {}
  entry    : Nat := 0
  entryTable : Bool := false
  arg      : Nat := 0
  state    : JobState := .none
  holdHost : Bool := false
  holdGeo  : Bool := false
  holdDev  : Bool := false
  area     : SaveArea := {}
  /-- its state is in its save area, not on the tiles (R428) -/
  saved    : Bool := false
  started  : Bool := false
  descheduled : Bool := false
  /-- a save asked for by a SUSPEND, and a SUSPEND that waits for RUNNING (R498) -/
  saveAsked : Bool := false
  suspendNext : Bool := false
  resumeNext  : Bool := false
  cancelNext  : Bool := false
  status   : Nat := 0
  exitStatus : Nat := 0
  exitLid  : Nat := 0
  exitCore : Nat := 0
  runNs    : Nat := 0
  runFrom  : Option Nat := none
  order    : Nat := 0
  owed     : List Owed := []
  /-- COPY (R492): host address, device address, bytes, bytes done, direction (true device to host), HOST_SVA, and whether
  a poisoned word was met -/
  copyHost : Nat := 0
  copyDev  : Nat := 0
  copyLen  : Nat := 0
  copyDone : Nat := 0
  copyOut  : Bool := false
  copySva  : Bool := false
  copyBad  : Bool := false
  /-- a read of the present piece is outstanding -/
  copyRead : Bool := false
  /-- the host page translated last for HOST_SVA: its address and where it lies -/
  copyPage : Option (Nat × Nat) := none
  /-- maintenance (R493, R648): activity, target kind, target, W2, W3, present step and pending pause -/
  activity : Nat := 0
  tkind    : Nat := 0
  target   : Nat := 0
  w2       : Nat := 0
  w3       : Nat := 0
  step     : Nat := 0
  steps    : Nat := 0
  progress : Nat := 0
  /-- exit statuses as they arrive: logical ID, core, status (R242) -/
  exits    : List (Nat × Nat × Nat) := []
  deriving DecidableEq, Repr, Inhabited

/-- A command fetched from a queue and not yet finally completed. -/
structure Fetched where
  c       : SqEntry := {}
  no      : Nat := 0
  started : Bool := false
  /-- completion entries still reserved for it (R481) -/
  hold    : Nat := 1
  isJob   : Bool := false
  deriving DecidableEq, Repr, Inhabited

/-- A queue pair (R477-R481, R484, R508). -/
structure Queue where
  made    : Bool := false
  sqBase  : Nat := 0
  cqBase  : Nat := 0
  log2Sq  : Nat := 1
  log2Cq  : Nat := 1
  inDevice : Bool := false
  ctx     : Nat := 0
  tailVa  : Nat := 0
  vector  : Nat := 0
  intEn   : Bool := false
  coalCount : Nat := 0
  coalUs  : Nat := 0
  /-- completions whose signal is pending (R481) -/
  pendingInt : Nat := 0
  sqTail  : Nat := 0
  sqHead  : Nat := 0
  cqHead  : Nat := 0
  cqTail  : Nat := 0
  phase   : Bool := true
  /-- completion entries written and not yet freed -/
  cqUsed  : Nat := 0
  fetchNo : Nat := 0
  cause   : Nat := 0
  stopped : Bool := false
  /-- the DELETE_QUEUE that waits for the queue's commands -/
  deleting : Option Owed := none
  fetched : List Fetched := []
  deriving DecidableEq, Repr, Inhabited

/-- One function's FNC, JOB and MSI-X side (R473-R477, R507, R509). -/
structure Func where
  enabled : Bool := false
  vfOn    : Bool := false
  hver    : Nat := 0
  nver    : Nat := 0
  ready   : Bool := false
  verFail : Bool := false
  resetting : Bool := false
  /-- ENABLE written before service, held until the start completes (R598) -/
  enableHeld : Bool := false
  asq     : Nat := 0
  acq     : Nat := 0
  aqa     : Nat := 0
  /-- queue pairs, contexts and region quota allotted to a virtual function; how far a physical one's quota was lowered -/
  queues  : Nat := 0
  contexts : Nat := 0
  quota   : Nat := 0
  quotaCut : Nat := 0
  ats     : Bool := false
  pri     : Bool := false
  jobSel  : Nat := 0
  ctlStat : Nat := 0
  aer     : Nat := 0
  deriving DecidableEq, Repr, Inhabited

/-- One resident context as the command protocol holds it (R484, R485). -/
structure Context where
  live    : Bool := false
  fn      : Nat := 0
  hostTables : Bool := false
  images  : Tab Image := []
  /-- pages of device-managed tables: VA, bytes, TARGET, output address (R491) -/
  maps    : List (Nat × Nat × Nat × Nat) := []
  /-- frames that MAP with SOURCE 0 allocated -/
  newFrames : List Nat := []
  tables  : List Nat := []
  fqFrames : List Nat := []
  deriving DecidableEq, Repr, Inhabited

/-- A device read of host memory awaiting its completion: tag, the MEM_READ packet it serves or the COPY job, address and
bytes. -/
structure HostRead where
  tag  : Nat := 0
  pkt  : Option Packet := none
  job  : Nat := 0
  addr : Nat := 0
  n    : Nat := 0
  deriving DecidableEq, Repr, Inhabited

/-- A host port (R471, R472, R506, R716). -/
structure HostPort where
  up      : Bool := false
  width   : Nat := 0
  gt      : Nat := 0
  perst   : Bool := true
  out     : Bool := false
  /-- host reads awaiting a completion (R504) -/
  reads   : List HostRead := []
  nextTag : Nat := 0
  runBank : Nat := 0
  pendingBank : Option Nat := none
  deriving DecidableEq, Repr, Inhabited

/-- The host side of the machine. -/
structure Host' where
  funcs   : Tab Func := []
  queues  : Tab Queue := []
  ctxs    : Tab Context := []
  paddocks : Tab Paddock := []
  jobs    : Tab Job := []
  nextJob : Nat := 1
  orderNo : Nat := 0
  ports   : Tab HostPort := []
  frames  : Tab FrameOwner := []
  deriving DecidableEq, Repr, Inhabited

/-- An entry of the event log and of the ERR rings (R638): the chained digest is kept by the log alone. -/
structure LogEntry where
  seq    : Nat := 0
  time   : Nat := 0
  event  : EventRec := {}
  count  : Nat := 1
  /-- 0 device unit, 1 Fufin, 2 Fold hardware -/
  source : Nat := 0
  lostBefore : Bool := false
  /-- the first 12 bytes of the SHA-384 of the entry before it, as one number -/
  chain  : Nat := 0
  deriving DecidableEq, Repr, Inhabited

/-- An ERR block (R689, R690). -/
structure ErrBlock where
  ring   : Tab LogEntry := []
  head   : Nat := 0
  tail   : Nat := 0
  intEn  : Bool := false
  vector : Nat := 0
  minClass : Nat := 1
  overflow : Bool := false
  cnt    : Tab Nat := []
  lost   : Nat := 0
  lostBefore : Bool := false
  deriving DecidableEq, Repr, Inhabited

/-- What leaves the module, in order, each with the numbers the spec gives it. -/
inductive Out where
  /-- an MSI-X message: function, vector -/
  | msix (fn vector : Nat)
  /-- a posted write TLP: port, address, data, EP -/
  | hostWrite (port addr : Nat) (data : List Byte) (ep : Bool)
  /-- a read request TLP: port, tag, address, bytes -/
  | hostRead (port tag addr bytes : Nat)
  /-- an ATS, PRI or invalidation message: port, kind, context or function, address -/
  | ats (port kind who addr : Nat)
  /-- a value a register read returned: reader, register, value -/
  | regRead (reader reg value : Nat)
  /-- a Lamug control flit or codeword leaving a port: port, kind, fields -/
  | lamug (port kind : Nat) (body : List Nat)
  /-- a management answer: channel, message, status, fields -/
  | answer (channel msg status : Nat) (body : List Nat)
  /-- a pin or wire driven: name number, value -/
  | pin (which value : Nat)
  deriving DecidableEq, Repr

end Sys2Proof.Machine
end

