-- ==== Sys2Proof/Machine/StateModule.lean ====
section
/-! DEFINITION. The state of the module outside the die: power delivery, temperature, the start, the connectors. -/
namespace Sys2Proof.Machine

/-- Power delivery and capping (R551-R592). Regulators are numbered: the compute rail of region r as r, its transit rail as
144 + r, the edge domain of edge entry k of R49 as 288 + k, converters A and B as 330 and 331. -/
structure Power where
  /-- feeds live, converters running, FSENSE closed: A, then B (R552, R705) -/
  feeds   : Bool × Bool := (true, true)
  convs   : Bool × Bool := (true, true)
  fsense  : Bool × Bool := (true, true)
  /-- feed voltages in 0.1 V, converter outputs in W (R590) -/
  feedDv  : Nat × Nat := (4000, 4000)
  convW   : Nat × Nat := (0, 0)
  /-- the 54 V bus has fallen: the module is lost (R553) -/
  lost    : Bool := false
  brickFailed : List Nat := []
  brickLimit  : List Nat := []
  /-- transit and edge regulators on their partner input (R554) -/
  moved   : List Nat := []
  /-- regions that wait to wake, in order of request (R560) -/
  wakes   : List Nat := []
  hostCap : Nat := 12000
  foldCap : Nat := 12000
  /-- PWR_ORDER: FIRST, SECOND, THIRD (R567, R590) -/
  order   : List Nat := [0, 1, 2]
  napUs   : Nat := 1000
  offMs   : Nat := 0
  pdkSel  : Nat := 0
  targets : Tab Nat := []
  inputW  : Nat := 0
  /-- module inputs of the last milliseconds, newest first (R590) -/
  recent  : List Nat := []
  foldCw  : Nat := 0
  /-- measured: compute rails in mW and mA by region, transit rails in mA, brick outputs in 0.1 A, edge domains in 0.01 A (R589) -/
  computeMw : Tab Nat := []
  computeMa : Tab Nat := []
  transitMa : Tab Nat := []
  brickDa : Tab Nat := []
  brickTemp : Tab Nat := []
  edgeCa  : Tab Nat := []
  edgeTemp : Tab Nat := []
  /-- the allocation holds Lamug ports at 4 lanes, and gives memory this many sixteenths (R567) -/
  linksCut : Bool := false
  memRate : Nat := 16
  /-- the module lowest state (R583-R585) -/
  lowest  : Bool := false
  /-- regulators that assert ALERT_PWR_N, and those whose alert is masked -/
  alerts  : List Nat := []
  masked  : List Nat := []
  /-- after a release, raises are held to 8 steps a millisecond -/
  ramp    : Bool := false
  /-- recorded ceiling entries below the fused value, by 8 * tile + k, and entries lowered in service by tile (R565, R593) -/
  ceil    : Tab (Option Nat) := []
  lowerings : Tab Nat := []
  /-- edge entries at 105 degrees (R581) -/
  hotEdges : List Nat := []
  /-- the reference oscillator in use (R353) -/
  oscillator : Nat := 0
  /-- coolant: inlets and outlets in 0.1 degrees, flows in 0.1 L/min; none is unavailable (R582, R708) -/
  inlets  : Option Nat × Option Nat := (some 250, some 250)
  outlets : Option Nat × Option Nat := (some 250, some 250)
  flows   : Option Nat × Option Nat := (some 300, some 300)
  deriving DecidableEq, Repr, Inhabited

/-- The start (R595-R610). -/
structure Start where
  /-- phase 1-10 of a start under way, 0 once service has begun -/
  phase   : Nat := 1
  cold    : Bool := true
  /-- no start has been completed by this module yet (R27, R613) -/
  first   : Bool := true
  /-- waits at the end of phase 6 for the coolant (R709) -/
  coolantWait : Bool := false
  /-- waves begun (R600) -/
  waves   : Nat := 0
  /-- tiles whose self-test has ended -/
  tested  : List Nat := []
  gleanRaised : Bool := false
  began   : Nat := 0
  /-- fast starts made (R464) -/
  fastCount : Nat := 0
  /-- an orderly-stop record in flash; the next start asked to be cold (R595, R653) -/
  stopRecord : Bool := false
  nextCold : Bool := false
  /-- the module has been stopped in order (R653) -/
  stopped : Bool := false
  /-- regions whose re-characterisation is wanted (R565) -/
  recharWanted : List Nat := []
  /-- the copies of the tile image in use: stack and frames (R607) -/
  imageCopies : List (Nat × List Nat) := []
  deriving DecidableEq, Repr, Inhabited

/-- Pins and the test access port (R713-R720). -/
structure Pins where
  /-- CAB_PRES_N low, and CAB_PWR on, by Lamug port -/
  cabPres : List Nat := []
  cabPwr  : List Nat := []
  /-- TAP instruction: 0 BYPASS, 1 SAMPLE, 2 PRELOAD, 3 EXTEST, 4 IDCODE, 5 CLAMP, 6 HIGHZ -/
  tapIr   : Nat := 4
  /-- boundary cells as last captured or loaded -/
  cells   : Nat := 0
  /-- what the test port makes the pins do: 0 nothing, 1 driven from the cells, 2 floating -/
  tapDrive : Nat := 0
  deriving DecidableEq, Repr, Inhabited

/-- The states of a Lamug port (R516). -/
inductive LampState where
  | disabled | down | training | authenticating | up | lowPower | degraded | outOfService | notLicensed
  deriving DecidableEq, Repr, Inhabited

/-- One Lamug port (R511-R537, R546-R548). -/
structure Lamp where
  state   : LampState := .down
  /-- step of R517 under way -/
  step    : Nat := 0
  enable  : Bool := true
  encrypt : Bool := false
  lowPwr  : Bool := true
  encrypted : Bool := false
  /-- a retraining that was asked to begin from preset 0 (R648) -/
  fromPreset : Bool := false
  /-- the last training used saved settings -/
  savedUsed : Bool := false
  /-- the protocol version in use, and the highest version and the previous major's highest minor that the port's LINK image
  offers: major * 256 + minor (R525, R526) -/
  ver     : Nat := 0
  offer   : Nat := 0x301
  offerPrev : Nat := 6
  /-- authentications failed in a row, and a retry that waits 10 s (R517) -/
  authFails : Nat := 0
  waitRetry : Bool := false
  /-- peer whose settings are saved: module and port (R515) -/
  saved   : Option (Nat × Nat) := none
  /-- the peer that the last HELLO announced, and what LNK_PPEER shows -/
  hello   : Option (Nat × Nat) := none
  peer    : Nat × Nat := (0xFFF, 0xFF)
  /-- physical lane bypassed, 0xF none, and failed lanes, receive and transmit (R512, R547) -/
  rxBypass : Nat := 0xF
  txBypass : Nat := 0xF
  rxFailed : List Nat := []
  txFailed : List Nat := []
  /-- the receive lane whose swap waits for the marker -/
  swapping : Option Nat := none
  perr    : Nat := 0
  fec     : Nat := 0
  ue      : Nat := 0
  replayed : Nat := 0
  /-- next SEQ expected and next sent, a REPLAY_REQ outstanding, and flits sent and not acknowledged, oldest first, each with
  its replays (R522) -/
  rxSeq   : Nat := 0
  txSeq   : Nat := 0
  asked   : Bool := false
  unacked : List (Nat × Nat) := []
  replaysMs : Nat := 0
  /-- credits held, by virtual lane (R524) -/
  credits : List Nat := [1024, 1024, 32]
  /-- keys derived in this session and KEY_PHASE, send and receive; frames sent under the present key; times of tag failures (R537) -/
  txKey   : Nat := 0
  rxKey   : Nat := 0
  txFrames : Nat := 0
  tagFails : List Nat := []
  /-- copies in the port's group buffer, oldest first (R544) -/
  gbuf    : List FPacket := []
  runBank : Nat := 0
  pendingBank : Option Nat := none
  deriving DecidableEq, Repr, Inhabited

/-- A descriptor being performed (R539): what it asks, what it has sent, and the requests without an answer: transaction,
offset, bytes, and whether it was resent. -/
structure FDesc where
  no     : Nat := 0
  op     : Nat := 0
  fence  : Bool := false
  hop    : Nat := 0
  target : Nat := 0
  dstMod : Nat := 0
  local_ : Nat := 0
  offset : Nat := 0
  bytes  : Nat := 0
  value  : Nat := 0
  user   : Nat := 0
  sent   : Nat := 0
  done   : Nat := 0
  wait   : List (Nat × Nat × Nat × Bool) := []
  status : Nat := 0
  deriving DecidableEq, Repr, Inhabited

/-- A fabric endpoint (R538-R542). -/
structure Endpoint where
  open_  : Bool := false
  closing : Bool := false
  ctx    : Nat := 0
  home   : Nat := 0
  acceptW : Bool := false
  acceptR : Bool := false
  log2   : Nat := 1
  acceptMod : Nat := 0xFFF
  winVa  : Nat := 0
  winBytes : Nat := 0
  sqVa   : Nat := 0
  cqVa   : Nat := 0
  tailVa : Nat := 0
  head   : Nat := 0
  tail   : Nat := 0
  cqTail : Nat := 0
  phase  : Bool := true
  /-- the completion ring is full: nothing more is taken (R542) -/
  full   : Bool := false
  descNo : Nat := 0
  descs  : List FDesc := []
  deriving DecidableEq, Repr, Inhabited

/-- A fabric group entry (R543). -/
structure GEntry where
  up     : Nat := 31
  down   : Nat := 0
  valid  : Bool := false
  localEp : Nat := 0x3FF
  beneath : Nat := 0
  deriving DecidableEq, Repr, Inhabited

/-- A group write at its root: group, sender's module, endpoint and transaction, members delivered and pruned, the worst
status, and the branches that are pruned for it (R544). -/
structure GWrite where
  group  : Nat := 0
  srcMod : Nat := 0
  srcEp  : Nat := 0
  txn    : Nat := 0
  delivered : Nat := 0
  pruned : Nat := 0
  status : Nat := 0
  deriving DecidableEq, Repr, Inhabited

/-- A fabric hurdle generation at a module: contributions in, the op, the partial value, whether two ops differed, and whether
the part has gone up (R545). -/
structure GHurdle where
  count  : Nat := 0
  op     : Nat := 0
  value  : Nat := 0
  broken : Bool := false
  passedUp : Bool := false
  deriving DecidableEq, Repr, Inhabited

/-- The fabric attachment (R525-R545, R549). -/
structure Fabric where
  ports  : Tab Lamp := []
  moduleId : Nat := 0xFFF
  fmgrOn : Bool := false
  fmgr   : Nat := 0
  rtTable : Nat := 0
  rtDest : Nat := 0
  /-- routing entries by 4096 * table + destination (R531) -/
  routes : Tab Nat := []
  stage  : Tab Nat := []
  epIndex : Nat := 0
  epResult : Nat := 0
  eps    : Tab Endpoint := []
  groups : Tab GEntry := []
  /-- other modules heard: module, version, sequence, time (R527) -/
  heard  : List (Nat × Nat × Nat × Nat) := []
  advSeq : Nat := 0
  floor  : Nat := 0x301
  /-- the floor has been 3.0 or above for long enough (R528) -/
  groupsOk : Bool := true
  gwrites : List GWrite := []
  ghurdles : Tab GHurdle := []
  nextTxn : Nat := 0
  deriving DecidableEq, Repr, Inhabited

end Sys2Proof.Machine
end

