-- ==== Sys2Proof/Machine/StateFold.lean ====
section
/-! DEFINITION. The state of the Fold controller and of the secure element: pairs, firmware, the event log, management, SPDM,
licences, IDE, debug access (R625-R682). -/
namespace Sys2Proof.Machine

/-- Where a controller pair stands (R625-R629, R646). -/
inductive PairState where
  | active | standby
  /-- held in reset -/
  | held
  /-- stopped on a mismatch -/
  | stopped
  | failed
  | recovery
  deriving DecidableEq, Repr, Inhabited

/-- A controller pair: the bank its image came from, the times of its mismatches, and whether the watchdog still restarts it. -/
structure FoldPair where
  st     : PairState := .standby
  bank   : Nat := 0
  misses : List Nat := []
  restart : Bool := false
  deriving DecidableEq, Repr, Inhabited

/-- A firmware bank (R642, R643): whether it may be run (active or STAGED), and the set it holds. -/
structure Bank where
  valid  : Bool := false
  fw     : FwSet := {}
  deriving DecidableEq, Repr, Inhabited

/-- A block of the event log (R638, R639). -/
structure LogBlock where
  no      : Nat := 0
  entries : List LogEntry := []
  closed  : Bool := false
  /-- generation of the alias key that sealed it -/
  key     : Nat := 0
  /-- a failed check of its seal has been reported -/
  told    : Bool := false
  deriving DecidableEq, Repr, Inhabited

/-- A function's mailbox (R654-R656). -/
structure Mailbox where
  req    : Tab Nat := []
  resp   : Tab Nat := []
  intEn  : Bool := false
  vector : Nat := 0
  reqLen : Nat := 0
  ready  : Bool := false
  busy   : Bool := false
  status : Nat := 0
  rspLen : Nat := 0
  lost   : Nat := 0
  deriving DecidableEq, Repr, Inhabited

/-- States of a PLDM update session (R644, DSP0267). -/
inductive UpdState where
  | idle | learn | ready | download | verify | apply | activate
  deriving DecidableEq, Repr, Inhabited

/-- The PLDM update session: its job, the components passed, the component under transfer, its size and bytes received, components
applied, and who opened it (endpoint number). -/
structure Update where
  state  : UpdState := .idle
  job    : Nat := 0
  passed : List Nat := []
  comp   : Nat := 0
  size   : Nat := 0
  got    : Nat := 0
  applied : List Nat := []
  by_    : Nat := 0
  deriving DecidableEq, Repr, Inhabited

/-- A maintenance request of Fufin's own that waits to be retried (R650). -/
structure OwnAsk where
  activity : Nat := 0
  tkind  : Nat := 0
  target : Nat := 0
  w2     : Nat := 0
  w3     : Nat := 0
  deriving DecidableEq, Repr, Inhabited

/-- The Fold controller (R625-R656). -/
structure Fold where
  pair0  : FoldPair := { st := .active }
  pair1  : FoldPair := {}
  /-- MGT_STAT.ACTIVE_BANK -/
  activeBank : Nat := 0
  bankA  : Bank := { valid := true }
  bankB  : Bank := {}
  /-- frames of the HBM copies of a staged bank's tile image (R643) -/
  stagedCopies : List (Nat × List Nat) := []
  /-- the event log: last SEQ given, entries not yet in flash, blocks oldest first, blocks ever begun, acknowledgement point -/
  seq    : Nat := 0
  buffer : List LogEntry := []
  blocks : List LogBlock := []
  blockNo : Nat := 0
  ack    : Nat := 0
  /-- the next entry follows entries that were lost (R639, R686) -/
  gap    : Bool := false
  /-- entries dropped since the start (R639) -/
  dropped : Nat := 0
  /-- digest that the next entry chains to -/
  chain  : Nat := 0
  /-- flash blocks replaced from the spares (R630) -/
  replaced : Nat := 0
  mail   : Tab Mailbox := []
  autoRotate : Bool := true
  autoActivate : Bool := false
  /-- Fufin's own requests that met a full queue, oldest first -/
  retry  : List OwnAsk := []
  /-- components pending activation from a bank (R644) -/
  pendingFw : List Nat := []
  pendingBank : Nat := 0
  upd    : Update := {}
  /-- MCTP endpoint IDs: PF0-PF3, 4 for I3C; 0 for none -/
  eids   : Tab Nat := []
  i3cAddr : Option Nat := none
  /-- receiver of platform events: transport number and endpoint -/
  receiver : Option (Nat × Nat) := none
  /-- time of the last event of each sensor (R636) -/
  crossed : Tab (Option Nat) := []
  /-- eye margins in mV, by 9 * port + lane (R637) -/
  eyes   : Tab Nat := []
  /-- starts made (R635) -/
  starts : Nat := 0
  /-- shadows and held LO values of the Fold's own register accesses, and of functions, by reader * 2^32 + address (R16) -/
  shadow : Tab (Option Nat) := []
  heldLo : Tab (Option Nat) := []
  deriving DecidableEq, Repr, Inhabited

/-- A secured session (R663): its place (0-255 a function's DOE, 256-259 MCTP on PF0-PF3, 260 I3C, 261 + n Lamug port n), whether
its handshake is over, whether the requester was authenticated, the hash of its leaf public key, key updates, and a debug read
made in it. -/
structure Session where
  id     : Nat := 0
  place  : Nat := 0
  up     : Bool := false
  mutual_ : Bool := false
  key    : Nat := 0
  updates : Nat := 0
  deriving DecidableEq, Repr, Inhabited

/-- A place's negotiation (R662): version agreed, capabilities and algorithms exchanged; a large message under way by chunks, and
the encapsulated request under way. -/
structure Responder where
  version : Option Nat := none
  asked  : Bool := false
  caps   : Bool := false
  algs   : Bool := false
  chunkId : Nat := 0
  chunkIn : List Nat := []
  chunkNext : Nat := 0
  chunkOut : List Nat := []
  /-- 0 none, 1 GET_DIGESTS, 2 GET_CERTIFICATE, 3 CHALLENGE of the requester -/
  encap  : Nat := 0
  encapSession : Nat := 0
  deriving DecidableEq, Repr, Inhabited

/-- A debug consent (R679): context, debugger, scope bits, end. -/
structure Consent where
  ctx    : Nat := 0
  key    : Nat := 0
  scope  : Nat := 0
  until_ : Nat := 0
  deriving DecidableEq, Repr, Inhabited

/-- An IDE stream (R670, R671): keys programmed and key sets running, each as 2 * set + direction; whether it is Secure, and whether
it has gone Insecure. -/
structure Ide where
  keys   : List Nat := []
  running : List Nat := []
  secure : Bool := false
  insecure : Bool := false
  deriving DecidableEq, Repr, Inhabited

/-- Identity, licences and isolation (R658-R682). -/
structure Ident where
  /-- the derived device key matches its certificate (R661) -/
  attest : Bool := true
  aliasGen : Nat := 1
  /-- variant fuses blown: OV9-P, OV9-F; VARIANT licences in flash as their VARIANT codes (R668) -/
  fuseP  : Bool := false
  fuseF  : Bool := false
  licences : List Nat := []
  /-- highest debug SEQ accepted; the debug licence in force: debugger hash and end (R667, R678) -/
  debugSeq : Option Nat := none
  debugLic  : Option (Nat × Nat) := none
  /-- the fused security-version floors of the five components, and three that no component uses (R664, R669) -/
  floors : List Nat := [0, 0, 0, 0, 0, 0, 0, 0]
  sessions : List Session := []
  nextSession : Nat := 1
  responders : Tab Responder := []
  consents : List Consent := []
  /-- streams by 8 * port + stream: 0 the link stream, 1-4 selective ones -/
  ide    : Tab Ide := []
  deriving DecidableEq, Repr, Inhabited

end Sys2Proof.Machine
end

