-- ==== Sys2Proof/Machine/State.lean ====
section
/-! DEFINITION. The state of the block, what stops it, and the state right after reset. -/
namespace Sys2Proof.Machine

/-- What stops the machine. -/
inductive Fault where
  /-- Raised by no meaning of this model: the spec gives every command an effect. It would be safe. -/
  | none
  deriving DecidableEq, Repr

/-- What the model refuses. -/
inductive Refusal where
  /-- Raised by an arm of exec whose command has no meaning yet; safe. -/
  | notModelled (mnemonic : String)
  deriving DecidableEq, Repr

/-- The whole machine. Plain data: every unit's state, memory as a sorted list of bytes, and the queue of commands. -/
structure State where
  /-- every addressed RAM in one key space: HBM, scratchpads, private memories -/
  mem     : List Host.Cell
  /-- poison marks, by the key of the marked unit's first byte -/
  marks   : List Nat
  org     : Org
  tiles   : Tab Tile
  regions : Tab Region
  net     : Net
  mmu     : Mmu
  hbms  : Tab Stack
  host    : Host'
  errs    : Tab ErrBlock
  power   : Power
  start   : Start
  pins    : Pins
  fabric  : Fabric
  fold    : Fold
  ident   : Ident
  /-- event records sent to the Fold and not yet recorded, oldest first (R686) -/
  events  : List EventRec
  /-- counted event codes, by code and unit: time of the last record, and occurrences since it -/
  rates   : Tab (Option (Nat × Nat))
  /-- what has left the module, oldest first -/
  out     : List Out
  /-- the module's timestamp in ns (R364) -/
  time    : Nat
  /-- the model's own counter, to which free values are applied -/
  free    : Nat
  pending : List Instr
  deriving DecidableEq, Repr

/-- The machine right after reset: no command waiting. -/
def State.reset : State where
  mem := []
  marks := []
  org := {}
  tiles := []
  regions := []
  net := {}
  mmu := {}
  -- no stack serves before its training (R461, R596)
  hbms := (upto 0 20).map fun k => (k, { state := .inReset })
  host := {}
  errs := []
  power := {}
  start := {}
  pins := {}
  fabric := {}
  fold := {}
  ident := {}
  events := []
  rates := []
  out := []
  time := 0
  free := 0
  pending := []

end Sys2Proof.Machine
end

