-- ==== Sys2Proof/Machine/Ops.lean ====
section
/-! DEFINITION. The named operations over the state: units, memory and marks, events, binding and membership, plain registers. -/
namespace Sys2Proof.Machine

/-- What a meaning answers. -/
abbrev Res := Host.Outcome State Fault Refusal

/-! ### Units -/

def State.tile (s : State) (t : Nat) : Tile := tget s.tiles t
def State.setTile (s : State) (t : Nat) (x : Tile) : State := { s with tiles := tput s.tiles t x }
def State.modTile (s : State) (t : Nat) (f : Tile → Tile) : State := s.setTile t (f (s.tile t))
def State.region (s : State) (r : Nat) : Region := tget s.regions r
def State.setRegion (s : State) (r : Nat) (x : Region) : State := { s with regions := tput s.regions r x }
def State.modRegion (s : State) (r : Nat) (f : Region → Region) : State := s.setRegion r (f (s.region r))
def State.stack (s : State) (k : Nat) : Stack := tget s.hbms k
def State.setStack (s : State) (k : Nat) (x : Stack) : State := { s with hbms := tput s.hbms k x }
def State.modStack (s : State) (k : Nat) (f : Stack → Stack) : State := s.setStack k (f (s.stack k))
def State.paddock (s : State) (p : Nat) : Paddock := tget s.host.paddocks p
def State.setPaddock (s : State) (p : Nat) (x : Paddock) : State :=
  { s with host := { s.host with paddocks := tput s.host.paddocks p x } }
def State.job (s : State) (j : Nat) : Job := tget s.host.jobs j
def State.setJob (s : State) (j : Nat) (x : Job) : State := { s with host := { s.host with jobs := tput s.host.jobs j x } }
def State.ctx (s : State) (c : Nat) : Context := tget s.host.ctxs c
def State.setCtx (s : State) (c : Nat) (x : Context) : State := { s with host := { s.host with ctxs := tput s.host.ctxs c x } }
def State.func (s : State) (f : Nat) : Func := tget s.host.funcs f
def State.setFunc (s : State) (f : Nat) (x : Func) : State := { s with host := { s.host with funcs := tput s.host.funcs f x } }
def State.mmuCtx (s : State) (c : Nat) : MmuCtx := tget s.mmu.ctxs c
def State.setMmuCtx (s : State) (c : Nat) (x : MmuCtx) : State := { s with mmu := { s.mmu with ctxs := tput s.mmu.ctxs c x } }
def State.router (s : State) (t : Nat) : Router := tget s.net.routers t
def State.setRouter (s : State) (t : Nat) (x : Router) : State := { s with net := { s.net with routers := tput s.net.routers t x } }

def Tile.core (T : Tile) (k : Nat) : Core := if k = 0 then T.core0 else T.core1
def Tile.setCore (T : Tile) (k : Nat) (c : Core) : Tile := if k = 0 then { T with core0 := c } else { T with core1 := c }
def State.core (s : State) (u : CoreId) : Core := (s.tile u.tile).core u.core
def State.setCore (s : State) (u : CoreId) (c : Core) : State := s.modTile u.tile (·.setCore u.core c)
def State.modCore (s : State) (u : CoreId) (f : Core → Core) : State := s.setCore u (f (s.core u))

/-- Something leaves the module. -/
def State.emit (s : State) (o : Out) : State := { s with out := s.out ++ [o] }

/-- The next free value of the model's counter. -/
def State.takeFree (s : State) : Nat × State := (Config.freeValue s.free, { s with free := s.free + 1 })

/-! ### Memory: one sorted list of bytes over one key space -/

/-- Key of an HBM byte: stack and stack offset, whichever window named it (R444). -/
def hbmKey (stack off : Nat) : Nat := stack * 2 ^ 36 + off % 2 ^ 36
/-- Key of a scratchpad byte. -/
def spdKey (t off : Nat) : Nat := 2 ^ 44 + t * 2 ^ 23 + off % 2 ^ 23
/-- Key of a private-memory byte of core `k` of tile `t`. -/
def privKey (t k off : Nat) : Nat := 2 ^ 45 + (2 * t + k) * 2 ^ 17 + off % 2 ^ 17

/-- The canonical form of the memory: addresses strictly rising, and no byte listed that reads as an unlisted one does. -/
def Memory.wf (m : List Host.Cell) : Bool := Tab.wf m
/-- One byte of memory; a byte nothing has written reads as 0 (log 2). -/
def State.byte (s : State) (k : Nat) : Byte := tget s.mem k
/-- `n` bytes from a key on. -/
def State.bytes (s : State) (k : Nat) : Nat → List Byte
  | 0 => []
  | n + 1 => s.byte k :: s.bytes (k + 1) n
/-- Bytes stored into a memory from a key on. -/
def putBytes (m : List Host.Cell) (k : Nat) : List Byte → List Host.Cell
  | [] => m
  | b :: t => putBytes (tput m k b) (k + 1) t
/-- Bytes stored from a key on. -/
def State.store (s : State) (k : Nat) (bs : List Byte) : State := { s with mem := putBytes s.mem k bs }
/-- A little-endian number of `n` bytes. -/
def State.nat (s : State) (k n : Nat) : Nat := ofBytes (s.bytes k n)
/-- Is the unit that starts at key `k` marked poisoned? -/
def State.marked (s : State) (k : Nat) : Bool := s.marks.contains k
def State.mark (s : State) (k : Nat) (b : Bool) : State := { s with marks := setPut s.marks k b }
/-- A whole 32-byte word written with or without a mark: the word's mark becomes that (R179, R451). -/
def State.storeWord (s : State) (k : Nat) (bs : List Byte) (poison : Bool) : State := (s.store k bs).mark k poison

/-- Bytes that an uncorrectable error has taken: the word goes on marked, and what it holds is a free value (R178, R249, R452). -/
def State.garble (s : State) (k n : Nat) : State :=
  let (v, s) := s.takeFree
  s.store k (toBytes v n)

/-! ### Plain tile system registers -/

/-- The value a plain register holds after a tile reset (the Reset columns of R190, R193, R347, R388, R118). -/
def srReset (n : Nat) : Nat :=
  match n with
  | 0xA08 => 0x2002
  | 0xA0B => 0xFFFF0000
  | 0xC01 => 2000 * 65536 + 1000
  | 0xC2E => 10000
  | _ => 0
def Tile.reg (T : Tile) (n : Nat) : Nat := (tget T.sr n).getD (srReset n)
def Tile.setReg (T : Tile) (n v : Nat) : Tile := { T with sr := tput T.sr n (if v = srReset n then none else some v) }
/-- Sets sticky bits of a register. -/
def Tile.orReg (T : Tile) (n mask : Nat) : Tile := T.setReg n (T.reg n ||| mask)
def Tile.setField (T : Tile) (n lo w v : Nat) : Tile := T.setReg n (setFld (T.reg n) lo w v)

/-! ### Licence, binding, ownership, membership -/

/-- Licensed IDs per field (R2). -/
def Variant.perField : Variant → Nat
  | .e => 32 | .p => 48 | .f => 60
/-- Is a logical ID licensed (R2)? -/
def State.licensed (s : State) (l : Nat) : Bool := decide (l < 540) && decide (l % 60 < s.org.variant.perField)
/-- The tile a logical ID is bound to (R27, R28). -/
def State.tileOf (s : State) (l : Nat) : Option Nat :=
  if s.licensed l then
    match tget s.org.binds l with
    | .designated => some (designated l)
    | .tile t => some t
    | .hole => none
  else none
/-- The logical ID a physical tile holds. -/
def State.lidOf (s : State) (t : Nat) : Option Nat := (upto (60 * fieldOf t) 60).find? (fun l => s.tileOf l == some t)
/-- The logical ID of a tile, 0xFFFF for none. -/
def State.lidOr (s : State) (t : Nat) : Nat := (s.lidOf t).getD 0xFFFF
/-- Fit tiles (R26). -/
def State.fit (s : State) (t : Nat) : Bool := !s.org.unfit.contains t && !s.org.dead.contains (regionOf t)
/-- Free tiles: fit, holding no licensed ID, and zero-filled since they held one (R26, R29). -/
def State.freeTile (s : State) (t : Nat) : Bool := s.fit t && (s.lidOf t).isNone && !s.org.clearingTiles.contains t && !s.org.toFill.contains t
/-- The paddock that owns a region, 0 for none (R35). -/
def State.owner (s : State) (r : Nat) : Nat :=
  match s.host.paddocks.find? (fun e => e.2.live && e.2.regions.contains r) with
  | some e => e.1
  | none => 0
/-- The paddock a bound logical ID is a member of, 0 for none (R36, R37, R184, R725). -/
def State.lidPaddock (s : State) (l : Nat) : Nat :=
  match s.tileOf l with
  | none => 0
  | some t =>
    if s.org.clearingTiles.contains t then 0
    else match tget s.org.lent l with
      | some p => p
      | none =>
        if s.org.stranded.contains l || s.org.clearing.contains (regionOf t) then 0 else s.owner (regionOf t)
/-- The paddock a tile is a member of, 0 for none: its context tag (R343). -/
def State.tag (s : State) (t : Nat) : Nat :=
  match s.lidOf t with
  | some l => s.lidPaddock l
  | none => 0
/-- Member logical IDs of a paddock in ascending order (R36, R239). -/
def State.members (s : State) (p : Nat) : List Nat := if p = 0 then [] else (upto 0 540).filter (fun l => s.lidPaddock l == p)
/-- Member tiles in rank order. -/
def State.memberTiles (s : State) (p : Nat) : List Nat := (s.members p).filterMap s.tileOf
/-- Member rank of a tile in its paddock (R239). -/
def State.rank (s : State) (t : Nat) : Nat := (s.members (s.tag t)).idxOf (s.lidOr t)
/-- The context a tile runs for. -/
def State.tileCtx (s : State) (t : Nat) : Nat := (s.paddock (s.tag t)).ctx
/-- The job resident on a tile's paddock, 0 for none. -/
def State.tileJob (s : State) (t : Nat) : Nat := ((s.paddock (s.tag t)).resident).getD 0

/-! ### Events (R686, R687) -/

/-- The period in ns within which one unit's records of a code are counted into one; 0 for a code recorded each time (R74, R91,
R157, R185, R196, R250, R352, R441, R452, R510, R523, R594, R626, R672, R681). -/
def countPeriod (code : Nat) : Nat :=
  if ([0x1002, 0x1103, 0x1201, 0x2001, 0x2002, 0x2006, 0x2007, 0x3001, 0x4001, 0x5001, 0x6001, 0x7001] : List Nat).contains code then 1000000
  else if ([0x8201, 0x8208, 0xA00E, 0xB007, 0xB009] : List Nat).contains code then 1000000000
  else 0
/-- The unit that a record's count is kept for: a tile, else what its other fields name. -/
def EventRec.countKey (e : EventRec) : Nat :=
  e.code + 2 ^ 16 * (if e.node < 576 then e.node else 1024 + e.region + 256 * e.unit + 2 ^ 24 * (match e.ctx with | some c => c + 1 | none => 0))
/-- A unit sends an event record to the Fold. Occurrences of a counted code within its period after a record are kept for the
unit's next record. A record of refusals names their number last (R185). -/
def State.raise (s : State) (e : EventRec) : State :=
  let p := countPeriod e.code
  if p = 0 then { s with events := s.events ++ [e] }
  else
    let seen := tget s.rates e.countKey
    let n := match seen with | some x => x.2 + 1 | none => 1
    let now := match seen with | some x => decide (x.1 + p ≤ s.time) | none => true
    if now then
      { s with
        events := s.events ++ [{ e with counted := n, detail := if e.code = 0x2006 then e.detail ++ [n] else e.detail }]
        rates := tput s.rates e.countKey (some (s.time, 0)) }
    else { s with rates := tput s.rates e.countKey (seen.map fun x => (x.1, n)) }
/-- The function that owns a paddock, which a record naming the paddock carries; 0xFF for none (R687). -/
def State.paddockFn (s : State) (p : Nat) : Nat := if p = 0 then 0xFF else (s.ctx (s.paddock p).ctx).fn
/-- A record that names a tile and what it runs for. -/
def State.tileEvent (s : State) (t code unit : Nat) (detail : List Nat) : State :=
  let p := s.tag t
  s.raise { code := code, unit := unit, detail := detail, node := t, region := regionOf t, lid := s.lidOr t, paddock := p,
            ctx := if p = 0 then none else some (s.paddock p).ctx,
            fn := s.paddockFn p,
            job := s.tileJob t }
/-- A record that names a region. -/
def State.regionEvent (s : State) (r code unit : Nat) (detail : List Nat) : State :=
  s.raise { code := code, unit := unit, detail := detail, region := r }
/-- A record that names a unit by number only. -/
def State.unitEvent (s : State) (code unit : Nat) (detail : List Nat) : State :=
  s.raise { code := code, unit := unit, detail := detail }

/-! ### Clocks -/

/-- Does the region clock of a tile run (R85, R355)? -/
def State.ticking (s : State) (t : Nat) : Bool :=
  let r := s.region (regionOf t)
  r.power == .on && !r.stopped && !r.tripped

/-- A region is asked to wake: it joins those that wait (R560). -/
def State.wantWake (s : State) (r : Nat) : State :=
  if s.power.wakes.contains r || (s.region r).waking then s else { s with power := { s.power with wakes := s.power.wakes ++ [r] } }

/-! ### The Fold controller (R625-R629) -/

/-- Is a controller pair active, with Fufin booted (R596, R629)? -/
def State.foldAlive (s : State) : Bool :=
  !s.power.lost && (s.start.phase == 0 || decide (s.start.phase ≥ 3)) && (s.fold.pair0.st == .active || s.fold.pair1.st == .active)
/-- Does Fufin do its work: a pair is active, and the module has not been stopped in order (R653)? -/
def State.foldUp (s : State) : Bool := s.foldAlive && !s.start.stopped

/-! ### Tiles declared unfit -/

/-- A record is appended to the defect map (R611, R612). -/
def State.defect (s : State) (kind cause : Nat) (where_ : List Nat) (detail : Nat := 0) : State :=
  { s with org := { s.org with
      defects := s.org.defects ++ [{ kind := kind, cause := cause, where_ := where_, time := s.time, seq := s.org.defectSeq + 1, detail := detail }]
      defectSeq := s.org.defectSeq + 1 } }

/-- A tile is declared unfit: recorded in the defect map, and its ID waits to be re-bound (R26, R27, R84, R182). -/
def State.declareUnfit (s : State) (t cause : Nat) : State :=
  if s.org.unfit.contains t then s
  else
    let s := s.defect 0x03 cause [t]
    { s with org := { s.org with unfit := setIns s.org.unfit t, lost := s.org.lost ++ [(t, true)] } }

end Sys2Proof.Machine
end

