-- ==== Sys2Proof/Machine/Spd.lean ====
section
/-! DEFINITION. Scratchpad and private-memory operations: the combining buffer, word and narrow accesses, error codes,
repairs, zones (R162-R196, R249). -/
namespace Sys2Proof.Machine

/-- Requesters of R192. -/
inductive Requester where
  | feeder | loader | drain | xfer | net | core0 | core1 | scrubber
  deriving DecidableEq, Repr, Inhabited

def Requester.num : Requester → Nat
  | .feeder => 0 | .loader => 1 | .drain => 2 | .xfer => 3 | .net => 4 | .core0 => 5 | .core1 => 6 | .scrubber => 7

/-- The requester that a core is. -/
def coreReq (k : Nat) : Requester := if k = 0 then .core0 else .core1

def State.modSpd (s : State) (t : Nat) (f : Spd → Spd) : State := s.modTile t fun T => { T with spd := f T.spd }

/-- Bank of a word (R163). -/
def bankOf (word : Nat) : Nat := (word / 32 + word) % 32
/-- Sheet of a word (R162). -/
def sheetOf (word : Nat) : Nat := word / 1024

/-- Is a sheet a weight zone (R176, R189)? -/
def Tile.weightSheet (T : Tile) (sheet : Nat) : Bool := bit (T.reg (0xA00 + sheet / 32)) (sheet % 32)
/-- The zone whose code a sheet's words are stored under: a sheet still to be swept keeps its old code (R180). -/
def Tile.codeWeight (T : Tile) (sheet : Nat) : Bool := T.weightSheet sheet != T.spd.sweep.contains sheet
def Tile.detectOnly (T : Tile) : Bool := bit (T.reg 0xA08) 0
def Tile.rerunMax (T : Tile) : Nat := fld (T.reg 0xA08) 12 4

/-- Does an access to the word wait for a zero-fill or a zone sweep (R180, R187)? -/
def Tile.spdBlocked (T : Tile) (word : Nat) : Bool := T.spd.fillRow.isSome || T.spd.sweep.head? == some (sheetOf word)

/-- Sets SPD_ERR bits and records SPD_ERRADDR (R191, R192). -/
def State.spdErr (s : State) (t word kind : Nat) (who : Requester) (mask : Nat) : State :=
  s.modTile t fun T => (T.orReg 0xA09 mask).setReg 0xA0A
    (atBit kind 29 3 + atBit who.num 26 3 + atBit (word / 1024) 10 8 + atBit (word / 32) 5 5 + atBit word 0 5)

/-- An event of the scratchpad that names a word (R196). -/
def State.spdEvent (s : State) (t code word kind : Nat) (who : Requester) : State :=
  s.tileEvent t code 0xFFFF [kind, who.num, word]

/-- A word moves to a spare of its bank; a bank whose last spare goes makes the tile unfit (R182). -/
def State.spdRepair (s : State) (t word : Nat) (who : Requester) : State :=
  let T := s.tile t
  let used := (T.spd.spares.filter fun w => bankOf w == bankOf word).length
  if T.spd.spares.contains word || decide (used ≥ 16) then s
  else
    let s := s.modSpd t fun d => { d with spares := setIns d.spares word, upset := tput d.upset word 0, checkBack := setDel d.checkBack word }
    let s := ((s.spdErr t word 5 who 0x10).spdEvent t 0x2007 word 5 who).defect 0x05 0x2007 [t, bankOf word, word]
    if used = 15 then
      let s := s.modSpd t fun d => { d with spareOut := some (d.spareOut.getD (bankOf word)) }
      (s.spdEvent t 0x2008 word 5 who).declareUnfit t 0x2008
    else s

/-- What a read of one word delivers: its bytes, its mark, and whether detect-only mode found an error in it (R181). -/
structure SpdRead where
  bytes  : List Byte := []
  poison : Bool := false
  again  : Bool := false
  deriving DecidableEq, Repr, Inhabited

/-- The check of one stored word under its zone's code (R177, R178, R181). -/
def State.spdCheck (s : State) (t : Nat) (who : Requester) (word : Nat) : SpdRead × State :=
  let T := s.tile t
  let key := spdKey t (32 * word)
  let bs := s.bytes key 32
  let wrong := tget T.spd.upset word
  let weight := T.codeWeight (sheetOf word)
  if s.marked key then (⟨bs, true, false⟩, s)
  else if wrong = 0 then (⟨bs, false, false⟩, s)
  else if T.detectOnly then (⟨bs, false, true⟩, (s.spdErr t word 4 who 0x04).spdEvent t 0x2004 word 4 who)
  else if wrong ≤ (if weight then 2 else 1) then
    let s := (s.spdErr t word wrong who 0x01).spdEvent t (if weight then 0x2002 else 0x2001) word wrong who
    (⟨bs, false, false⟩, s.modSpd t fun d => { d with checkBack := setIns d.checkBack word })
  else
    let s := (((s.garble key 32).mark key true).spdErr t word 3 who 0x02).spdEvent t 0x2003 word 3 who
    (⟨s.bytes key 32, true, false⟩, s.spdRepair t word who)

/-- A whole word written: new data, new check bits, and its mark as given (R179). -/
def State.spdPut (s : State) (t word : Nat) (bs : List Byte) (poison : Bool) : State :=
  (s.storeWord (spdKey t (32 * word)) bs poison).modSpd t fun d =>
    { d with upset := tput d.upset word 0, checkBack := setDel d.checkBack word }

/-- The bytes of `old` with those of `new` whose mask bits are set. -/
def mergeBytes (old : List Byte) (new mask : Nat) (i : Nat) : List Byte :=
  match old with
  | [] => []
  | b :: t => (if bit mask i then BitVec.ofNat 8 (fld new (8 * i) 8) else b) :: mergeBytes t new mask (i + 1)

/-- One combining-buffer entry is written: whole, or by a read-modify-write (R173). -/
def State.cbWrite (s : State) (t : Nat) (e : CbEntry) : State :=
  let s := s.modSpd t fun d => { d with cb := d.cb.filter fun x => x.word != e.word }
  if e.mask = 2 ^ 32 - 1 then s.spdPut t e.word (toBytes e.bytes 32) e.poison
  else
    let (r, s) := s.spdCheck t (if e.requester = 5 then .core0 else if e.requester = 6 then .core1 else .net) e.word
    s.spdPut t e.word (mergeBytes r.bytes e.bytes e.mask 0) (e.poison || r.poison || r.again)

/-- The entry that holds a word, if any, is flushed (rules 2 and 4 of R172). -/
def State.cbFlush (s : State) (t word : Nat) : State :=
  match (s.tile t).spd.cb.find? fun e => e.word == word with
  | some e => s.cbWrite t e
  | none => s

/-- Every entry is flushed, oldest first (rules 5 and 6 of R172). -/
def State.cbFlushAll (s : State) (t : Nat) : State := (s.tile t).spd.cb.foldl (fun s e => s.cbFlush t e.word) s

/-- A whole word read by a client (rule 4 of R172, R178). -/
def State.spdRead (s : State) (t : Nat) (who : Requester) (word : Nat) : SpdRead × State :=
  (s.cbFlush t word).spdCheck t who word

/-- A whole word written by a client. -/
def State.spdWrite (s : State) (t word : Nat) (bs : List Byte) (poison : Bool) : State := (s.cbFlush t word).spdPut t word bs poison

/-- Several words read in order. -/
def State.spdReads (s : State) (t : Nat) (who : Requester) : List Nat → List SpdRead × State
  | [] => ([], s)
  | w :: ws =>
    let (r, s) := s.spdRead t who w
    let (rs, s) := s.spdReads t who ws
    (r :: rs, s)

/-- A byte mask at `off` bytes into a word, `n` bytes long. -/
def byteMask (off n : Nat) : Nat := (2 ^ n - 1) * 2 ^ off

/-- A narrow write within one word: merged into its entry, or into a free one, the oldest entry leaving where none is
free; a full entry is written (R171-R173). -/
def State.narrowWrite (s : State) (t : Nat) (who : Requester) (off : Nat) (bs : List Byte) (poison : Bool) : State :=
  let word := off / 32 % 2 ^ 18
  let i := off % 32
  let mask := byteMask i bs.length
  let val := ofBytes bs * 2 ^ (8 * i)
  let d := (s.tile t).spd
  let s := if (d.cb.any fun e => e.word == word) || decide (d.cb.length < 16) then s
           else match d.cb with
             | e :: _ => s.cbWrite t e
             | [] => s
  let d := (s.tile t).spd
  let e := (d.cb.find? fun e => e.word == word).getD { word := word, requester := who.num }
  let keep := ofBytes (mergeBytes (toBytes e.bytes 32) val mask 0)
  let e' : CbEntry := { e with bytes := keep, mask := e.mask ||| mask, poison := e.poison || poison }
  let cb := if d.cb.any fun x => x.word == word then d.cb.map fun x => if x.word == word then e' else x else d.cb ++ [e']
  let s := s.modSpd t fun d => { d with cb := cb }
  if e'.mask = 2 ^ 32 - 1 then s.cbWrite t e' else s

/-- A narrow read within one word: served from an entry that holds all its bytes, else from the word with the entry's
bytes merged in (R174). -/
def State.narrowRead (s : State) (t : Nat) (who : Requester) (off n : Nat) : SpdRead × State :=
  let word := off / 32 % 2 ^ 18
  let i := off % 32
  let mask := byteMask i n
  match (s.tile t).spd.cb.find? fun e => e.word == word with
  | some e =>
    if e.mask &&& mask = mask then (⟨((toBytes e.bytes 32).drop i).take n, e.poison, false⟩, s)
    else
      let (r, s) := s.spdCheck t who word
      (⟨((mergeBytes r.bytes e.bytes e.mask 0).drop i).take n, r.poison || e.poison, r.again⟩, s)
  | none =>
    let (r, s) := s.spdCheck t who word
    (⟨(r.bytes.drop i).take n, r.poison, r.again⟩, s)

/-! ### Zero-fill -/

/-- Zero-fill begins: the combining buffer is discarded and the zone map becomes zero (R187). -/
def State.startFill (s : State) (t : Nat) : State :=
  s.modTile t fun T =>
    let T := (upto 0xA00 8).foldl (fun T n => T.setReg n 0) T
    { T with spd := { T.spd with cb := [], fillRow := some 0, sweep := [], sweepRow := 0, checkBack := [] } }

/-! ### Private memory (R201, R249) -/

/-- The check of one aligned 8-byte unit of private memory: a single wrong bit is corrected, more mark the unit. -/
def State.privCheck (s : State) (u : CoreId) (unit : Nat) : State :=
  let wrong := tget (s.core u).privUpset unit
  if wrong = 0 then s
  else
    let s := s.modCore u fun c => { c with privUpset := tput c.privUpset unit 0 }
    if wrong = 1 then s.tileEvent u.tile 0x1201 u.core [8 * unit]
    else ((s.garble (privKey u.tile u.core (8 * unit)) 8).mark (privKey u.tile u.core (8 * unit)) true).tileEvent u.tile 0x1202 u.core [8 * unit]

/-- Checks the units from `unit` on. -/
def State.privChecks (s : State) (u : CoreId) (unit : Nat) : Nat → State
  | 0 => s
  | n + 1 => (s.privCheck u unit).privChecks u (unit + 1) n

/-- Is any of the units marked? -/
def State.privMarked (s : State) (u : CoreId) (off n : Nat) : Bool :=
  (upto (off / 8) ((off + n - 1) / 8 + 1 - off / 8)).any fun k => s.marked (privKey u.tile u.core (8 * k))

/-- Bytes of private memory read after the check of their units. -/
def State.privRead (s : State) (u : CoreId) (off n : Nat) : List Byte × Bool × State :=
  let s := s.privChecks u (off / 8) ((off + n - 1) / 8 + 1 - off / 8)
  (s.bytes (privKey u.tile u.core off) n, s.privMarked u off n, s)

/-- Bytes of private memory written: a poisoned store marks each unit it touches, an unpoisoned one clears the mark of
each unit it writes whole. A unit written in part is checked first (R201, R249). -/
def State.privWrite (s : State) (u : CoreId) (off : Nat) (bs : List Byte) (poison : Bool) : State :=
  let n := bs.length
  let units := upto (off / 8) ((off + n - 1) / 8 + 1 - off / 8)
  let whole := fun k => decide (off ≤ 8 * k) && decide (8 * k + 8 ≤ off + n)
  let s := units.foldl (fun s k => if whole k then s.modCore u fun c => { c with privUpset := tput c.privUpset k 0 } else s.privCheck u k) s
  let s := s.store (privKey u.tile u.core off) bs
  units.foldl (fun s k => if poison then s.mark (privKey u.tile u.core (8 * k)) true
                          else if whole k then s.mark (privKey u.tile u.core (8 * k)) false else s) s

end Sys2Proof.Machine
end

