-- ==== Sys2Proof/Machine/Status.lean ====
section
/-! DEFINITION. Status words, held statuses, summaries and tickets (R253-R262). -/
namespace Sys2Proof.Machine

/-- Units as Held and seqs number them: 0 sequencer, 1+c channel c, 17+s layer slot s. -/
def unitSeq : Nat := 0
def unitChan (c : Nat) : Nat := 1 + c
def unitSlot (s : Nat) : Nat := 17 + s

/-- The flags of a status word (R255). -/
structure StFlags where
  x        : XFlags := {}
  rerun    : Bool := false
  full     : Bool := false
  pruned   : Bool := false
  poisoned : Bool := false
  deriving DecidableEq, Repr, Inhabited

/-- Bits [15:8] of a status word. -/
def StFlags.toNat (f : StFlags) : Nat :=
  f.x.toNat * 16 + 8 * b01 f.rerun + 4 * b01 f.full + 2 * b01 f.pruned + b01 f.poisoned

/-- A status word with DONE set (R255). -/
def statusWord (code count : Nat) (f : StFlags) : Nat := 2 ^ 63 + atBit count 16 32 + atBit f.toNat 8 8 + atBit code 0 8

/-- DONE and STALE (R261). -/
def staleWord : Nat := 2 ^ 63 + 2 ^ 62

/-- How many completed instructions a status outlives (R261). -/
def heldLimit (unit : Nat) : Nat := if unit = 0 then 64 else if unit < 17 then 32 else 16

/-- Is the held status one that counts together with those of core `c` and unit `u`? A channel's are counted whoever
issued them. -/
def Held.sameUnit (h : Held) (c u : Nat) : Bool := h.unit == u && (h.core == c || (decide (1 ≤ u) && decide (u < 17)))

/-- Keeps the newest `n` of the statuses that `p` selects, oldest first in the list. -/
def keepLast (p : Held → Bool) (n : Nat) (l : List Held) : List Held :=
  (l.foldr (fun h (acc : Nat × List Held) => if p h then (if acc.1 < n then (acc.1 + 1, h :: acc.2) else acc) else (acc.1, h :: acc.2)) (0, [])).2

/-- The summary with one more instruction in it (R260). -/
def Summary.add (m : Summary) (code flags stamp : Nat) : Summary where
  code := if code = 0 then m.code else if m.code = 0 ∨ stamp < m.codeAt then code else m.code
  codeAt := if code = 0 then m.codeAt else if m.code = 0 ∨ stamp < m.codeAt then stamp else m.codeAt
  flags := m.flags ||| flags
  count := m.count + 1

/-- Adds an instruction to the core's M summary, or to its transfer and dispatch summary (R260). -/
def State.summarise (s : State) (u : CoreId) (mClass : Bool) (code flags stamp : Nat) : State :=
  s.modCore u fun c => if mClass then { c with mSum := c.mSum.add code flags stamp } else { c with xSum := c.xSum.add code flags stamp }

def coreId (t k : Nat) (h : t < 576) : CoreId := ⟨⟨t, h⟩, if k = 0 then 0 else 1⟩

/-- A core of a tile by number; a tile number out of range names tile 0. -/
def mkCore (t k : Nat) : CoreId := if h : t < 576 then coreId t k h else ⟨0, if k = 0 then 0 else 1⟩

/-- A ticketed instruction completes: its status is held and its summary counts it (R255, R260, R261). -/
def State.complete (s : State) (u : CoreId) (unit seq stamp code count : Nat) (f : StFlags) (words : List Nat) : State :=
  let h : Held := { core := u.core, unit := unit, seq := seq, status := statusWord code count f, words := words }
  let s := s.modTile u.tile fun T =>
    { T with held := keepLast (fun x => x.sameUnit u.core unit) (heldLimit unit) (T.held ++ [h]) }
  s.summarise u (unit == 0) code f.toNat stamp

/-- SEQ of the next ticket of a core for a unit (R253). -/
def Core.nextSeq (c : Core) (unit : Nat) : Nat := (((tget c.seqs unit).getD 0) + 1) % 2 ^ 16
def Core.takeSeq (c : Core) (unit : Nat) : Core := { c with seqs := tput c.seqs unit (some (c.nextSeq unit)) }

/-- The ticket for a unit and SEQ (R253). -/
def ticketWord (unit seq : Nat) : Nat :=
  let (kind, n) := if unit = 0 then (1, 0) else if unit < 17 then (2, unit - 1) else (3, unit - 17)
  atBit kind 60 4 + atBit n 56 4 + atBit seq 0 16

/-- The unit a ticket names. -/
def ticketUnit (w : Nat) : Option Nat :=
  match fld w 60 4 with
  | 1 => if fld w 56 4 = 0 then some 0 else none
  | 2 => some (1 + fld w 56 4)
  | 3 => if fld w 56 4 < 2 then some (17 + fld w 56 4) else none
  | _ => none

/-- Has a ticket been issued (R261)? -/
def Core.issued (c : Core) (unit seq : Nat) : Bool :=
  match tget c.seqs unit with
  | none => false
  | some l => let d := (seq + 2 ^ 16 - l) % 2 ^ 16; decide (d = 0) || decide (d ≥ 32768)

end Sys2Proof.Machine
end

