-- ==== Sys2Proof/Machine/Sequencer.lean ====
section
/-! DEFINITION. Pass, load and drain words, the storage of the arrays, and the order of a tile's sequencer (R56-R87, R251-R277). -/
namespace Sys2Proof.Machine

/-! ### Operand words -/

/-- C that a LANES field names (R266); 0 for the reserved value. -/
def lanesOf (n : Nat) : Nat := if n = 0 then 1 else if n = 1 then 2 else if n = 2 then 4 else 0
/-- S that a SPARSITY or NM field names; 0 for the reserved value. -/
def sparsOf (n : Nat) : Nat := if n = 0 then 1 else if n = 1 then 2 else if n = 2 then 4 else 0
/-- Arrays of a 4-bit mask, ascending. -/
def maskArrays (m : Nat) : List Nat := (upto 0 4).filter fun a => bit m a

/-- The pass word (R270). -/
structure PWord where
  arrays : Nat
  slot : Nat
  diag : Bool
  exact : Bool
  add : Bool
  spars : Nat
  target : Nat
  wfmt : Nat
  rowBase : Nat
  rowCount : Nat
  n : Nat
  linked : Bool
  link : Nat
  deriving DecidableEq, Repr

def PWord.ofNat (w : Nat) : PWord where
  arrays := fld w 0 4
  slot := fld w 4 1
  diag := bit w 5
  exact := bit w 6
  add := bit w 7
  spars := sparsOf (fld w 8 2)
  target := fld w 10 2
  wfmt := fld w 12 4
  rowBase := fld w 16 9
  rowCount := fld w 25 9 + 1
  n := fld w 34 16 + 1
  linked := bit w 50
  link := fld w 51 4

/-- The load word (R266). -/
structure LWord where
  arrays : Nat
  slot : Nat
  diag : Bool
  shared : Bool
  lanes : Nat
  deriving DecidableEq, Repr

def LWord.ofNat (w : Nat) : LWord where
  arrays := fld w 0 4
  slot := fld w 4 1
  diag := bit w 5
  shared := bit w 6
  lanes := lanesOf (fld w 7 2)

/-- The drain word (R273). -/
structure DWordM where
  arrays : Nat
  target : Nat
  exact : Bool
  clear : Bool
  scatter : Bool
  zfill : Bool
  lanes : Nat
  rowBase : Nat
  rowCount : Nat
  deriving DecidableEq, Repr

def DWordM.ofNat (w : Nat) : DWordM where
  arrays := fld w 0 4
  target := fld w 4 2
  exact := bit w 6
  clear := bit w 7
  scatter := bit w 8
  zfill := bit w 9
  lanes := lanesOf (fld w 10 2)
  rowBase := fld w 16 9
  rowCount := fld w 25 9 + 1

/-! ### Targets, halves and storage rows -/

/-- Do two targets (0 A, 1 B, 2 WHOLE) share a half (R78)? -/
def targetsMeet (a b : Nat) : Bool := a == 2 || b == 2 || a == b
/-- Output rows of a target (R72, R109). -/
def targetRows (exact : Bool) (c target : Nat) : Nat := (if exact then 32 else 256) * (if target = 2 then 2 else 1) / c
/-- First storage row of a target. -/
def targetBase (exact : Bool) (target : Nat) : Nat := if target = 1 then (if exact then 32 else 256) else 0
/-- The half (false A, true B) a storage row lies in. -/
def rowHalf (exact : Bool) (row : Nat) : Bool := decide (row ≥ (if exact then 32 else 256))
/-- Where a storage row of either mode is held: half A from 0, half B from 256. -/
def rowKey (exact : Bool) (row : Nat) : Nat := if exact ∧ row ≥ 32 then row - 32 + 256 else row
/-- Storage row of output row `m`, lane `l` (R72). -/
def storageRow (exact : Bool) (c target m l : Nat) : Nat := targetBase exact target + c * m + l
/-- Key of an entry: array, held row, working column. -/
def entryKey (a row j : Nat) : Nat := (a * 512 + row) * 64 + j

def Arrays.mode (A : Arrays) (b : Bool) : HalfMode := if b then A.modeB else A.modeA
def Arrays.gen (A : Arrays) (b : Bool) : Nat := if b then A.genB else A.genA
def Arrays.setMode (A : Arrays) (b : Bool) (m : HalfMode) : Arrays :=
  if A.mode b = m then A
  else if b then { A with modeB := m, genB := A.genB + 1 } else { A with modeA := m, genA := A.genA + 1 }
def Arrays.idx (A : Arrays) (b : Bool) : IndexTable := if b then A.idxB else A.idxA
def Arrays.setIdx (A : Arrays) (b : Bool) (t : IndexTable) : Arrays := if b then { A with idxB := t } else { A with idxA := t }
/-- The halves a target takes in. -/
def targetHalves (target : Nat) : List Bool := if target = 0 then [false] else if target = 1 then [true] else [false, true]
/-- The mode a SET pass of these settings gives its half (R71, R272). -/
def passMode (exact : Bool) (afmt : Nat) : HalfMode := if !exact then .normal else if afmt = 0 then .bf16Exact else .exact

/-- An entry as a read in a mode sees it: what another mode left is the spec's to say (R71). -/
def Arrays.entry (A : Arrays) (exact : Bool) (key : Nat) (half : Bool) : Sum :=
  let e := tget A.acc key
  let other : Sum :=
    let o := Config.overlaidEntry key
    { f := o % 2 ^ 32, n := sext 256 o, hi := bit o 256, lo := bit o 257,
      sp := match fld o 258 2 with | 0 => .finite | 1 => .posInf | 2 => .negInf | _ => .nan }
  if e.gen ≠ A.gen half then other
  else match e.v, exact with
    | .zero, _ => { f := 0 }
    | .fp b, false => { f := b }
    | .exact x, true => x
    | _, _ => other

/-- Physical column of a working column (R81). -/
def Arrays.physCol (A : Arrays) (a j : Nat) : Nat :=
  match tget A.bypass a with
  | 0 => j
  | c + 1 => if j < c then j else j + 1

/-- The slot of an array. -/
def Arrays.slot (A : Arrays) (a k : Nat) : Slot := tget A.slots (2 * a + k)
def Arrays.modSlot (A : Arrays) (a k : Nat) (f : Slot → Slot) : Arrays := { A with slots := tmod A.slots (2 * a + k) f }
/-- One cell of a slot. -/
def Slot.cell (x : Slot) (r j : Nat) : Cell := (tget x.rows r).cells.getD j {}
/-- One cell of a row replaced, the row filled out to 64 cells. -/
def SRow.setCell (r : SRow) (j : Nat) (c : Cell) : SRow :=
  { r with cells := (upto 0 64).map fun i => if i = j then c else r.cells.getD i {} }

def State.modArr (s : State) (t : Nat) (f : Arrays → Arrays) : State := s.modTile t fun T => { T with arr := f T.arr }
def State.modSeqr (s : State) (t : Nat) (f : Seqr → Seqr) : State := s.modTile t fun T => { T with seqr := f T.seqr }

/-! ### Columns declared bad (R81, R82, R84) -/

/-- A physical column is declared bad: bypassed at once on a tile of no paddock, else when the job is suspended; a second
one makes the tile unfit. -/
def State.declareColumn (s : State) (t a col : Nat) : State :=
  let A := (s.tile t).arr
  if tget A.bypass a = col + 1 ∨ A.pendingBypass.contains (a * 65 + col) then s
  else if tget A.bypass a ≠ 0 ∨ A.pendingBypass.any (fun k => k / 65 == a) then
    let s := s.modArr t fun A => { A with exhausted := setIns A.exhausted a }
    (s.tileEvent t 0x1005 a [col]).declareUnfit t 0x1005
  else
    let s := (s.tileEvent t 0x1004 a [col]).defect 0x04 0x1004 [t, a, col]
    if s.tag t = 0 then s.modArr t fun A => { A with bypass := tput A.bypass a (col + 1) }
    else s.modArr t fun A => { A with pendingBypass := setIns A.pendingBypass (a * 65 + col) }

/-- Notes a slot parity error of a physical column in a loaded block (R82). -/
def State.noteParity (s : State) (t a col loadNo : Nat) : State :=
  let A := (s.tile t).arr
  let key := a * 65 + col
  let s := s.modArr t fun A => { A with parityBlocks := if A.parityBlocks.contains (key, loadNo) then A.parityBlocks else A.parityBlocks ++ [(key, loadNo)] }
  if A.parityBlocks.any fun e => e.1 == key && e.2 != loadNo then s.declareColumn t a col else s

/-- Notes an uncorrectable accumulator error of a physical column at a storage row (R82). -/
def State.noteUe (s : State) (t a col row : Nat) : State :=
  let A := (s.tile t).arr
  let key := a * 65 + col
  let s := s.modArr t fun A => { A with ueRows := if A.ueRows.contains (key, row) then A.ueRows else A.ueRows ++ [(key, row)] }
  if A.ueRows.any fun e => e.1 == key && e.2 != row then s.declareColumn t a col else s

/-- The ECC check of an entry at its read for an addition or a drain (R74). -/
def State.accCheck (s : State) (t a row j : Nat) : State :=
  let A := (s.tile t).arr
  let key := entryKey a row j
  match tget A.ecc key with
  | .ok | .found => s
  | .ce =>
    let s := s.modTile t fun T => { (T.orReg 0x801 (2 ^ (4 + a))) with arr := { T.arr with ecc := tput T.arr.ecc key .ok } }
    s.tileEvent t 0x1002 a [row, j]
  | .ue =>
    let s := s.modTile t fun T => { (T.orReg 0x801 (2 ^ (8 + a))) with
      arr := { T.arr with ecc := tput T.arr.ecc key .found, rowPoison := setIns T.arr.rowPoison (a * 512 + row) } }
    (s.tileEvent t 0x1003 a [row, row]).noteUe t a (A.physCol a j) row

/-! ### Order in the sequencer (R276, R277) -/

def MEntry.isPass (e : MEntry) : Bool := match e.op with | .pass _ | .skippedPass => true | _ => false
def MEntry.isLoad (e : MEntry) : Bool := match e.op with | .load .. => true | _ => false
def MEntry.isDrain (e : MEntry) : Bool := match e.op with | .drain .. => true | _ => false
/-- The pass word of an entry; a skipped pass is one with ARRAYS 0 (R129). -/
def MEntry.pword (e : MEntry) : PWord := match e.op with | .pass p => PWord.ofNat p.word | _ => PWord.ofNat 0
def MEntry.lword (e : MEntry) : LWord := match e.op with | .load w _ => LWord.ofNat w | _ => LWord.ofNat 0
def MEntry.dword (e : MEntry) : DWordM := match e.op with | .drain w _ => DWordM.ofNat w | _ => DWordM.ofNat 0
def MEntry.desc (e : MEntry) : Nat := match e.op with | .load _ d => d | .drain _ d => d | .pass p => p.desc | .skippedPass => 0
/-- The sheets an entry reads or writes (R277). -/
def MEntry.sheets (e : MEntry) : List Nat :=
  match e.op with
  | .skippedPass => []
  | .load w d => (Desc.ofNat d).sheets (LWord.ofNat w).diag
  | _ => (Desc.ofNat e.desc).sheets false

/-- Do two ascending sets share a member? -/
def setsMeet (a b : List Nat) : Bool := a.any b.contains

/-- Drains issued before `no` that have not made their last write. -/
def Seqr.earlierDrains (q : Seqr) (no : Nat) : List MEntry :=
  ((q.drain.map (·.entry)).toList ++ q.queue.filter (·.isDrain)).filter fun e => decide (e.no < no)
/-- Passes issued before `no` that have not completed. -/
def Seqr.earlierPasses (q : Seqr) (no : Nat) : List MEntry :=
  ((q.passes.map (·.entry)) ++ q.queue.filter (·.isPass)).filter fun e => decide (e.no < no)
/-- Passes issued before `no` that have vectors still to enter. -/
def Seqr.earlierReading (q : Seqr) (no : Nat) : List MEntry :=
  (((q.passes.filter fun p => !p.done).map (·.entry)) ++ q.queue.filter (·.isPass)).filter fun e => decide (e.no < no)
/-- Loads issued before `no` that have not completed. -/
def Seqr.earlierLoads (q : Seqr) (no : Nat) : List MEntry :=
  ((q.load.map (·.entry)).toList ++ q.queue.filter (·.isLoad)).filter fun e => decide (e.no < no)

/-- R277: does a reader wait for an earlier drain's output? -/
def Seqr.waitsForDrain (q : Seqr) (e : MEntry) : Bool :=
  (q.earlierDrains e.no).any fun d => setsMeet e.sheets d.sheets
/-- R277: does a drain wait for an earlier pass or load that still reads its output sheets? -/
def Seqr.waitsForReader (q : Seqr) (e : MEntry) : Bool :=
  (q.earlierReading e.no ++ q.earlierLoads e.no).any fun r => setsMeet e.sheets r.sheets

/-- One sequencer instruction completes with its status and record. -/
def State.completeM (s : State) (t : Nat) (e : MEntry) (code count : Nat) (f : StFlags) (words : List Nat) : State :=
  s.complete (mkCore t e.core) unitSeq e.seq e.stamp code count f words

/-! ### Reading elements -/

/-- The words that hold the bits `[lo, lo + n)` counted from the start of the scratchpad. -/
def wordsOfBits (lo n : Nat) : List Nat := if n = 0 then [] else (upto (lo / 256) ((lo + n - 1) / 256 + 1 - lo / 256)).map (· % 2 ^ 18)

/-- Bits as read from words gathered in `ws`. -/
def bitsFrom (ws : List (Nat × SpdRead)) (lo n : Nat) : Nat :=
  let get := fun w => ofBytes ((ws.find? fun e => e.1 == w).elim [] fun e => e.2.bytes)
  let w0 := lo / 256
  let all := get (w0 % 2 ^ 18) + get ((w0 + 1) % 2 ^ 18) * 2 ^ 256
  fld all (lo % 256) n

/-- Whether any of the words that hold those bits carries a mark. -/
def poisonFrom (ws : List (Nat × SpdRead)) (lo n : Nat) : Bool :=
  (wordsOfBits lo n).any fun w => ws.any fun e => e.1 == w && e.2.poison

/-- Reads each word once. -/
def State.gather (s : State) (t : Nat) (who : Requester) (words : List Nat) : List (Nat × SpdRead) × State :=
  let ws := words.foldl setIns []
  let (rs, s) := s.spdReads t who ws
  (ws.zip rs, s)

end Sys2Proof.Machine
end

