-- ==== Sys2Proof/Machine/Arrays.lean ====
section
/-! DEFINITION. The arrays' ticks: cells, accumulator writes, completion, the feeder, the loader and the drain (R51-R91, R130-R135). -/
namespace Sys2Proof.Machine

/-! ### ARRAY_TICK: upsets, cells, accumulator writes -/

/-- A bit error enters a protected cell. -/
def State.plant (s : State) (t : Nat) : Upset → State
  | .spdWord w n => s.modSpd t fun d => { d with upset := tput d.upset w (tget d.upset w + n) }
  | .privUnit k u n =>
    let c := mkCore t k
    s.modCore c fun c => { c with privUpset := tput c.privUpset u (tget c.privUpset u + n) }
  | .slotBit a k r j b => s.modArr t fun A => A.modSlot a k fun x =>
      let c := x.cell r j
      { x with rows := tmod x.rows r (·.setCell j { c with w := c.w ^^^ 2 ^ (b % 24), bad := !c.bad }) }
  | .accEntry a r j ue => s.modArr t fun A => { A with ecc := tput A.ecc (entryKey a r j) (if ue then .ue else .ce) }

/-- Does the wave belong to a BF16 exact pass (R108)? -/
def Wave.wide (w : Wave) : Bool := w.exact && w.afmt == 0

/-- The arrays whose cells form the wave's sums: one set of sums where the four arrays work as one. -/
def Wave.sumArrays (w : Wave) : List Nat := if w.wide then (maskArrays w.mask).take 1 else maskArrays w.mask

/-- Key of a partial sum. -/
def sumKey (a j l : Nat) : Nat := (a * 64 + j) * 4 + l

/-- The weight bits, index and scale that lane `l` of a cell gives a pass of these formats (R123). -/
def Arrays.weight (A : Arrays) (w : Wave) (a k j l : Nat) : Nat × Nat × Nat :=
  let x := A.slot a w.slot
  let c := x.cell k j
  let wd := fmtWidth w.wfmt
  let unlike := w.wide && w.mask == 15 && (upto 1 3).any fun b => (A.slot b w.slot).cell k j != c
  let bits := if unlike then Config.unlikeBlocks (k * 64 + j) % 2 ^ 16 else fld c.w (wd * l) wd
  let sc := if fmtMX w.wfmt then ((tget x.rows k).scales.getD (64 * l + j) none).getD (Config.unheldScale (k * 256 + 64 * l + j) % 256) else 127
  (bits, fld c.idx (2 * l) 2, sc)

/-- One cell's work for one lane: the exact product added to the sum passing through (R55, R98, R99). -/
def Arrays.cellStep (A : Arrays) (w : Wave) (a k j l : Nat) (x : Sum) : Sum × XFlags :=
  let (wb, ix, ws) := A.weight w a k j l
  let e := w.elems.getD (if w.spars = 1 then k else 4 * (k * w.spars / 4) + ix) {}
  if !e.live then (x, {})
  else
    let (p, g) := FV.mul (scaled (decodeElem w.afmt e.bits) e.scale) (scaled (decodeElem w.wfmt wb) ws)
    if w.exact then addExact w.wide (tget w.anchors (a * 4 + l)) x p g.nv
    else let (f, h) := addNormal x.f p g.nv; ({ x with f := f }, h)

/-- The cells (row, column) a wave meets at its age: one diagonal, or one cell of it in diagonal mode (R60, R79). -/
def Wave.cells (w : Wave) : List (Nat × Nat) :=
  if w.diag then (if w.age % 2 = 0 ∧ w.age / 2 < 64 then [(w.age / 2, w.age / 2)] else [])
  else ((upto 0 64).filter fun k => decide (k ≤ w.age) && decide (w.age - k < 64)).map fun k => (k, w.age - k)

/-- Is the element that enters row `k` live in any of its places? -/
def Wave.rowLive (w : Wave) (k : Nat) : Bool :=
  if w.spars = 1 then (w.elems.getD k {}).live
  else (upto (4 * (k * w.spars / 4)) 4).any fun i => (w.elems.getD i {}).live

/-- Flags of one array into ARR_XSTAT and into the pass (R119, R255). -/
def State.xflag (s : State) (t pass a : Nat) (x : XFlags) : State :=
  s.modTile t fun T =>
    let T := T.orReg 0x807 (b01 x.of * 2 ^ (12 + a) + b01 x.nv * 2 ^ (8 + a) + b01 x.xlo * 2 ^ (4 + a) + b01 x.xhi * 2 ^ a)
    { T with seqr := { T.seqr with passes := T.seqr.passes.map fun p => if p.entry.no = pass then { p with x := p.x.or x } else p } }

/-- A valid element reads a slot whose parity is wrong (R75, R82). -/
def State.parityMet (s : State) (t : Nat) (w : Wave) (a k j : Nat) : State :=
  let A := (s.tile t).arr
  let col := A.physCol a j
  let raised := (s.tile t).seqr.passes.any fun p => p.entry.no == w.pass && p.raised1001.contains a
  let s := s.modTile t fun T =>
    let T := (T.orReg 0x801 (2 ^ a)).setField 0x801 26 6 col
    let T := T.setField 0x801 24 2 a
    { T with seqr := { T.seqr with passes := T.seqr.passes.map fun p =>
        if p.entry.no = w.pass then { p with raised1001 := setIns p.raised1001 a, poisoned := setIns p.poisoned a } else p } }
  let s := if raised then s else s.tileEvent t 0x1001 a [w.row, w.row + w.lanes - 1]
  let _ := k
  s.noteParity t a col (A.slot a w.slot).loadNo

/-- The cells of one wave on one tick. -/
def State.waveCells (s : State) (t : Nat) (w : Wave) : State × Wave :=
  w.cells.foldl (fun (acc : State × Wave) kj =>
    let (s, w) := acc
    let (k, j) := kj
    if !w.rowLive k then (s, w) else
    let A := (s.tile t).arr
    let (s, w) := (maskArrays w.mask).foldl (fun (acc : State × Wave) a =>
      if ((A.slot a w.slot).cell k j).bad then (acc.1.parityMet t acc.2 a k j, { acc.2 with badCols := setIns acc.2.badCols (a * 64 + j) }) else acc) (s, w)
    w.sumArrays.foldl (fun (acc : State × Wave) a =>
      (upto 0 w.lanes).foldl (fun (acc : State × Wave) l =>
        let (x, g) := A.cellStep acc.2 a k j l (tget acc.2.sums (sumKey a j l))
        let s := if g = {} then acc.1 else acc.1.xflag t w.pass (if w.wide then 0 else a) g
        (s, { acc.2 with sums := tput acc.2.sums (sumKey a j l) x })) acc) (s, w)) (s, w)

/-- Sets or clears the poison bit of a storage row. -/
def State.rowPoison (s : State) (t a row : Nat) (b : Bool) : State := s.modArr t fun A => { A with rowPoison := setPut A.rowPoison (a * 512 + row) b }
def State.putEntry (s : State) (t a row j : Nat) (half : Bool) (v : AccVal) : State :=
  s.modArr t fun A => { A with acc := tput A.acc (entryKey a row j) ⟨A.gen half, v⟩ }
/-- Notes that a pass has left a poisoned storage row in an array (word B of R262). -/
def State.notePoison (s : State) (t pass a : Nat) : State :=
  s.modSeqr t fun q => { q with passes := q.passes.map fun p => if p.entry.no = pass then { p with poisoned := setIns p.poisoned a } else p }

/-- One column's sum of one lane is written to its accumulator entry (R73, R74, R101, R104, R107, R110). -/
def State.writeLane (s : State) (t : Nat) (w : Wave) (a l j : Nat) : State :=
  let row := rowKey w.exact (w.row + l)
  let half := rowHalf w.exact (w.row + l)
  let banks := if w.wide then upto 0 4 else [a]
  let s := if w.set then s.modArr t fun A => A.setMode half (passMode w.exact w.afmt) else s
  -- the first column of a SET clears the row's poison bit and gives it its anchor
  let s := if w.set && j == 0 then banks.foldl (fun s b =>
             (s.rowPoison t b row false).modArr t fun A => { A with anchorTag := tput A.anchorTag (b * 512 + row) (tget w.anchors (b * 4 + l)) }) s else s
  let s := if w.set then s.modArr t fun A => { A with ecc := banks.foldl (fun e b => tput e (entryKey b row j) .ok) A.ecc }
           else banks.foldl (fun s b => s.accCheck t b row j) s
  let bad := w.poison || w.badCols.contains (a * 64 + j)
  let s := if bad then banks.foldl (fun s b => if bit w.mask b then (s.rowPoison t b row true).notePoison t w.pass b else s) s else s
  let s := if !w.set && banks.any (fun b => (s.tile t).arr.rowPoison.contains (b * 512 + row)) then s.notePoison t w.pass a else s
  let home := if w.wide then 0 else a
  let x := tget w.sums (sumKey a j l)
  let old := (s.tile t).arr.entry w.exact (entryKey home row j) half
  if w.exact then
    let (y, g) := if w.set then ({ x with f := 0 }, {}) else combineExact w.wide old x
    let partial_ := w.wide && w.mask != 15
    let y := if partial_ then { y with sp := .nan } else y
    let g : XFlags := if partial_ then { g with nv := true } else g
    let s := if g = {} then s else s.xflag t w.pass home g
    s.putEntry t home row j half (.exact y)
  else if w.set then s.putEntry t a row j half (.fp x.f)
  else
    let (r, h) := fp32.add .nearestEven old.f x.f
    let g : XFlags := { of := h.of, nv := h.nv }
    let s := if g = {} then s else s.xflag t w.pass a g
    s.putEntry t a row j half (.fp r)

/-- The column that a wave writes at its age. -/
def State.waveWrite (s : State) (t : Nat) (w : Wave) : State :=
  if w.age < 64 then s
  else w.sumArrays.foldl (fun s a => (upto 0 w.lanes).foldl (fun s l => s.writeLane t w a l (w.age - 64)) s) s

/-- One tick of one wave. -/
def State.waveTick (s : State) (t : Nat) (w : Wave) : State × Wave :=
  if !w.valid then (s, { w with age := w.age + 1 })
  else
    let s := s.waveWrite t w
    let (s, w) := s.waveCells t w
    (s, { w with age := w.age + 1 })

/-- Every wave advances one tick, oldest first; a wave leaves after its last column (R60, R61). -/
def State.waveTicks (s : State) (t : Nat) : List Wave → State × List Wave
  | [] => (s, [])
  | w :: ws =>
    let (s, w) := s.waveTick t w
    let (s, ws) := s.waveTicks t ws
    (s, if w.age < 128 then w :: ws else ws)

/-! ### Passes complete -/

/-- Has the pass finished: nothing left to enter, and its last valid vector written, or its last element gone (R59)? -/
def Seqr.passFinished (waves : List Wave) (p : PassRun) : Bool :=
  p.done && !(waves.any fun w => w.pass == p.entry.no && (p.entered == 0 || w.valid))

/-- What a pass's completion leaves: the index table of a COMPACT or other SET pass, poisoned rows of a failed link, the
count of passes, and the status (R133, R134, R262, R276). -/
def State.finishPass (s : State) (t : Nat) (p : PassRun) : State :=
  let e := p.entry
  let w := e.pword
  let d := Desc.ofNat e.desc
  let exact := w.exact
  let c := (pairRate d.fmt w.wfmt).getD 1
  match e.op with
  | .skippedPass => (s.modSeqr t fun q => { q with passes := q.passes.filter fun x => x.entry.no != e.no }).summarise (mkCore t e.core) true 0 0 e.stamp
  | _ =>
    let s := if p.linkFail then
        let s := (maskArrays w.arrays).foldl (fun s a => (upto 0 w.rowCount).foldl (fun s m => (upto 0 c).foldl (fun s l =>
          s.rowPoison t a (rowKey exact (storageRow exact c w.target (w.rowBase + m) l)) true) s) s) s
        s.tileEvent t 0x1301 0xFFFF [w.rowBase, w.rowCount]
      else s
    let compact := d.vdrop == 2
    let scanned := if p.full then p.next else w.n
    let s := if w.arrays = 0 then s
      else if compact then (targetHalves w.target).foldl (fun s b => s.modArr t fun A =>
        A.setIdx b { A.idx b with valid := true, kept := p.kept, scanned := scanned }) s
      else if w.add then s
      else (targetHalves w.target).foldl (fun s b => s.modArr t fun A => A.setIdx b { A.idx b with valid := false }) s
    let s := s.modTile t fun T => { T with
      arr := { T.arr with passes := (T.arr.passes + 1) % 2 ^ 64 },
      seqr := { T.seqr with passes := T.seqr.passes.filter fun x => x.entry.no != e.no } }
    let count := if compact then (if p.full then p.next else p.kept) else p.entered
    let rows := if p.linkFail then maskArrays w.arrays else p.poisoned
    s.completeM t e (if p.linkFail then 0x24 else 0) count
      { x := p.x, rerun := p.rerun, full := p.full, poisoned := !rows.isEmpty }
      [p.bubbles + 2 ^ 32 * p.dropped, rows.foldl (fun n a => n + 2 ^ a) 0]

/-- Passes complete in issue order. -/
def State.finishPasses (s : State) (t : Nat) : Nat → State
  | 0 => s
  | n + 1 =>
    let T := s.tile t
    match T.seqr.passes with
    | p :: _ => if Seqr.passFinished T.arr.waves p then (s.finishPass t p).finishPasses t n else s
    | [] => s

/-! ### Loads -/

/-- Bytes of array data, scales and indices per tile row, over the arrays loaded (R65, R108, R126). -/
def loadB (w : LWord) (d : Desc) : Nat :=
  let per := 8 * w.lanes * d.width + (if d.hasIdx then 16 * w.lanes else 0) + (if d.hasScale then 2 * d.s * w.lanes else 0)
  per * (if w.shared then 1 else (maskArrays w.arrays).length)
/-- f(r) of R65. -/
def loadF (b r : Nat) : Nat := max r (cdiv ((r + 1) * b) 256 - 1)
/-- g of R80. -/
def diagG (w : LWord) (d : Desc) : Nat :=
  cdiv ((cdiv (64 * w.lanes * d.width) 8 + (if d.hasScale then 64 * w.lanes else 0)) * (if w.shared then 1 else (maskArrays w.arrays).length)) 256
/-- Ticks that reading one transposed band takes (R166). -/
def bandTicks (w : LWord) (d : Desc) : Nat := cdiv (32 * loadB w d) 256

/-- Earlier passes that use a slot of the load's arrays and have not left it: none may be waiting to enter; the last
entry tick of those that have (R66, R70). -/
def Seqr.slotUsers (q : Seqr) (e : MEntry) : List PassRun × Bool :=
  let w := e.lword
  let uses := fun (p : MEntry) => decide (p.no < e.no) && p.pword.slot == w.slot && (p.pword.arrays &&& w.arrays) != 0
  (q.passes.filter fun p => uses p.entry, q.queue.any fun p => p.isPass && uses p)

/-- The next load starts when the loader is free and nothing holds it: its W (R66, R70, R80, R166, R277). -/
def Tile.loadStart (T : Tile) (e : MEntry) : Option Nat :=
  let q := T.seqr
  let w := e.lword
  let d := Desc.ofNat e.desc
  let (runs, queued) := q.slotUsers e
  if queued || (runs.any fun p => !p.done) || q.waitsForDrain e then none
  else
    let after := runs.foldl (fun m p => match p.lastE with | some x => max m (x + (if w.diag then 1 else 64)) | none => m) 0
    let band := if d.transposed then max (q.loadEnd + 1) e.at_ + bandTicks w d else 0
    if after ≤ T.arr.tick ∧ band ≤ T.arr.tick then some T.arr.tick else none

/-- Starts the next load where it may start; a load of no arrays was skipped at issue. -/
def State.startLoad (s : State) (t : Nat) : State :=
  let T := s.tile t
  if T.seqr.load.isSome || T.preempting then s
  else match T.seqr.queue.find? (·.isLoad) with
    | none => s
    | some e =>
      match T.loadStart e with
      | none => s
      | some w0 =>
        let eLast := (T.seqr.slotUsers e).1.foldl (fun m p => match p.lastE, m with
          | some x, some y => some (max x y) | some x, none => some x | none, m => m) none
        s.modSeqr t fun q => { q with queue := q.queue.filter fun x => x.no != e.no, load := some { entry := e, start := w0, eLast := eLast } }

/-- On each region tick every element and sum advances; sums that leave row 63 are written; passes complete; the loader
may begin its next block. -/
def State.arrayTick (s : State) (t : Nat) : State :=
  let (s, ws) := s.waveTicks t (s.tile t).arr.waves
  let s := s.modArr t fun A => { A with waves := ws, tick := A.tick + 1 }
  let s := s.finishPasses t (s.tile t).seqr.passes.length
  s.startLoad t

/-- COLUMN_BYPASS_APPLY (R82): once the owning job is suspended the pending bypass takes effect. Slots and entries are
held in working-column order and keep their contents (R83). -/
def execColumnBypassApply (t : TileIx) (array : Fin 4) (column : Fin 65) (s : State) : Res :=
  let key := array.val * 65 + column.val
  let job := s.job (s.tileJob t)
  if (s.tile t).arr.pendingBypass.contains key && (s.tag t == 0 || !job.live || job.state == .suspended) then
    .next (s.modArr t fun A => { A with pendingBypass := setDel A.pendingBypass key, bypass := tput A.bypass array.val (column.val + 1) })
  else .next s

/-! ### The index table (R134, R135) -/

/-- Output rows that the drain reads (R135, R273). -/
def Arrays.drainRows (A : Arrays) (w : DWordM) : Nat :=
  if w.scatter then (A.idx (w.target == 1)).kept else w.rowCount

/-- Entry `m` of the index table of a target; WHOLE uses both tables as one of 512 entries (R134). -/
def Arrays.idxEntry (A : Arrays) (target m : Nat) : Nat :=
  if target = 1 then tget A.idxB.entries (m % 256)
  else if target = 2 ∧ m ≥ 256 then tget A.idxB.entries (m - 256) else tget A.idxA.entries (m % 256)

/-! ### The feeder -/

/-- Places of vector `v` of a pass: bit place of its elements, and byte place of its scales (R94, R271). -/
def vectorPlace (d : Desc) (v : Nat) : Nat × Nat :=
  let p := v / d.rows
  let i := v % d.rows
  (d.elemBit p i 0, d.scaleStart false p + i * cdiv d.cols 32)

/-- The words vector `v` takes. -/
def vectorWords (d : Desc) (v : Nat) : List Nat :=
  let (lo, sc) := vectorPlace d v
  wordsOfBits lo (d.width * d.cols) ++ (if d.hasScale then wordsOfBits (8 * sc) (8 * cdiv d.cols 32) else [])

/-- The element row that vector `v` makes, from the words read (R94, R120, R130). -/
def vectorElems (d : Desc) (v : Nat) (ws : List (Nat × SpdRead)) : List Elem :=
  let (lo, sc) := vectorPlace d v
  let raw := (upto 0 d.cols).map fun k =>
    let scale := if d.hasScale then bitsFrom ws (8 * (sc + k / 32)) 8 else 127
    ({ bits := bitsFrom ws (lo + d.width * k) d.width, scale := scale, live := true } : Elem)
  raw

/-- Zero under R120. -/
def Elem.zero (fmt : Nat) (e : Elem) : Bool := elemZero fmt e.bits e.scale

/-- Groups of 16 elements that are all zero (R130). -/
def zeroGroups (fmt : Nat) (es : List Elem) : List Nat :=
  (upto 0 (es.length / 16)).filter fun g => ((es.drop (16 * g)).take 16).all (·.zero fmt)

/-- The anchor that a write to a storage row of an array will meet: of a SET still inside the arrays, else the row's tag (R104). -/
def Arrays.anchorAt (A : Arrays) (a row : Nat) : Int :=
  match (A.waves.reverse.find? fun w => w.valid && w.set && w.exact && bit w.mask a && decide (w.row ≤ row) && decide (row < w.row + w.lanes)) with
  | some w => tget w.anchors (a * 4 + (row - w.row))
  | none => tget A.anchorTag (a * 512 + rowKey true row)

/-- Why the next vector of a pass may not enter on this tick, besides its data (R62, R67, R70, R78, R80, R277). -/
def Tile.feederHeld (T : Tile) (e : MEntry) : Bool :=
  let q := T.seqr
  let w := e.pword
  let loads := q.earlierLoads e.no
  let mine := loads.filter fun l => l.lword.slot == w.slot && (l.lword.arrays &&& w.arrays) != 0
  let slotWait := mine.any fun l =>
    match q.load with
    | some r =>
      if r.entry.no ≠ l.no then true
      else
        let d := Desc.ofNat l.desc
        if l.lword.diag then decide (T.arr.tick < r.start + diagG l.lword d)
        else decide (T.arr.tick + 63 < r.start + r.delay + loadF (loadB l.lword d) 63 + 1)
    | none => true
  let drainWait := (q.earlierDrains e.no).any fun d => targetsMeet d.dword.target w.target &&
    (match q.drain with | some r => r.entry.no != d.no || !(decide (r.row ≥ T.arr.drainRows d.dword)) | none => true)
  slotWait || drainWait || q.waitsForDrain e

/-- Is vector `v` of a pass ready by its link, and has the link failed (R276)? -/
def Tile.linkReady (T : Tile) (ch no v : Nat) : Bool × Bool :=
  if no = 0 then (true, false)
  else match (tget T.chans ch).links.find? fun l => l.no == no with
    | none => (true, false)
    | some l =>
      if decide (v < l.mark) then (true, false)
      else match l.code with
        | some 0 => (true, false)
        | some _ => (false, true)
        | none => (false, false)

/-- Number of the transfer that a pass is linked to. -/
def MEntry.link (e : MEntry) : Nat := match e.op with | .pass p => p.link | _ => 0

/-- The next pass in order becomes the one whose vectors enter, and leaves the queue (R251, R59). -/
def State.takePass (s : State) (t : Nat) : State :=
  let q := (s.tile t).seqr
  if (s.tile t).preempting then s
  else match q.queue.find? (·.isPass) with
    | none => s
    | some e =>
      let none_ := (match e.op with | .skippedPass => true | _ => false) || e.pword.arrays == 0
      s.modSeqr t fun q => { q with queue := q.queue.filter fun x => x.no != e.no, passes := q.passes ++ [{ entry := e, done := none_ }] }

/-- Changes the pass under way. -/
def State.modPass (s : State) (t no : Nat) (f : PassRun → PassRun) : State :=
  s.modSeqr t fun q => { q with passes := q.passes.map fun p => if p.entry.no = no then f p else p }

/-- A bubble enters (R62, R63); it is counted while a pass is queued (R90). -/
def State.bubble (s : State) (t no : Nat) (counted : Bool) : State :=
  let s := s.modArr t fun A => { A with waves := A.waves ++ [{ pass := no }], bubbles := if counted then (A.bubbles + 1) % 2 ^ 64 else A.bubbles }
  s.modPass t no fun p => { p with bubbles := p.bubbles + 1 }

/-- Detect-only mode found an error in a sequencer read: the read is repeated, until RERUN_MAX repeats; then the words
are marked and the data delivered with the mark (R181, R295). Answers whether to deliver. -/
def State.rerunLimit (s : State) (t : Nat) (who : Requester) (reruns : Nat) (ws : List (Nat × SpdRead)) : Bool × State :=
  if !(ws.any fun e => e.2.again) then (true, s)
  else if reruns < (s.tile t).rerunMax then
    (false, s.modTile t fun T => T.setReg 0x811 (min (T.reg 0x811 + 1) (2 ^ 32 - 1)))
  else
    (true, (ws.filter fun e => e.2.again).foldl (fun s e =>
      ((s.mark (spdKey t (32 * e.1)) true).spdErr t e.1 4 who 0x08).spdEvent t 0x2005 e.1 4 who) s)

/-- Reads and examines the next vector of a pass: entered into the skid buffer, or dropped (R130-R133). Answers false
where the read must wait. -/
def State.scanVector (s : State) (t : Nat) (p : PassRun) : Bool × State :=
  let e := p.entry
  let w := e.pword
  let d := Desc.ofNat e.desc
  let v := p.next
  let words := vectorWords d v
  if words.any (s.tile t).spdBlocked then (false, s)
  else
    let (ws, s) := s.gather t .feeder words
    let (deliver, s) := s.rerunLimit t .feeder p.reruns ws
    if !deliver then (false, s.modPass t e.no fun p => { p with rerun := true, reruns := p.reruns + 1 })
    else
      let poison := ws.any fun x => x.2.poison || x.2.again
      let es := vectorElems d v ws
      let zero := !poison && es.all (·.zero d.fmt)
      let compact := d.vdrop == 2
      let drop := zero && (compact || (d.vdrop == 1 && (decide (v ≥ w.rowCount) || w.add)))
      let s := s.modPass t e.no fun p => { p with next := v + 1, reruns := 0 }
      if drop then
        let s := s.modArr t fun A => { A with dropVec := (A.dropVec + 1) % 2 ^ 64 }
        (true, s.modPass t e.no fun p => { p with dropped := p.dropped + 1 })
      else if compact && decide (p.kept ≥ w.rowCount) then
        -- a further nonzero vector remains: the pass ends FULL
        (true, s.modPass t e.no fun p => { p with next := v, full := true })
      else
        let m := if compact then w.rowBase + p.kept else w.rowBase + v % w.rowCount
        let c := (pairRate d.fmt w.wfmt).getD 1
        let groups := if d.gdrop && !poison then zeroGroups d.fmt es else []
        let es := if groups.isEmpty then es else ((upto 0 es.length).zip es).map fun ke => if groups.contains (ke.1 / 16) then { ke.2 with live := false } else ke.2
        let row := storageRow w.exact c w.target m 0
        let set := !w.add && (compact || decide (v < w.rowCount))
        let wave : Wave := {
          valid := true, pass := e.no, slot := w.slot, mask := w.arrays, lanes := c, spars := w.spars, afmt := d.fmt,
          wfmt := w.wfmt, exact := w.exact, diag := w.diag, elems := es, row := row, set := set, poison := poison }
        let s := s.modArr t fun A => { A with dropGrp := (A.dropGrp + groups.length) % 2 ^ 64 }
        let s := if compact then
            let half := w.target == 1 || (w.target == 2 && decide (p.kept ≥ 256))
            s.modArr t fun A => A.setIdx half { A.idx half with entries := tput (A.idx half).entries (p.kept % 256) v }
          else s
        (true, s.modPass t e.no fun p => { p with kept := p.kept + 1, skid := p.skid ++ [wave] })

/-- The oldest vector in the skid buffer enters row 0 on this tick. -/
def State.enterVector (s : State) (t : Nat) (p : PassRun) (w : Wave) (rest : List Wave) : State :=
  let A := (s.tile t).arr
  let pw := p.entry.pword
  let anchor : Int := match p.entry.op with | .pass x => x.anchor | _ => 0
  let anchors := if !w.exact then [] else (maskArrays w.mask).foldl (fun tb a => (upto 0 w.lanes).foldl (fun tb l =>
    tput tb (a * 4 + l) (if w.set then anchor else A.anchorAt a (w.row + l))) tb) []
  let first := p.entered == 0
  let ep := if first then !A.epoch else A.epoch
  let s := s.modArr t fun A => { A with epoch := ep, waves := A.waves ++ [{ w with epoch := ep, anchors := anchors }] }
  let _ := pw
  s.modPass t p.entry.no fun p => { p with skid := rest, entered := p.entered + 1, lastE := some A.tick }

/-- Does the pass have nothing more to enter? -/
def PassRun.exhausted (p : PassRun) : Bool := p.skid.isEmpty && (p.full || p.linkFail || decide (p.next ≥ p.entry.pword.n))

/-- One feeder tick of the pass whose vectors enter. -/
def State.feedPass (s : State) (t : Nat) (p : PassRun) (granted : Bool) : State :=
  let T := s.tile t
  let e := p.entry
  let w := e.pword
  let no := e.no
  let (ready, failed) := if w.linked then T.linkReady w.link e.link p.next else (true, false)
  if failed then
    let s := s.modPass t no fun p => { p with linkFail := true }
    match p.skid with
    | x :: rest => if T.feederHeld e then s.bubble t no true else s.enterVector t p x rest
    | [] => (s.bubble t no true).modPass t no fun p => { p with done := true }
  -- a vector read ahead needs no grant
  else if T.feederHeld e || (!granted && p.skid.isEmpty) then s.bubble t no true
  else if !ready && p.skid.isEmpty then (s.bubble t no true).modPass t no fun p => { p with linkWait := p.linkWait + 1 }
  else
    let d := Desc.ofNat e.desc
    let reads := if !granted then 0 else if d.vdrop = 0 then 1 else 2
    let s := (upto 0 reads).foldl (fun (s : State) _ =>
      match (s.tile t).seqr.passes.find? fun x => x.entry.no == no with
      | some x =>
        let ok := if w.linked then ((s.tile t).linkReady w.link e.link x.next).1 else true
        if ok && !x.full && decide (x.next < w.n) && decide (x.skid.length < 4) then (s.scanVector t x).2 else s
      | none => s) s
    match (s.tile t).seqr.passes.find? fun x => x.entry.no == no with
    | none => s
    | some x =>
      let s := match x.skid with
        | y :: rest => s.enterVector t x y rest
        | [] => s.bubble t no true
      s.modPass t no fun p => { p with done := p.exhausted, linkWait := 0 }

/-- FEEDER_ENTRY (R62): one vector or one bubble enters the arrays. -/
def execFeederEntry (t : TileIx) (granted : Bool) (s : State) : Res :=
  if !s.ticking t then .next s
  else
    let entering := fun (s : State) => (s.tile t).seqr.passes.find? fun p => !p.done && !(p.split && (s.tile t).preempting)
    let s := if (entering s).isNone then s.takePass t else s
    match entering s with
    | none => .next (s.bubble t 0 false)
    | some p => .next (s.feedPass t p granted)

/-! ### The loader -/

/-- Bit place of stored weight (r, n) of plane p; a transposed surface holds the block with its axes swapped (R124, R166). -/
def weightBit (d : Desc) (p r n : Nat) : Nat :=
  if d.transposed then
    8 * (d.base + p * d.planePitch) + (if d.rowPitch = 0 then d.width * (n * 64 + r) else 8 * (n * d.rowPitch) + d.width * r)
  else d.elemBit p r n

/-- The words of row `r` of one plane: weights, indices and scales (R94, R124). -/
def loadRowWords (w : LWord) (d : Desc) (p r : Nat) : List Nat :=
  let n := 64 * w.lanes
  let data := if d.transposed then (upto 0 n).flatMap fun k => wordsOfBits (weightBit d p r k) d.width
              else wordsOfBits (weightBit d p r 0) (d.width * n)
  let idx := if d.hasIdx then wordsOfBits (8 * d.idxStart p + 2 * n * r) (2 * n) else []
  let b := 4 * (r * d.s / 4) / 32
  let sc := if d.hasScale then wordsOfBits (8 * (d.scaleStart false p + n * b)) (8 * n) else []
  data ++ idx ++ sc

/-- The row that a load writes into one array (R123, R124, R179). -/
def loadRow (w : LWord) (d : Desc) (p r : Nat) (ws : List (Nat × SpdRead)) : SRow :=
  let n := 64 * w.lanes
  let b := 4 * (r * d.s / 4) / 32
  let cell := fun j => (upto 0 w.lanes).foldl (fun (c : Cell) l =>
    let k := 64 * l + j
    let lo := weightBit d p r k
    let il := 8 * d.idxStart p + 2 * (n * r + k)
    { w := c.w + bitsFrom ws lo d.width * 2 ^ (d.width * l),
      idx := c.idx + (if d.hasIdx then bitsFrom ws il 2 * 2 ^ (2 * l) else 0),
      bad := c.bad || poisonFrom ws lo d.width || (d.hasIdx && poisonFrom ws il 2) }) {}
  let scale := fun k => if d.hasScale then some (bitsFrom ws (8 * (d.scaleStart false p + n * b + k)) 8) else none
  { cells := (upto 0 64).map cell, scales := if d.hasScale then (upto 0 n).map scale else [] }

/-- The words of a diagonal plane (R79, R267). -/
def diagWords (w : LWord) (d : Desc) (p : Nat) : List Nat :=
  wordsOfBits (d.elemBit p 0 0) (d.width * 64 * w.lanes) ++ (if d.hasScale then wordsOfBits (8 * d.scaleStart true p) (8 * 64 * w.lanes) else [])

/-- Cell (k, k) of a diagonal load, and the scales of its lanes. -/
def diagCell (w : LWord) (d : Desc) (p k : Nat) (ws : List (Nat × SpdRead)) : Cell × List (Nat × Nat) :=
  let lanes := upto 0 w.lanes
  (lanes.foldl (fun (c : Cell) l =>
      let lo := d.elemBit p 0 (64 * l + k)
      { c with w := c.w + bitsFrom ws lo d.width * 2 ^ (d.width * l), bad := c.bad || poisonFrom ws lo d.width }) {},
   if d.hasScale then lanes.map fun l => (64 * l + k, bitsFrom ws (8 * (d.scaleStart true p + 64 * l + k)) 8) else [])

/-- The plane each loaded array takes (R267). -/
def loadPlanes (w : LWord) : List (Nat × Nat) :=
  let as_ := maskArrays w.arrays
  as_.zip (if w.shared then as_.map fun _ => 0 else upto 0 as_.length)

/-- The load completes: the slots' block identities and the status (R70, R262, R269). -/
def State.finishLoad (s : State) (t : Nat) (r : LoadRun) (rows : Nat) : State :=
  let w := r.entry.lword
  let s := s.modArr t fun A => (maskArrays w.arrays).foldl (fun A a =>
    A.modSlot a w.slot fun x => { x with block := some ⟨r.entry.core, r.entry.seq⟩, loadNo := r.entry.no }) A
  let s := s.modSeqr t fun q => { q with load := none, loadEnd := (s.tile t).arr.tick }
  s.completeM t r.entry 0 rows { rerun := r.rerun, poisoned := r.poisoned } []

/-- LOADER_COMMIT (R65, R80, R166): the next tile row, or the diagonal cells due, is committed. It stands after the
tick's ARRAY_TICK, so elements of that tick met the old values. -/
def execLoaderCommit (t : TileIx) (s : State) : Res :=
  match (s.tile t).seqr.load with
  | none => .next s
  | some r =>
    let T := s.tile t
    let w := r.entry.lword
    let d := Desc.ofNat r.entry.desc
    let now := T.arr.tick - 1
    let planes := loadPlanes w
    if !s.ticking t || decide (T.arr.tick ≤ r.start) then .next s
    else
      let due := if w.diag then max (r.start + diagG w d - 1) ((r.eLast.map fun e => e + 2 * r.rows).getD 0)
                 else r.start + loadF (loadB w d) r.rows + r.delay
      let words := planes.flatMap fun ap => if w.diag then diagWords w d ap.2 else loadRowWords w d ap.2 r.rows
      if now < due ∨ words.any T.spdBlocked then .next s
      else
        let (ws, s) := s.gather t .loader words
        let (deliver, s) := s.rerunLimit t .loader r.reruns ws
        if !deliver then
          .next (s.modSeqr t fun q => { q with load := q.load.map fun r => { r with rerun := true, reruns := r.reruns + 1 } })
        else
          let ws := ws.map fun e => (e.1, { e.2 with poison := e.2.poison || e.2.again })
          let bad := ws.any fun e => e.2.poison
          if w.diag then
            let ks := (upto r.rows (64 - r.rows)).filter fun k => decide (max (r.start + diagG w d - 1) ((r.eLast.map fun e => e + 2 * k).getD 0) ≤ now)
            let s := s.modArr t fun A => planes.foldl (fun A ap => A.modSlot ap.1 w.slot fun x =>
              { x with rows := ks.foldl (fun rows k =>
                  let (c, sc) := diagCell w d ap.2 k ws
                  tmod rows k fun row =>
                    let row := row.setCell k c
                    { row with scales := (upto 0 (64 * w.lanes)).map fun n => match sc.find? fun e => e.1 == n with
                        | some e => some e.2 | none => row.scales.getD n none }) x.rows }) A
            let r' : LoadRun := { r with rows := r.rows + ks.length, reruns := 0, poisoned := r.poisoned || bad }
            if r'.rows ≥ 64 then .next (s.finishLoad t r' 1)
            else .next (s.modSeqr t fun q => { q with load := some r' })
          else
            let s := s.modArr t fun A => planes.foldl (fun A ap => A.modSlot ap.1 w.slot fun x =>
              { x with rows := tput x.rows r.rows (loadRow w d ap.2 r.rows ws) }) A
            let r' : LoadRun := { r with rows := r.rows + 1, delay := r.delay + (now - due), reruns := 0, poisoned := r.poisoned || bad }
            if r'.rows ≥ 64 then .next (s.finishLoad t r' 64)
            else .next (s.modSeqr t fun q => { q with load := some r' })

/-! ### The drain -/

/-- Writes of one converted group of elements: element `k0 + i` of surface row `row` takes value `vals[i]`. -/
def drainWrites (d : Desc) (row k0 : Nat) (vals : List Nat) (poison : Bool) : List SpdWrite :=
  let p := row / d.rows
  let i := row % d.rows
  [{ off := d.elemBit p i k0 / 8, bytes := vals.flatMap fun v => toBytes v (d.width / 8), poison := poison }]

/-- One drained run of bytes reaches scratchpad word by word (R76, R77): a word written in part is merged. -/
def State.drainPut (s : State) (t : Nat) (w : SpdWrite) : State :=
  let first := w.off / 32
  let n := (w.off + w.bytes.length + 31) / 32 - first
  (upto first n).foldl (fun s k =>
    let lo := max w.off (32 * k)
    let hi := min (w.off + w.bytes.length) (32 * k + 32)
    let part := (w.bytes.drop (lo - w.off)).take (hi - lo)
    let word := k % 2 ^ 18
    if hi - lo = 32 then s.spdWrite t word part w.poison
    else
      let (r, s) := s.spdRead t .drain word
      s.spdPut t word (r.bytes.take (lo - 32 * k) ++ part ++ r.bytes.drop (hi - 32 * k)) (w.poison || r.poison || r.again)) s

/-- The arrays a drain reads in turn for each output row (R76, R111). -/
def drainArrays (w : DWordM) : List Nat := if w.exact && w.lanes == 1 then (if w.arrays = 0 then [] else upto 0 4) else maskArrays w.arrays
/-- Storage rows read for each output row. -/
def drainParts (w : DWordM) : Nat := (drainArrays w).length * w.lanes

/-- The next drain starts: its turn, every earlier pass on its half complete, and no earlier reader of its sheets (R78, R277). -/
def State.startDrain (s : State) (t : Nat) : State :=
  let q := (s.tile t).seqr
  if q.drain.isSome || (s.tile t).preempting then s
  else match q.queue.find? (·.isDrain) with
    | none => s
    | some e =>
      if ((q.earlierPasses e.no).any fun p => p.pword.arrays != 0 && targetsMeet p.pword.target e.dword.target) || q.waitsForReader e then s
      else s.modSeqr t fun q => { q with queue := q.queue.filter fun x => x.no != e.no, drain := some { entry := e } }

/-- One storage row is read, converted and, with CLEAR, zeroed (R74, R76, R77, R112). Answers its 64 values. -/
def State.drainRow (s : State) (t : Nat) (r : DrainRun) (a l : Nat) : List Nat × Bool × XFlags × State :=
  let w := r.entry.dword
  let d := Desc.ofNat r.entry.desc
  let wide := w.exact && w.lanes == 1
  let m := w.rowBase + r.row
  let srow := storageRow w.exact w.lanes w.target m l
  let row := rowKey w.exact srow
  let half := rowHalf w.exact srow
  let s := (upto 0 64).foldl (fun s j => s.accCheck t a row j) s
  let A := (s.tile t).arr
  let tag := tget A.anchorTag (a * 512 + row)
  let conv := (upto 0 64).map fun j =>
    let x := A.entry w.exact (entryKey (if wide then 0 else a) row j) half
    if w.exact then drainExact d.fmt wide tag x else drainNormal d.fmt x.f
  let flags := conv.foldl (fun f c => f.or c.2) {}
  let bad := A.rowPoison.contains (a * 512 + row)
  let s := if w.clear && !(wide && a < 3) then
      (if wide then upto 0 4 else [a]).foldl (fun s b => s.modArr t fun A => { A with
        acc := (upto 0 64).foldl (fun tb j => tput tb (entryKey b row j) ⟨A.gen half, .zero⟩) A.acc,
        ecc := (upto 0 64).foldl (fun tb j => tput tb (entryKey b row j) .ok) A.ecc,
        rowPoison := setDel A.rowPoison (b * 512 + row), anchorTag := tput A.anchorTag (b * 512 + row) 0 }) s
    else s
  (conv.map (·.1), bad, flags, s)

/-- Is a CLEAR drain one of the whole half (R71)? -/
def wholeClear (w : DWordM) : Bool :=
  w.clear && !w.scatter && w.arrays == 15 && w.rowBase == 0 && w.rowCount * w.lanes == (if w.exact then 32 else 256) * (if w.target = 2 then 2 else 1)

/-- A CLEAR drain of the whole half leaves it in normal mode with every entry zero (R71). -/
def State.clearHalves (s : State) (t target : Nat) : State :=
  (targetHalves target).foldl (fun s b => s.modArr t fun A =>
    let inHalf := fun key => (key / 64 % 512 ≥ 256) == b
    let A := { A with acc := A.acc.filter fun e => !inHalf e.1 }
    if b then { A with modeB := .normal, genB := 0 } else { A with modeA := .normal, genA := 0 }) s

/-- The drain completes (R262). -/
def State.finishDrain (s : State) (t : Nat) (r : DrainRun) : State :=
  let w := r.entry.dword
  let s := if wholeClear w then s.clearHalves t w.target else s
  let s := s.modSeqr t fun q => { q with drain := none }
  s.completeM t r.entry 0 r.read { x := r.x, poisoned := !r.poisoned.isEmpty }
    [r.rowsOut, r.poisoned.foldl (fun n a => n + 2 ^ a) 0]

/-- What the drain does on one tick in its first stage: a storage row read, or a part of a zero row (R135). -/
def State.drainRead (s : State) (t : Nat) (r : DrainRun) : State × DrainRun :=
  let w := r.entry.dword
  let d := Desc.ofNat r.entry.desc
  let A := (s.tile t).arr
  let rows := A.drainRows w
  let dst := if w.scatter then A.idxEntry w.target r.row else r.row
  if w.scatter && w.zfill && decide (r.dest < (A.idx (w.target == 1)).scanned) && (decide (r.row ≥ rows) || decide (r.dest < dst)) then
    -- a destination row that no kept vector holds: 1,024 bytes of +0 a tick
    let bytes := d.rowBytes
    let at_ := 1024 * r.part
    let n := min 1024 (bytes - at_)
    let p := r.dest / d.rows
    let run : SpdWrite := { off := d.elemBit p (r.dest % d.rows) 0 / 8 + at_, bytes := List.replicate n 0 }
    let last := decide (at_ + n ≥ bytes)
    (s, { r with pipe1 := [run], part := if last then 0 else r.part + 1, dest := if last then r.dest + 1 else r.dest,
                 rowsOut := if last then r.rowsOut + 1 else r.rowsOut })
  else if decide (r.row ≥ rows) || drainParts w == 0 then (s, { r with pipe1 := [] })
  else
    let a := (drainArrays w).getD (r.part / w.lanes) 0
    let l := r.part % w.lanes
    let (vals, bad, x, s) := s.drainRow t r a l
    let wide := w.exact && w.lanes == 1
    let lastPart := decide (r.part + 1 ≥ drainParts w)
    let s := if x = {} || (wide && !lastPart) then s else s.xflag t 0 a x
    let bad' := if wide then r.rowBad || bad else bad
    let out := if wide then (if lastPart then drainWrites d dst 0 vals bad' else [])
               else drainWrites d dst (64 * w.lanes * a + 64 * l) vals bad
    (s, { r with pipe1 := out, read := r.read + 1, x := r.x.or x, rowBad := if lastPart then false else bad',
                 poisoned := if bad then setIns r.poisoned a else r.poisoned,
                 part := if lastPart then 0 else r.part + 1, row := if lastPart then r.row + 1 else r.row,
                 dest := if lastPart && w.scatter then r.dest + 1 else r.dest,
                 rowsOut := if lastPart then r.rowsOut + 1 else r.rowsOut })

/-- Has the drain nothing left to read or write? -/
def Tile.drainOver (T : Tile) (r : DrainRun) : Bool :=
  let w := r.entry.dword
  (decide (r.row ≥ T.arr.drainRows w) || drainParts w == 0) && r.pipe1.isEmpty && r.pipe2.isEmpty &&
  !(w.scatter && w.zfill && decide (r.dest < (T.arr.idx (w.target == 1)).scanned))

/-- DRAIN_READ (R76-R78, R111, R135): the three stages of the drain advance one tick; an ungranted write holds them. -/
def execDrainRead (t : TileIx) (granted : Bool) (s : State) : Res :=
  if !s.ticking t then .next s
  else
    let s := s.startDrain t
    match (s.tile t).seqr.drain with
    | none => .next s
    | some r =>
      let blocked := r.pipe2.any fun w => (upto (w.off / 32) ((w.bytes.length + 63) / 32)).any (s.tile t).spdBlocked
      if !r.pipe2.isEmpty && (!granted || blocked) then .next s
      else
        let s := r.pipe2.foldl (fun s w => s.drainPut t w) s
        let (s, r') := s.drainRead t { r with pipe2 := r.pipe1, pipe1 := [] }
        let s := s.modSeqr t fun q => { q with drain := some r' }
        if (s.tile t).drainOver r' then .next (s.finishDrain t r') else .next s

end Sys2Proof.Machine
end

