-- ==== Sys2Proof/Machine/NetOps.lean ====
section
/-! DEFINITION. Building, stamping and sending bulk packets; nodes of edge blocks; HBM addresses (R299-R316, R343, R409, R444). -/
namespace Sys2Proof.Machine

/-! ### HBM addresses (R444) -/

/-- Stack and stack offset of an HBM address; none outside the two windows. -/
def hbmAddr (a : Nat) : Option (Nat × Nat) :=
  if a < 0x13600000000 then
    let f := a / 4096
    some (f % 20, f / 20 * 4096 + a % 4096)
  else if a < 0x20000000000 then none
  else
    let x := a - 0x20000000000
    if x / 2 ^ 36 < 20 ∧ x % 2 ^ 36 < 0xF80000000 then some (x / 2 ^ 36, x % 2 ^ 36) else none

/-- Memory key of an HBM address. -/
def hbmAddrKey (a : Nat) : Nat := match hbmAddr a with | some (k, o) => hbmKey k o | none => hbmKey 31 a

/-! ### Live ports (R32, R315, R466) -/

/-- Edge nodes that are live: their tile's region is not dead and their link has not failed. -/
def State.edgeLive (s : State) (n : Nat) : Bool :=
  let t := edgeTile n
  let side := if n < 600 then 0 else if n < 624 then 1 else if n < 648 then 2 else 3
  !s.org.dead.contains (regionOf t) && !s.net.failedLinks.contains (4 * t + side)
/-- Has a stack lost an edge port (R32)? -/
def State.stackDegraded (s : State) (k : Nat) : Bool := (stackNodes k).any fun n => !s.edgeLive n
/-- Live ports of a stack; none while it is out of service. -/
def State.stackPorts (s : State) (k : Nat) : List Nat :=
  if (s.stack k).state == .out then [] else (stackNodes k).filter s.edgeLive
/-- The port of `ports` that a packet addressed to `a` takes. -/
def pickPort (ports : List Nat) (a : Nat) : Option Nat :=
  if ports.isEmpty then none else ports[a / 2048 % ports.length]?
/-- The address bit that marks a masked write: 48 at an HBM controller (R450); a host address may use that bit, so the mark
of a write to one is bit 63 here (DESIGN CHOICE, log 41). -/
def maskedBit (target : Nat) : Nat := if target = 1 then 2 ^ 63 else 2 ^ 48
/-- The node that serves a translated place: target 0 an HBM address, 1 a host bus address (R396, R409, R447). -/
def State.memNode (s : State) (ctx target out : Nat) : Option Nat :=
  if target = 1 then
    let n := hostNode (portOfFn (s.ctx ctx).fn)
    if s.edgeLive n then some n else none
  else match hbmAddr out with
    | some (k, _) => pickPort (s.stackPorts k) out
    | none => none

/-! ### Sending -/

/-- Payload words after zero-run encoding, and whether the sender encodes (R142): poisoned words are never zero. -/
def zreWords (data : List Word256) (poison : Nat) : Nat × Bool :=
  let n := data.length
  let nz := ((upto 0 n).filter fun i => bit poison i || data.getD i 0 != 0).length
  if cdiv (1 + nz) 4 < cdiv n 4 then (1 + nz, true) else (n, false)

/-- Beats a packet takes on a link of `width` bytes (R302). -/
def Packet.beats (p : Packet) (width : Nat) : Nat :=
  cdiv (32 + 32 * (if p.zre then (zreWords p.data p.poison).1 else p.data.length)) width

/-- The node that an interface's binding map gives for a logical ID (R315). -/
def State.mapNode (s : State) (t lid : Nat) : Option Nat :=
  match tget (s.tile t).net.bmap lid with
  | some n => n
  | none => s.tileOf lid

/-- A packet on its way. -/
def State.launch (s : State) (p : Packet) : State := { s with net := { s.net with flight := s.net.flight ++ [p] } }

/-- The first transaction number from `n` on that no request uses (R309). -/
def freeTxn (used : List Nat) (n : Nat) : Nat → Nat
  | 0 => n % 4096
  | k + 1 => if used.contains (n % 4096) then freeTxn used (n + 1) k else n % 4096

/-- The stamps that a tile's interface puts on a packet (R303, R343). -/
def State.stamp (s : State) (t : Nat) (p : Packet) : Packet := { p with src := t, tag := s.tag t, srcLid := s.lidOr t, context := s.tileCtx t }

/-- A tile sends a packet that asks for no answer; a fenced interface sends nothing (R323). -/
def State.tileSend (s : State) (t : Nat) (p : Packet) : State :=
  if (s.tile t).net.fenced then s
  else (s.launch p).modTile t fun T => { T with net := { T.net with tx := (T.net.tx + 1) % 2 ^ 64 } }

/-- Room for another request (R309). -/
def State.canRequest (s : State) (t : Nat) : Bool := decide ((s.tile t).net.requests.length < 4096)

/-- A tile sends a request and keeps it until its answer. Answers the transaction number too. -/
def State.request (s : State) (t : Nat) (for_ : ReqFor) (p : Packet) : Nat × State :=
  let N := (s.tile t).net
  let x := freeTxn (N.requests.map fun r => r.pkt.txn) N.nextTxn 4096
  let p := { s.stamp t p with txn := x }
  let s := s.modTile t fun T => { T with net := { T.net with requests := T.net.requests ++ [{ pkt := p, for_ := for_ }], nextTxn := (x + 1) % 4096 } }
  (x, s.tileSend t p)

/-- A request that cannot be sent or has failed for a cause other than its tag: NET_ERR.LOST and event 0x3006 (R305, R315). -/
def State.lostRequest (s : State) (t cause lid : Nat) : State :=
  (s.modTile t fun T => T.orReg 0xC05 0x10).tileEvent t 0x3006 0xFFFF [cause, lid]

/-- The answer to a packet: to its sender, with a type, a status and words (R305). -/
def State.answer (s : State) (p : Packet) (typ : PType) (from_ status : Nat) (data : List Word256) (poison : Nat) : State :=
  let lid := if from_ < 576 then s.lidOr from_ else 0xFFFF
  let a : Packet := {
    typ := typ, vc := (if p.vc = 3 then 3 else 1), words := data.length, tag := p.tag, src := from_, dst := p.src,
    status := status, context := p.context, srcLid := lid, dstLid := p.srcLid, drove := p.drove, txn := p.txn,
    addr := p.addr, poison := poison, data := data }
  if from_ < 576 then s.tileSend from_ a else s.launch a

/-- One word of memory as a packet carries it. -/
def wordOf (bs : List Byte) : Word256 := BitVec.ofNat 256 (ofBytes bs)
def Word256.bytes (w : Word256) : List Byte := toBytes w.toNat 32

end Sys2Proof.Machine
end

