-- ==== Sys2Proof/Machine/Translate.lean ====
section
/-! DEFINITION. Translation: caches, page walks, faults and their resolution, invalidation (R391-R422). -/
namespace Sys2Proof.Machine

/-- What a source does not know yet, or where its access goes. -/
inductive Xlate where
  /-- target 0 HBM or 1 host, and the output address -/
  | hit (target out : Nat)
  | walking
  | fault (kind : Nat)
  deriving DecidableEq, Repr

def TlbEntry.covers (e : TlbEntry) (ctx va : Nat) : Bool := e.ctx == ctx && decide (e.va ≤ va) && decide (va < e.va + e.size)
def TlbEntry.key (e : TlbEntry) : Nat × Nat × Nat := (e.ctx, e.va, e.size)

/-- Is the address on the SVA route of the context (R392)? -/
def State.svaRoute (s : State) (ctx va : Nat) : Bool :=
  let m := s.mmuCtx ctx
  m.sva && decide (m.svaBase ≤ va) && decide (va < m.svaLimit)

/-- An entry becomes the most recently used of a list of at most `cap`. -/
def tlbInsert (e : TlbEntry) (cap : Nat) (l : List TlbEntry) : List TlbEntry := (e :: l.filter fun x => x.key != e.key).take cap

/-- An entry in error is dropped and counted (R406). -/
def State.tlbBad (s : State) (t : Nat) : State := s.tileEvent t 0x4001 0xFFFF []

/-- The shared cache of a region (R404). -/
def State.sharedLookup (s : State) (r ctx va : Nat) : Option TlbEntry × State :=
  match (s.region r).stlb.find? (·.covers ctx va) with
  | none => (none, s)
  | some e =>
    let s := s.modRegion r fun R => { R with stlb := R.stlb.filter fun x => x.key != e.key }
    if e.bad then (none, s.regionEvent r 0x4001 0xFFFF [])
    else (some e, s.modRegion r fun R => { R with stlb := tlbInsert e 8192 R.stlb })

/-- A walk for a page is under way, or one starts (R401, R405). -/
def State.wantWalk (s : State) (r ctx va : Nat) (write : Bool) : State :=
  let page := va / 4096 * 4096
  if s.mmu.walks.any fun w => w.region == r && w.ctx == ctx && w.va == page then
    { s with mmu := { s.mmu with walks := s.mmu.walks.map fun w => if w.region = r ∧ w.ctx = ctx ∧ w.va = page then { w with write := w.write || write } else w } }
  else
    let sva := s.svaRoute ctx va
    let F := s.func (s.ctx ctx).fn
    let s := if sva && F.ats && F.pri then s.emit (.ats (portOfFn (s.ctx ctx).fn) 0 (s.mmuCtx ctx).pasid page) else s
    { s with mmu := { s.mmu with walks := s.mmu.walks ++ [{ region := r, ctx := ctx, va := page, write := write, ats := sva }] } }

/-- What an entry gives an access: its place, or a WRITE fault where it does not permit the write (R394, R396). -/
def TlbEntry.give (e : TlbEntry) (va : Nat) (write : Bool) : Xlate :=
  if write && !e.w then .fault 2 else .hit e.target (e.out + (va - e.va))

/-- A source of tile `t` looks an address up: the tile's cache, the shared cache, then a walk (R404, R405). -/
def State.xlate (s : State) (t va : Nat) (write : Bool) : Xlate × State :=
  let ctx := s.tileCtx t
  let own := (s.tile t).tlb.find? (·.covers ctx va)
  let (own, s) := match own with
    | some e => if e.bad then (none, (s.modTile t fun T => { T with tlb := T.tlb.filter fun x => x.key != e.key }).tlbBad t) else (some e, s)
    | none => (none, s)
  match own with
  | some e => (e.give va write, s.modTile t fun T => { T with tlb := tlbInsert e 512 T.tlb, xtcHit := (T.xtcHit + 1) % 2 ^ 64 })
  | none =>
    let s := s.modTile t fun T => { T with xtcMiss := (T.xtcMiss + 1) % 2 ^ 64 }
    let (e, s) := s.sharedLookup (regionOf t) ctx va
    match e with
    | some e => (e.give va write, s.modTile t fun T => { T with tlb := tlbInsert e 512 T.tlb })
    | none => (.walking, s.wantWalk (regionOf t) ctx va write)

/-- The dispatch unit of a region looks an address of its spill path up: the shared cache, then a walk (R404). -/
def State.spillLook (s : State) (r ctx va : Nat) : Xlate × State :=
  let (e, s) := s.sharedLookup r ctx va
  match e with
  | some e => (e.give va true, s)
  | none => (.walking, s.wantWalk r ctx va true)

/-! ### Walks (R393-R396, R405, R406) -/

/-- A page-table read: the entry, or the fault it meets. -/
def State.ptRead (s : State) (addr : Nat) : Except Nat Nat :=
  match hbmAddr addr with
  | none => .error 4
  | some (k, o) =>
    let key := hbmKey k o
    if (s.stack k).state == .out || s.marked (key / 32 * 32) || decide (tget (s.stack k).upset (o / 32) > 2) then .error 5
    else .ok (s.nat key 8)

/-- Is an output page of `size` bytes within the HBM range (R395)? -/
def pageInRange (out size : Nat) : Bool := (hbmAddr out).isSome && (hbmAddr (out + size - 1)).isSome

/-- A leaf entry of a page of `size` bytes at level `lvl`. -/
def leafEntry (ctx va e size : Nat) : Except Nat TlbEntry :=
  let out := fld e 12 40 * 4096
  let target := fld e 4 2
  if target ≥ 2 ∨ out % size ≠ 0 then .error 3
  else if target = 0 ∧ !pageInRange out size then .error 4
  else .ok { ctx := ctx, va := va / size * size, size := size, w := bit e 2, target := target, out := out }

/-- Reserved bits of an entry are set (R394). -/
def entryReserved (e : Nat) : Bool := fld e 52 4 != 0 || fld e 6 6 != 0

/-- The aligned group of 16 PT0 entries of a 64 KiB page (R395). -/
def State.contigEntry (s : State) (ctx va table : Nat) : Except Nat TlbEntry :=
  let i0 := fld va 12 9 / 16 * 16
  match (upto 0 16).mapM (fun i => s.ptRead (table + 8 * (i0 + i))) with
  | .error k => .error k
  | .ok es =>
    let e0 := es.headD 0
    let ok := ((upto 0 16).zip es).all fun ie =>
      let e := ie.2
      bit e 0 && bit e 1 && bit e 3 && !entryReserved e && bit e 2 == bit e0 2 && fld e 4 2 == fld e0 4 2 && fld e 12 40 == fld e0 12 40 + ie.1
    if !ok then .error 3 else leafEntry ctx va e0 65536

/-- One level of the walk: the entry of table `table` for level `lvl` (3 to 0), then the levels below. -/
def State.walkFrom (s : State) (ctx va : Nat) : Nat → Nat → Except Nat TlbEntry
  | 0, table =>
    match s.ptRead (table + 8 * fld va 12 9) with
    | .error k => .error k
    | .ok e =>
      if !bit e 0 then .error 1
      else if entryReserved e || !bit e 1 then .error 3
      else if bit e 3 then s.contigEntry ctx va table
      else leafEntry ctx va e 4096
  | lvl + 1, table =>
    let shift := 12 + 9 * (lvl + 1)
    let idx := if lvl = 2 then fld va 39 17 else fld va shift 9
    match s.ptRead (table + 8 * idx) with
    | .error k => .error k
    | .ok e =>
      if !bit e 0 then .error 1
      else if entryReserved e then .error 3
      else if bit e 1 then
        if lvl = 2 || bit e 3 then .error 3 else leafEntry ctx va e (2 ^ shift)
      else s.walkFrom ctx va lvl (fld e 12 40 * 4096)

/-- Where a walk begins: the deepest table the walk cache names, or the root (R404, R436). -/
def State.walkStart (s : State) (r ctx va : Nat) : Nat × Nat :=
  let wc := (s.region r).wcache
  match wc.find? fun e => e.1 == ctx && e.2.1 == 1 && e.2.2.1 == va / 2 ^ 30 with
  | some e => (1, e.2.2.2)
  | none => match wc.find? fun e => e.1 == ctx && e.2.1 == 2 && e.2.2.1 == va / 2 ^ 39 with
    | some e => (2, e.2.2.2)
    | none => (3, (s.mmuCtx ctx).root)

/-- The non-leaf PT3 and PT2 entries that a walk reads, as the walk cache keeps them. -/
def State.walkFill (s : State) (ctx va lvl table : Nat) : List (Nat × Nat × Nat × Nat) :=
  let step := fun (lvl table : Nat) =>
    match s.ptRead (table + 8 * (if lvl = 3 then fld va 39 17 else fld va 30 9)) with
    | .ok e => if bit e 0 && !bit e 1 && !entryReserved e then some (fld e 12 40 * 4096) else none
    | .error _ => none
  if lvl = 3 then
    match step 3 table with
    | none => []
    | some t2 => (ctx, 2, va / 2 ^ 39, t2) :: (match step 2 t2 with | some t1 => [(ctx, 1, va / 2 ^ 30, t1)] | none => [])
  else if lvl = 2 then (match step 2 table with | some t1 => [(ctx, 1, va / 2 ^ 30, t1)] | none => [])
  else []

/-! ### Invalidation (R397, R398, R407) -/

/-- Does an entry lie in `[va, va + bytes)` of one of the contexts, or anywhere in one where `all` is set? -/
def TlbEntry.within (e : TlbEntry) (ctxs : List Nat) (all : Bool) (va bytes : Nat) : Bool :=
  ctxs.contains e.ctx && (all || (decide (e.va < va + bytes) && decide (va < e.va + e.size)))

/-- Drops every cached translation that `p` selects, and the walk-cache entries of the contexts. -/
def State.dropXlate (s : State) (p : TlbEntry → Bool) (ctxs : List Nat) : State :=
  { s with
    tiles := s.tiles.foldl (fun tb e => if e.2.tlb.any p then tput tb e.1 { e.2 with tlb := e.2.tlb.filter fun x => !p x } else tb) s.tiles
    regions := s.regions.foldl (fun tb e =>
      if e.2.stlb.any p || e.2.wcache.any (fun w => ctxs.contains w.1) then
        tput tb e.1 { e.2 with stlb := e.2.stlb.filter fun x => !p x, wcache := e.2.wcache.filter fun w => !ctxs.contains w.1 }
      else tb) s.regions }

/-! ### Faults (R413-R420) -/

/-- Units of a fault ID: channels 0-15, cores 16 and 17, the spill path 18. -/
def faultUnitCore (k : Nat) : Nat := 16 + k

/-- A fault of a source of paddock `p` at tile `t`, for the spill path any tile of its region: an ID, and its record waiting to be written; every cached entry of the page is dropped first (R407, R415). -/
def State.newFault (s : State) (p t unit va : Nat) (write : Bool) (kind : Nat) : Nat × State :=
  let ctx := (s.paddock p).ctx
  let job := ((s.paddock p).resident).getD 0
  let seq := tget s.mmu.faultSeq job
  let rank := if unit = 18 then regionOf t else s.rank t
  let id := job % 2 ^ 32 * 2 ^ 32 + rank % 1024 * 2 ^ 22 + unit * 2 ^ 17 + seq % 2 ^ 17
  let page := va / 4096 * 4096
  let s := s.dropXlate (fun e => e.within [ctx] false page 4096) [ctx]
  let code := if kind = 5 then 0x4002 else if kind = 7 then 0x4004 else 0
  let s := if code = 0 then s
    else if unit = 18 then s.raise { code := code, unit := unit, region := regionOf t, paddock := p, ctx := some ctx, fn := (s.ctx ctx).fn, job := job, detail := [va] }
    else s.tileEvent t code unit [va]
  let img := (s.job job).img
  let isHandler := img.faultCore && img.handlerRank == s.rank t && decide (unit = 16 + img.handlerCore)
  let rec_ : Fault' := {
    id := id, src := t, unit := unit, va := va, kind := kind, write := write, sva := s.svaRoute ctx va, ctx := ctx,
    pad := p, lid := (if unit = 18 then 0xFFFF else s.lidOr t), toCore := img.faultCore && !isHandler }
  (id, { s with mmu := { s.mmu with faults := s.mmu.faults ++ [rec_], faultSeq := tput s.mmu.faultSeq job (seq + 1) } })

/-- A source that waits: its walk ended with a translation, with a fault kind, or a cached entry refused its write. -/
def State.holdFault (s : State) (p t unit : Nat) (h : CoreHold) (kind : Nat) : CoreHold × State :=
  let (id, s) := s.newFault p t unit h.va h.write kind
  ({ h with fault := some id }, s)

/-- The outcome of a page's walk reaches one held source: a translation releases it, a fault kind holds it (R204, R414). -/
def State.walkReach (s : State) (p t unit ctx page : Nat) (res : Except Nat TlbEntry) (h : Option CoreHold) : Option CoreHold × State :=
  match h with
  | none => (none, s)
  | some h =>
    if h.fault.isSome || h.resolved.isSome || (s.paddock p).ctx != ctx || h.va / 4096 * 4096 != page then (some h, s)
    else match res with
      | .ok e => if h.write && !e.w then let (h, s) := s.holdFault p t unit h 2; (some h, s) else (none, s)
      | .error k => let (h, s) := s.holdFault p t unit h k; (some h, s)

/-- The outcome of a walk reaches the cores and channels of one tile. -/
def State.walkTile (s : State) (t ctx page : Nat) (res : Except Nat TlbEntry) : State :=
  let s := (upto 0 2).foldl (fun s k =>
    let u := mkCore t k
    let (h, s) := s.walkReach (s.tag t) t (faultUnitCore k) ctx page res (s.core u).hold
    s.modCore u fun c => { c with hold := h }) s
  (upto 0 16).foldl (fun s c =>
    let ch := tget (s.tile t).chans c
    if ch.wait.isNone then s
    else
      let (h, s) := s.walkReach (s.tag t) t c ctx page res ch.wait
      s.modTile t fun T => { T with chans := tput T.chans c { ch with wait := h } }) s

/-- The outcome of a walk reaches a region: its shared cache, its walk cache, its tiles and its spill path. -/
def State.walkDone (s : State) (r ctx page : Nat) (res : Except Nat TlbEntry) : State :=
  let s := { s with mmu := { s.mmu with walks := s.mmu.walks.filter fun w => !(w.region == r && w.ctx == ctx && w.va == page) } }
  let s := match res with
    | .ok e => s.modRegion r fun R => { R with stlb := tlbInsert e 8192 R.stlb }
    | .error _ => s
  let s := (regionTiles r).foldl (fun s t => s.walkTile t ctx page res) s
  let reach := fun (s : State) (L : LayerSlot) => s.walkReach (L.heldBy.getD 0) (tileInRegion r 0) 18 ctx page res L.spillHold
  let (h, s) := reach s (s.region r).slot0
  let s := s.modRegion r fun R => { R with slot0 := { R.slot0 with spillHold := h } }
  let (h, s) := reach s (s.region r).slot1
  s.modRegion r fun R => { R with slot1 := { R.slot1 with spillHold := h } }

/-- The source of an outstanding fault is told how it was resolved: RETRY releases it to walk afresh, FAIL marks it (R420). -/
def State.tellSource (s : State) (f : Fault') (retry : Bool) : State :=
  let upd := fun (h : Option CoreHold) => match h with
    | some h => if h.fault = some f.id then (if retry then none else some { h with fault := none, resolved := some false }) else some h
    | none => none
  if f.unit = 18 then s.modRegion (regionOf f.src) fun R => { R with
    slot0 := { R.slot0 with spillHold := upd R.slot0.spillHold }
    slot1 := { R.slot1 with spillHold := upd R.slot1.spillHold } }
  else
    -- the source is named by rank: a re-bound tile's successor holds its state (R415)
    let t := ((s.members f.pad)[f.id / 2 ^ 22 % 1024]?.bind s.tileOf).getD f.src
    if f.unit ≥ 16 then s.modCore (mkCore t (f.unit - 16)) fun c => { c with hold := upd c.hold }
    else s.modTile t fun T => { T with chans := tmod T.chans f.unit fun c => { c with wait := upd c.wait } }

/-- A resolution of a fault ID: applied to an outstanding fault; answers 0 resolved, 1 already resolved, 2 never outstanding (R419). -/
def State.resolveFault (s : State) (id : Nat) (retry : Bool) : Nat × State :=
  match s.mmu.faults.find? fun f => f.id == id with
  | some f =>
    let s := { s with mmu := { s.mmu with faults := s.mmu.faults.filter (fun x => x.id != id), resolvedIds := setIns s.mmu.resolvedIds id } }
    (0, s.tellSource f retry)
  | none => (if s.mmu.resolvedIds.contains id then 1 else 2, s)

end Sys2Proof.Machine
end

