-- ==== Sys2Proof/Machine/HostOps.lean ====
section
/-! DEFINITION. The host interface's shared operations: functions and queues, frames and page tables, the queue engine's
reads and writes, completions and interrupts (R444, R445, R471-R485, R503). -/
namespace Sys2Proof.Machine

/-! ### Functions and allotments (R472, R473) -/

def pfOf (fn : Nat) : Nat := portOfFn fn
/-- The virtual functions of a physical function. -/
def vfsOf (pf : Nat) : List Nat := upto (4 + 63 * pf) 63
def State.modFunc (s : State) (f : Nat) (g : Func → Func) : State := s.setFunc f (g (s.func f))
def natSum (l : List Nat) : Nat := l.foldl (· + ·) 0
/-- Queue pairs allotted: a virtual function's allotment, or what a physical function's pool has left. -/
def State.fnQueues (s : State) (fn : Nat) : Nat :=
  if fn < 4 then 4096 - natSum ((vfsOf fn).map fun v => (s.func v).queues) else (s.func fn).queues
def State.fnContexts (s : State) (fn : Nat) : Nat :=
  if fn < 4 then 64 - natSum ((vfsOf fn).map fun v => (s.func v).contexts) else (s.func fn).contexts
/-- Region quota (R473). -/
def State.fnQuota (s : State) (fn : Nat) : Nat :=
  if fn < 4 then 144 - (s.func fn).quotaCut - natSum ((vfsOf fn).map fun v => (s.func v).quota) else (s.func fn).quota
/-- MSI-X vectors of a function (R471). -/
def fnVectors (fn : Nat) : Nat := if fn < 4 then 2048 else 64

def State.queue (s : State) (fn q : Nat) : Queue := tget s.host.queues (fn * 4096 + q)
def State.setQueue (s : State) (fn q : Nat) (x : Queue) : State := { s with host := { s.host with queues := tput s.host.queues (fn * 4096 + q) x } }
def State.modQueue (s : State) (fn q : Nat) (g : Queue → Queue) : State := s.setQueue fn q (g (s.queue fn q))
def State.port (s : State) (p : Nat) : HostPort := tget s.host.ports p
def State.setPort (s : State) (p : Nat) (x : HostPort) : State := { s with host := { s.host with ports := tput s.host.ports p x } }
def State.queuesUsed (s : State) (fn : Nat) : Nat := (s.host.queues.filter fun e => e.1 / 4096 == fn && e.2.made).length
def State.contextsUsed (s : State) (fn : Nat) : Nat := (s.host.ctxs.filter fun e => e.2.live && e.2.fn == fn).length
/-- Regions owned by the function's paddocks. -/
def State.regionsUsed (s : State) (fn : Nat) : Nat :=
  natSum (s.host.paddocks.map fun e => if e.2.live && (s.ctx e.2.ctx).fn == fn then e.2.regions.length else 0)
/-- A record of the host interface, naming the port and the function (R510). -/
def State.hostEvent (s : State) (code fn : Nat) (detail : List Nat) : State :=
  s.raise { code := code, fn := fn, unit := portOfFn fn, detail := detail }
/-- A record that names a context (R441). -/
def State.ctxEvent (s : State) (code c : Nat) (detail : List Nat) : State :=
  s.raise { code := code, ctx := some c, fn := (s.ctx c).fn, detail := detail }

/-! ### Frames (R444, R445, R485, R491) -/

/-- Frames of the interleaved window. -/
def frameCount : Nat := 325058560
/-- The frame an HBM address lies in, numbered as the interleaved window does. -/
def frameOf (a : Nat) : Option Nat := (hbmAddr a).map fun ko => ko.2 / 4096 * 20 + ko.1
/-- The interleaved and the stack-local address of a frame. -/
def frameAddr (window f : Nat) : Nat :=
  if window < 20 then 0x20000000000 + window * 2 ^ 36 + f / 20 * 4096 else f * 4096
def State.frame (s : State) (f : Nat) : FrameOwner := tget s.host.frames f
def State.setFrames (s : State) (fs : List Nat) (o : FrameOwner) : State :=
  { s with host := { s.host with frames := fs.foldl (fun tb f => tput tb f o) s.host.frames } }
/-- First place of a run of `n` that meets no occupied index. -/
def fitFrom (n : Nat) : List Nat → Nat → Nat
  | [], start => start
  | o :: t, start => if o < start then fitFrom n t start else if start + n ≤ o then start else fitFrom n t (o + 1)
/-- First such place whose index is a multiple of `al`. -/
def fitAligned (al n : Nat) : List Nat → Nat → Nat
  | [], start => (start + al - 1) / al * al
  | o :: t, start =>
    let st := (start + al - 1) / al * al
    if o < st then fitAligned al n t st else if st + n ≤ o then st else fitAligned al n t (o + 1)
/-- The lowest run of `n` free frames in a window (a stack, or 0xFF), aligned to `al` frames (R491). Frames of a stack that
is out of service are not handed out (R466). -/
def State.findFrames (s : State) (window n al : Nat) : Option (List Nat) :=
  let dead := (upto 0 20).filter fun k => (s.stack k).state == .out
  if n > frameCount then none
  else if window < 20 then
    let occ := (s.host.frames.filter fun e => e.1 % 20 == window).map fun e => e.1 / 20
    let st := fitAligned al n occ 0
    if dead.contains window || decide (st + n > frameCount / 20) then none else some ((upto st n).map fun i => 20 * i + window)
  else
    let st := fitAligned al n (s.host.frames.map (·.1)) 0
    -- a run in the interleaved window meets every stack; runs shorter than 20 may miss one that is out of service
    let bad := fun st => (upto st n).any fun f => dead.contains (f % 20)
    let st := if dead.isEmpty then st else ((upto 0 20).map fun i => fitAligned al n (s.host.frames.map (·.1)) (st + i)).find? (fun x => !bad x) |>.getD frameCount
    if st + n > frameCount then none else some (upto st n)
/-- Bytes and marks of a range of keys become zero and clear. -/
def State.zeroKeys (s : State) (lo n : Nat) : State :=
  let p := fun k => decide (lo ≤ k) && decide (k < lo + n)
  { s with mem := s.mem.filter fun c => !p c.1, marks := s.marks.filter fun k => !p k }
def frameKey (f : Nat) : Nat := hbmKey (f % 20) (f / 20 * 4096)
/-- Frames are released: zero-filled, and then free (R445). -/
def State.freeFrames (s : State) (fs : List Nat) : State := (fs.foldl (fun s f => s.zeroKeys (frameKey f) 4096) s).setFrames fs .free
/-- The frames of an HBM byte range that begins on a frame. -/
def framesOf (a n : Nat) : List Nat := (upto 0 (min (cdiv n 4096) (frameCount + 1))).filterMap fun i => frameOf (a + 4096 * i)

/-! ### Device-managed page tables (R393, R394, R485, R491) -/

/-- Bytes of a PAGE code. -/
def pageBytes (n : Nat) : Nat := match n with | 0 => 4096 | 1 => 65536 | 2 => 2 ^ 21 | _ => 2 ^ 30
/-- A table of the next level under an entry, taking a frame for it where there is none. -/
def State.subTable (s : State) (c entry : Nat) : Option (Nat × State) :=
  let e := s.nat (hbmAddrKey entry) 8
  if bit e 0 then some (fld e 12 40 * 4096, s)
  else match s.findFrames 0xFF 1 1 with
    | none => none
    | some fs =>
      let a := frameAddr 0xFF (fs.headD 0)
      let s := s.setFrames fs (.table c)
      let s := s.setCtx c { s.ctx c with tables := (s.ctx c).tables ++ fs }
      some (a, s.store (hbmAddrKey entry) (toBytes (a + 1) 8))
/-- The table that holds the entry of `va` at level `lvl` (0 PT0, 1 PT1, 2 PT2). -/
def State.tableFor (s : State) (c va lvl : Nat) : Option (Nat × State) := do
  let (t2, s) ← s.subTable c ((s.mmuCtx c).root + 8 * fld va 39 17)
  if lvl = 2 then return (t2, s)
  let (t1, s) ← s.subTable c (t2 + 8 * fld va 30 9)
  if lvl = 1 then return (t1, s)
  s.subTable c (t1 + 8 * fld va 21 9)
/-- A leaf entry: V, L, W, CONTIG, TARGET, ADDR. -/
def leafWord (out target : Nat) (w contig : Bool) : Nat := 3 + 4 * b01 w + 8 * b01 contig + 16 * target + out / 4096 % 2 ^ 40 * 4096
/-- One page mapped: its entries written. -/
def State.mapPage (s : State) (c va out target : Nat) (w : Bool) (page : Nat) : Option State := do
  let lvl := if page < 2 then 0 else page - 1
  let (t, s) ← s.tableFor c va lvl
  let n := if page = 1 then 16 else 1
  let idx := fld va (12 + 9 * lvl) 9
  let s := (upto 0 n).foldl (fun s i => s.store (hbmAddrKey (t + 8 * (idx + i))) (toBytes (leafWord (out + 4096 * i) target w (page == 1)) 8)) s
  return s.setCtx c { s.ctx c with maps := (s.ctx c).maps ++ [(va, pageBytes page, target, out)] }
/-- Pages mapped one after another. -/
def State.mapPages (s : State) (c va out target : Nat) (w : Bool) (page : Nat) : Nat → Option State
  | 0 => some s
  | n + 1 => do
    let s ← s.mapPage c va out target w page
    s.mapPages c (va + pageBytes page) (out + pageBytes page) target w page n
/-- The entries of one mapped page cleared. -/
def State.unmapPage (s : State) (c va size : Nat) : State :=
  let lvl := if size = 2 ^ 21 then 1 else if size = 2 ^ 30 then 2 else 0
  match s.tableFor c va lvl with
  | none => s
  | some (t, s) =>
    let idx := fld va (12 + 9 * lvl) 9
    (upto 0 (if size = 65536 then 16 else 1)).foldl (fun s i => s.store (hbmAddrKey (t + 8 * (idx + i))) (toBytes 0 8)) s

/-! ### Engine accesses under a context's translation (R478, R492, R493) -/

/-- Pieces of a virtual range that lie in one 4 KiB page. -/
def pagePieces (va n : Nat) : List (Nat × Nat) :=
  (upto (va / 4096) ((va + n + 4095) / 4096 - va / 4096)).map fun p =>
    let lo := max va (4096 * p)
    (lo, min (va + n) (4096 * p + 4096) - lo)
/-- Where the tables put an address for an engine of the host interface: TARGET and output address. On the SVA route the
device virtual address is the host's own (R399). -/
def State.ctxPlace (s : State) (c va : Nat) (write : Bool) : Except Nat (Nat × Nat) :=
  if s.svaRoute c va then .ok (1, va)
  else match s.walkFrom c va 3 (s.mmuCtx c).root with
    | .error k => .error k
    | .ok e => match e.give va write with
      | .hit tg out => .ok (tg, out)
      | .fault k => .error k
      | .walking => .error 1
/-- Bytes that host memory answers. -/
def hostBytes (h : HostMem) (a : Nat) : Nat → List Byte
  | 0 => []
  | n + 1 => ((h.find? fun e => e.1 == a).elim 0 (·.2)) :: hostBytes h (a + 1) n
/-- Does any word of an HBM range carry a mark, or an error its code cannot correct? -/
def State.hbmBad (s : State) (key n : Nat) : Bool :=
  (upto (key / 32) ((key + n - 1) / 32 + 1 - key / 32)).any fun w =>
    s.marked (32 * w) || decide (tget (s.stack (w / 2 ^ 31)).upset (w % 2 ^ 31) > 2)
/-- Bytes read by an engine: FAULTED where a page does not translate, POISONED where a word is bad. -/
def State.ctxRead (s : State) (c : Nat) (h : HostMem) : List (Nat × Nat) → Except Nat (List Byte)
  | [] => .ok []
  | (va, n) :: t =>
    match s.ctxPlace c va false with
    | .error _ => .error 0x20
    | .ok (1, a) => match s.ctxRead c h t with | .ok bs => .ok (hostBytes h a n ++ bs) | .error e => .error e
    | .ok (_, a) =>
      let key := hbmAddrKey a
      if s.hbmBad key n then .error 0x21
      else match s.ctxRead c h t with | .ok bs => .ok (s.bytes key n ++ bs) | .error e => .error e
/-- Bytes written by an engine; false where a page does not translate for a write. -/
def State.ctxWrite (s : State) (c port : Nat) : List (Nat × Nat) → List Byte → Bool × State
  | [], _ => (true, s)
  | (va, n) :: t, bs =>
    match s.ctxPlace c va true with
    | .error _ => (false, s)
    | .ok (1, a) => (s.emit (.hostWrite port a (bs.take n) false)).ctxWrite c port t (bs.drop n)
    | .ok (_, a) => (s.store (hbmAddrKey a) (bs.take n)).ctxWrite c port t (bs.drop n)

/-! ### Queues: stops, completions, signals (R476-R481, R500) -/

/-- A queue stops (R479). -/
def State.queueStop (s : State) (fn q cause : Nat) : State :=
  if (s.queue fn q).stopped then s
  else (s.modQueue fn q fun Q => { Q with stopped := true, cause := cause }).hostEvent 0x6004 fn [q, cause]

def jobCode : JobState → Nat
  | .none => 15 | .queued => 0 | .running => 1 | .suspending => 2 | .suspended => 3 | .resuming => 4
  | .cancelling => 5 | .done => 6 | .failed => 7 | .cancelled => 8 | .deferred => 9
def Job.holds (j : Job) : Nat := b01 j.holdHost + 2 * b01 j.holdGeo + 4 * b01 j.holdDev
def Job.terminal (j : Job) : Bool := j.state == .done || j.state == .failed || j.state == .cancelled

/-- A completion entry's bytes (R476, R480). With no job the state field is left open (R495). -/
def complBytes (major r0 r1 job sqHead q id status st holds : Nat) (phase : Bool) : List Byte :=
  if major < 2 then toBytes r0 8 ++ toBytes sqHead 2 ++ toBytes id 2 ++ toBytes status 1 ++ toBytes (128 * b01 phase + st) 1 ++ toBytes q 2
  else toBytes r0 8 ++ toBytes r1 8 ++ toBytes job 4 ++ toBytes sqHead 2 ++ toBytes q 2 ++ toBytes id 2 ++ toBytes status 1 ++
    toBytes (16 * holds + st) 1 ++ toBytes (2 ^ 31 * b01 phase) 4

/-- A completion signals its queue's vector, at once or coalesced (R481). -/
def State.signal (s : State) (fn q : Nat) : State :=
  let Q := s.queue fn q
  if !Q.intEn then s
  else if Q.coalCount = 0 ∧ Q.coalUs = 0 then s.emit (.msix fn Q.vector)
  else if Q.coalCount ≠ 0 ∧ Q.pendingInt + 1 ≥ Q.coalCount then
    (s.modQueue fn q fun Q => { Q with pendingInt := 0 }).emit (.msix fn Q.vector)
  else s.modQueue fn q fun Q => { Q with pendingInt := Q.pendingInt + 1 }

/-- A completion entry is written to its ring and signalled; a ring write that fails stops the queue. -/
def State.putCompletion (s : State) (fn q id status r0 r1 job : Nat) : State :=
  let Q := s.queue fn q
  if !Q.made then s
  else
    let major := (s.func fn).nver / 256
    let size := if major < 2 then 16 else 32
    let (st, s) := if job = 0 then (let (v, s) := s.takeFree; (v % 16, s)) else (jobCode (s.job job).state, s)
    let bs := complBytes major r0 r1 job Q.sqHead q id status st (if job = 0 then 0 else (s.job job).holds) Q.phase
    let (ok, s) := if Q.inDevice then s.ctxWrite Q.ctx (portOfFn fn) (pagePieces (Q.cqBase + size * Q.cqTail) size) bs
                   else (true, s.emit (.hostWrite (portOfFn fn) (Q.cqBase + size * Q.cqTail) bs false))
    if !ok then s.queueStop fn q 5
    else
      let last := Q.cqTail + 1 = 2 ^ Q.log2Cq
      (s.modQueue fn q fun Q => { Q with cqTail := if last then 0 else Q.cqTail + 1, phase := Q.phase != last, cqUsed := Q.cqUsed + 1 }).signal fn q

/-- The fetched commands that a DELETE_QUEUE waits for are gone: it completes (R484). -/
def State.deleteIfDone (s : State) (fn q : Nat) : State :=
  let Q := s.queue fn q
  match Q.deleting with
  | none => s
  | some o =>
    if Q.fetched.any fun f => !f.isJob then s
    else
      let s := s.setQueue fn q {}
      let s := s.modQueue o.fn o.queue fun Q => { Q with fetched := Q.fetched.filter fun f => f.no != o.no }
      s.putCompletion o.fn o.queue o.id 0 0 0 0

/-- A command has its final completion. -/
def State.finish (s : State) (o : Owed) (status r0 r1 job : Nat) : State :=
  if !((s.queue o.fn o.queue).fetched.any fun f => f.no == o.no) then s
  else
    let s := s.modQueue o.fn o.queue fun Q => { Q with fetched := Q.fetched.filter fun f => f.no != o.no }
    (s.putCompletion o.fn o.queue o.id status r0 r1 job).deleteIfDone o.fn o.queue

/-- What a command answers: a status (0xFF: it answers later), its results, and the job it made or names. -/
structure Ans where
  status : Nat := 0
  r0 : Nat := 0
  r1 : Nat := 0
  job : Nat := 0
  isJob : Bool := false
  deriving DecidableEq, Repr, Inhabited

/-- A command was started and answered ACCEPTED or DEFERRED, or will answer later. -/
def State.accept (s : State) (o : Owed) (a : Ans) : State :=
  let s := s.modQueue o.fn o.queue fun Q => { Q with
    fetched := Q.fetched.map fun f => if f.no = o.no then { f with started := true, isJob := a.isJob, hold := if a.status = 0xFF then f.hold else 1 } else f }
  if a.status = 0xFF then s else s.putCompletion o.fn o.queue o.id a.status a.r0 a.r1 a.job

/-- The checks of R483 in their order: the first status for which one fails, 0 for none. -/
def firstFail (l : List (Nat × Bool)) : Nat :=
  (([0x10, 0x11, 0x13, 0x15, 0x14, 0x12] : List Nat).find? fun st => l.any fun e => e.1 == st && e.2).getD 0

/-- Operand words of an entry that have bits outside the masks given for W1, W2, … (words without a mask must be zero). -/
def sqStray (c : SqEntry) (masks : List Nat) : Bool :=
  ((([c.w1, c.w2, c.w3, c.w4, c.w5, c.w6, c.w7] : List (BitVec 64)).map (·.toNat)).zip (masks ++ List.replicate 7 0)).any fun e => (e.1 ||| e.2) != e.2
/-- Reserved parts of the entry's frame (R480). -/
def sqBadFrame (c : SqEntry) : Bool := decide (c.flags.toNat > 1) || c.res != 0

/-- The commands that need Fufin: those of paddocks, memory, images, jobs and maintenance, but for QUERY (R629). -/
def needsFufin (op : Nat) : Bool := decide (op ≥ 0x10) && op != 0x34
/-- The queue engine starts a fetched command: only the oldest one not started, a FENCE only with nothing before it. The
checks decide the status; a command that fails one changes nothing (R480, R481, R483). -/
def State.perform (s : State) (fn q op : Nat) (c : SqEntry) (admin : Bool) (checks : List (Nat × Bool))
    (body : Owed → State → Ans × State) (post : Owed → State → State := fun _ s => s) : State :=
  let Q := s.queue fn q
  match Q.fetched.find? fun f => !f.started with
  | none => s
  | some f =>
    let fenced := bit c.flags.toNat 0 && (Q.fetched.head?.map (·.no)) != some f.no
    if f.c ≠ c || c.opcode.toNat ≠ op || fenced || (s.func fn).resetting then s
    else
      let o : Owed := { fn := fn, queue := q, no := f.no, id := c.id.toNat }
      let code := if needsFufin op && !s.foldUp then 0x12 else firstFail ([(0x11, sqBadFrame c), (0x13, admin && q != 0)] ++ checks)
      if code ≠ 0 then s.finish o code 0 0 0
      else
        let (a, s) := body o s
        if a.status = 1 ∨ a.status = 2 ∨ a.status = 0xFF then post o (s.accept o a)
        else s.finish o a.status a.r0 a.r1 a.job

/-- Is a context one of the function's? -/
def State.ctxMine (s : State) (fn c : Nat) : Bool := (s.ctx c).live && (s.ctx c).fn == fn
/-- Is a paddock one of the context's? -/
def State.padMine (s : State) (fn c p : Nat) : Bool := s.ctxMine fn c && (s.paddock p).live && (s.paddock p).ctx == c
/-- Is a job handle held, and the function's? -/
def State.jobMine (s : State) (fn j : Nat) : Bool := (s.job j).live && (s.job j).fn == fn

end Sys2Proof.Machine
end

