-- ==== Sys2Proof/Machine/IdentOps.lean ====
section
/-! DEFINITION. Secured sessions, debug consents and the debug licence: how they end (R663, R678, R679). -/
namespace Sys2Proof.Machine

/-- The variant of a licence's or a register's code (R1, R666). -/
def variantOf (code : Nat) : Variant := if code = 3 then .f else if code = 2 then .p else .e
def variantCode : Variant → Nat
  | .e => 1 | .p => 2 | .f => 3

def State.modIdent (s : State) (f : Ident → Ident) : State := { s with ident := f s.ident }
/-- The number of a place that answers SPDM. -/
def placeNo : SpdmAt → Nat
  | .doe fn => fn.val
  | .pcie pf => 256 + pf.val
  | .i3c => 260
  | .lamp n => 261 + n.val
/-- Sessions end, and what their places had under way with them (R663). -/
def State.endSessions (s : State) (p : Session → Bool) : State :=
  let gone := s.ident.sessions.filter p
  s.modIdent fun I => { I with
    sessions := I.sessions.filter fun x => !p x
    responders := gone.foldl (fun tb (x : Session) => tmod tb x.place fun r => if r.encapSession = x.id then { r with encap := 0, encapSession := 0 } else r) I.responders }
/-- The live session of a place. -/
def State.session (s : State) (place id : Nat) : Option Session := s.ident.sessions.find? fun x => x.place == place && x.id == id && x.up
def State.modSession (s : State) (place id : Nat) (f : Session → Session) : State :=
  s.modIdent fun I => { I with sessions := I.sessions.map fun x => if x.place = place ∧ x.id = id then f x else x }
/-- A port that has authenticated has a secured session, opened by either end as its requester, with both ends authenticated (R665). -/
def State.portSession (s : State) (n : Nat) : State :=
  if s.ident.sessions.any fun x => x.place == 261 + n then s
  else s.modIdent fun I => { I with
    sessions := I.sessions ++ [{ id := I.nextSession, place := 261 + n, up := true, mutual_ := true }], nextSession := I.nextSession + 1 }
/-- Consents end, each with its event 0xB008 (R679). -/
def State.endConsents (s : State) (p : Consent → Bool) : State :=
  let gone := s.ident.consents.filter p
  let s := s.modIdent fun I => { I with consents := I.consents.filter fun x => !p x }
  gone.foldl (fun s (x : Consent) => s.raise { code := 0xB008, ctx := some x.ctx, fn := (s.ctx x.ctx).fn, detail := [0] }) s
/-- The debug licence ends, and every consent with it (R678, R679). -/
def State.endDebug (s : State) : State := (s.modIdent fun I => { I with debugLic := none }).endConsents fun _ => true

end Sys2Proof.Machine
end

