-- ==== Sys2Proof/Machine/FoldOps.lean ====
section
/-! DEFINITION. The Fold controller's shared operations: event classes, the log and its seals, ERR rings, takeovers (R627, R638-R641,
R683-R691, R699). -/
namespace Sys2Proof.Machine

def State.modFold (s : State) (f : Fold → Fold) : State := { s with fold := f s.fold }

/-! ### Classes (R683, R699) -/

/-- The codes of class corrected. -/
def correctedCodes : List Nat :=
  [0x1002, 0x1004, 0x1103, 0x1201, 0x2001, 0x2002, 0x2004, 0x2007, 0x3001, 0x4001, 0x5001, 0x5002, 0x5004, 0x5005, 0x5008, 0x6001, 0x6008,
   0x7001, 0x7002, 0x7007, 0x8001, 0x8002, 0x8007, 0x8008, 0x8009, 0x800A, 0x8101, 0x8201, 0x8203, 0x8206, 0x8208, 0x820A, 0x9001, 0x9004,
   0x9006, 0x9103, 0x9105, 0x9107, 0xA001, 0xA004, 0xA005, 0xA007, 0xA008, 0xA00A, 0xA00C, 0xB003, 0xB005, 0xB008, 0xB00A]
/-- The codes of class deferred. -/
def deferredCodes : List Nat := [0x1001, 0x1003, 0x1101, 0x1202, 0x1301, 0x2003, 0x2005, 0x3102, 0x4007, 0x5003, 0x6003]
/-- The codes of class region-fatal. -/
def regionFatalCodes : List Nat := [0x8005, 0x8102, 0x8103, 0x8207, 0x9003]
/-- The class of an event code; every other code of the table is contained. -/
def eventClass (code : Nat) : Nat :=
  if correctedCodes.contains code then 0
  else if deferredCodes.contains code then 1
  else if regionFatalCodes.contains code then 3
  else if code = 0x800C then 4
  else 2
/-- Who writes a code's entries: the Fold's own hardware, Fufin, or a unit of the device. -/
def eventSource (code : Nat) : Nat :=
  if code = 0xA002 ∨ code = 0x800C then 2 else if code ≥ 0x9000 then 1 else 0

/-! ### Records and entries as bytes (R638, R687) -/

/-- A record's 256 bits. -/
def EventRec.word (e : EventRec) : Nat :=
  e.code % 2 ^ 16 + atBit (eventClass e.code) 16 3 + atBit (b01 (e.counted != 0)) 19 1 + atBit e.fn 24 8 + atBit (e.ctx.getD 0) 32 8 +
  atBit (b01 e.ctx.isSome) 40 1 + atBit e.paddock 48 16 + atBit e.node 64 10 + atBit e.region 74 8 + atBit e.lid 96 16 +
  atBit e.unit 112 16 + atBit e.job 128 32 + atBit (if e.detail.isEmpty then 0 else Config.packDetail e.code e.detail) 160 96
/-- An entry's 64 bytes. -/
def LogEntry.bytes (l : LogEntry) : List Byte :=
  toBytes l.seq 8 ++ toBytes l.time 8 ++ toBytes l.event.word 32 ++ toBytes l.count 2 ++ toBytes l.source 1 ++ toBytes (b01 l.lostBefore) 1 ++
  toBytes l.chain 12

/-! ### The log (R638-R641) -/

/-- Blocks that are erased and may be written. -/
def Fold.freeBlocks (F : Fold) : Nat := 8192 - F.blocks.length
/-- An entry is written at the end of a block, chained to the entry before it. -/
def Fold.write (F : Fold) (l : LogEntry) : Fold :=
  let l := { l with chain := F.chain }
  { F with
    blocks := match F.blocks.getLast? with
      | some b => F.blocks.dropLast ++ [{ b with entries := b.entries ++ [l] }]
      | none => F.blocks
    chain := ofBytes ((sha384 l.bytes).take 12) }
/-- Is there a block that an entry can be written to now? -/
def Fold.room (F : Fold) : Bool := match F.blocks.getLast? with | some b => !b.closed && decide (b.entries.length < 254) | none => false
/-- Must the block in use be sealed before an entry can be written? -/
def Fold.mustSeal (F : Fold) : Bool := match F.blocks.getLast? with | some b => !b.closed && decide (b.entries.length ≥ 254) | none => false
/-- Buffered entries are written in SEQ order while there is room: a full block waits for its seal, a new one for a free block. -/
def Fold.drain (F : Fold) : Nat → Fold
  | 0 => F
  | n + 1 =>
    match F.buffer with
    | [] => F
    | l :: rest =>
      if F.room then (({ F with buffer := rest } : Fold).write l).drain n
      else if F.mustSeal || F.freeBlocks == 0 then F
      else (({ F with blocks := F.blocks ++ [{ no := F.blockNo + 1 }], blockNo := F.blockNo + 1, buffer := rest } : Fold).write l).drain n
def State.drainLog (s : State) : State := s.modFold fun F => F.drain F.buffer.length
/-- The block in use is sealed with the alias key and closed (R639). -/
def State.sealLog (s : State) : State :=
  (s.modFold fun F => match F.blocks.getLast? with
    | some b => if b.closed || b.entries.isEmpty then F else { F with blocks := F.blocks.dropLast ++ [{ b with closed := true, key := s.ident.aliasGen }] }
    | none => F).drainLog

/-! ### ERR rings (R688-R691) -/

/-- A record is written to one function's ring, where the function has a session. -/
def State.errPut (s : State) (fn : Nat) (l : LogEntry) : State :=
  if !(s.func fn).ready then s
  else
    let E := tget s.errs fn
    let c := eventClass l.event.code
    let E := { E with cnt := tmod E.cnt c fun n => min (n + l.count) (2 ^ 32 - 1) }
    if (E.tail + 1) % 512 = E.head then
      { s with errs := tput s.errs fn { E with lost := min (E.lost + 1) (2 ^ 32 - 1), overflow := true, lostBefore := true } }
    else
      let E' := { E with ring := tput E.ring E.tail { l with lostBefore := E.lostBefore || l.lostBefore, chain := 0 }, tail := (E.tail + 1) % 512, lostBefore := false }
      let s := { s with errs := tput s.errs fn E' }
      if E.intEn && decide (c ≥ E.minClass) then s.emit (.msix fn E.vector) else s
/-- A record reaches the rings of its function: a virtual function's goes to its physical function's too, one without a function to
all four physical functions'. -/
def State.errRoute (s : State) (l : LogEntry) : State :=
  let fn := l.event.fn
  if fn = 0xFF then (upto 0 4).foldl (fun s p => s.errPut p l) s
  else
    let s := if fn < 4 then s.errPut fn l else (s.errPut fn l).errPut (pfOf fn) l
    -- a corrected event that names a function is a Corrected Internal Error of it (R691)
    if eventClass l.event.code = 0 then s.modFunc fn fun F => { F with aer := F.aer ||| 4 } else s
/-- Fufin records an event: SEQ, the log's buffer, the rings (R639, R686). -/
def State.record (s : State) (e : EventRec) : State :=
  let seq := s.fold.seq + 1
  let l : LogEntry := { seq := seq, time := s.time, event := e, count := min (max 1 e.counted) 0xFFFF, source := eventSource e.code }
  let full := decide (s.fold.buffer.length ≥ 65536)
  let gap := s.fold.gap
  let s := if full then
      s.modFold fun F => { F with
        seq := seq, gap := true, dropped := F.dropped + 1
        mail := (upto 0 4).foldl (fun tb p => tmod tb p fun M => { M with lost := min (M.lost + 1) (2 ^ 32 - 1) }) F.mail }
    else (s.modFold fun F => { F with seq := seq, buffer := F.buffer ++ [{ l with lostBefore := F.gap }], gap := false }).drainLog
  s.errRoute { l with lostBefore := !full && gap }

/-! ### Pairs (R625-R629) -/

def Fold.pair (F : Fold) (b : Bool) : FoldPair := if b then F.pair1 else F.pair0
def Fold.setPair (F : Fold) (b : Bool) (p : FoldPair) : Fold := if b then { F with pair1 := p } else { F with pair0 := p }
/-- The active pair. -/
def Fold.activePair (F : Fold) : Option Bool := if F.pair0.st = .active then some false else if F.pair1.st = .active then some true else none
/-- Is there a standby that follows the mirror? -/
def Fold.standbyOk (F : Fold) : Bool := F.pair0.st == .standby || F.pair1.st == .standby
def Fold.bank (F : Fold) (n : Nat) : Bank := if n = 0 then F.bankA else F.bankB
def Fold.setBank (F : Fold) (n : Nat) (b : Bank) : Fold := if n = 0 then { F with bankA := b } else { F with bankB := b }
/-- The other pair becomes active; the block in use is sealed first (R627, R639). -/
def State.takeover (s : State) (from_ : Bool) (left : PairState) : State :=
  let s := s.sealLog
  s.modFold fun F => (F.setPair from_ { F.pair from_ with st := left }).setPair (!from_) { F.pair (!from_) with st := .active }

/-! ### Firmware instances (R642, R645, R669) -/

/-- The bank that each instance of a component runs; of the pairs, those not failed. -/
def State.instances (s : State) (comp : Nat) : List Nat :=
  match comp with
  | 1 => ([s.fold.pair0, s.fold.pair1].filter fun p => p.st != .failed).map (·.bank)
  | 2 => (upto 0 144).map fun r => (s.region r).runBank
  | 3 => (upto 0 20).map fun k => (s.stack k).runBank
  | 4 => (upto 0 18).map fun n => (tget s.fabric.ports n).runBank
  | _ => (upto 0 4).map fun p => (s.port p).runBank
/-- Does any instance run from a bank? -/
def State.bankUsed (s : State) (b : Nat) : Bool := (upto 1 5).any fun c => (s.instances c).contains b
/-- The entry of a component in a bank's set. -/
def Bank.comp (B : Bank) (c : Nat) : FwComp := B.fw.comps.toList.getD (c - 1) {}
/-- Once every instance of a component runs from a bank whose FLOOR is above the fused floor, the floor is blown (R669); once every
instance of all runs from one bank, that is the active bank (R642). -/
def State.fwSettle (s : State) : State :=
  let s := (upto 1 5).foldl (fun s c =>
    (upto 0 2).foldl (fun s b =>
      let f := ((s.fold.bank b).comp c).floor.val
      if (s.instances c).all (· == b) && decide (f > s.ident.floors.getD (c - 1) 0) then
        (s.modIdent fun I => { I with floors := listMod I.floors (c - 1) fun _ => f }).unitEvent 0xB005 c [c, f]
      else s) s) s
  match (upto 0 2).find? fun b => (upto 1 5).all fun c => (s.instances c).all (· == b) with
  | some b => s.modFold fun F => { F with activeBank := b }
  | none => s
/-- An instance runs a bank now: event 0xA007 names component, target and bank. -/
def State.activated (s : State) (comp target bank : Nat) : State := (s.unitEvent 0xA007 comp [comp, target, bank]).fwSettle

end Sys2Proof.Machine
end

