-- ==== Sys2Proof/Machine/Keys.lean ====
section
/-! DEFINITION. Keys of the secure element: P-384, KeyGen, the DICE layers (R658-R660). -/
namespace Sys2Proof.Machine

/-! ### The curve P-384 -/

def p384 : Nat := 2 ^ 384 - 2 ^ 128 - 2 ^ 96 + 2 ^ 32 - 1
/-- The order of the base point. -/
def n384 : Nat := 0xFFFFFFFFFFFFFFFFFFFFFFFFFFFFFFFFFFFFFFFFFFFFFFFFC7634D81F4372DDF581A0DB248B0A77AECEC196ACCC52973
/-- The base point. -/
def g384 : Nat × Nat :=
  (0xAA87CA22BE8B05378EB1C71EF320AD746E1D3B628BA79B9859F741E082542A385502F25DBF55296C3A545E3872760AB7,
   0x3617DE4A96262C6F5D9E98BF9292DC29F8F41DBD289A147CE9DA3113B5F0B8C00A60B1CE1D7E819D7A431D7C90EA0E5F)
/-- `x ^ e` modulo p, over the low `n` bits of `e`. -/
def powMod (x e : Nat) : Nat → Nat
  | 0 => 1
  | n + 1 =>
    let h := powMod x (e / 2) n
    let h2 := h * h % p384
    if e % 2 = 1 then h2 * x % p384 else h2
def invMod (x : Nat) : Nat := powMod x (p384 - 2) 384
/-- A difference modulo p. -/
def subMod (a b : Nat) : Nat := (a + p384 - b % p384) % p384
/-- A point; none is the point at infinity. -/
abbrev Point := Option (Nat × Nat)
/-- The sum of two points of y² = x³ - 3x + b. -/
def addPoint (a b : Point) : Point :=
  match a, b with
  | none, q => q
  | q, none => q
  | some (x1, y1), some (x2, y2) =>
    if x1 = x2 ∧ (y1 + y2) % p384 = 0 then none
    else
      let l := if x1 = x2 then subMod (3 * x1 * x1 % p384) 3 * invMod (2 * y1 % p384) % p384 else subMod y2 y1 * invMod (subMod x2 x1) % p384
      let x3 := subMod (subMod (l * l % p384) x1) x2
      some (x3, subMod (l * subMod x1 x3 % p384) y1)
/-- `k` times a point, over the low `n` bits of `k`. -/
def mulPoint (q : Point) (k : Nat) : Nat → Point
  | 0 => none
  | n + 1 =>
    let h := mulPoint q (k / 2) n
    let h2 := addPoint h h
    if k % 2 = 1 then addPoint h2 q else h2

/-! ### Derivation (R658-R660) -/

/-- HKDF-Expand of 48 bytes: its first block (RFC 5869). -/
def expand48 (prk info : List Byte) : Nat := ofBytesBE (hmac384 prk (info ++ [1]))
/-- The bytes of a label. -/
def labelBytes (s : String) : List Byte := s.toList.map fun c => BitVec.ofNat 8 c.toNat
/-- The private key that KeyGen draws: the first counter whose number is in range, of 256. -/
def keyFrom (cdi : List Byte) (label : String) (c : Nat) : Nat → Nat
  | 0 => 0
  | n + 1 =>
    let k := expand48 cdi (labelBytes label ++ toBytes c 1)
    if 1 ≤ k ∧ k < n384 then k else keyFrom cdi label (c + 1) n
/-- KeyGen (R659): private key and public point. -/
def keyGen (cdi : List Byte) (label : String) : Nat × Point :=
  let k := keyFrom cdi label 0 256
  (k, mulPoint (some g384) k 384)
/-- The first compound device identifier (R658). -/
def cdi0 : List Byte := hmac384 Config.deviceSecret (sha384 Config.bootRom)
/-- The device identity key (R658). -/
def deviceId : Nat × Point := keyGen cdi0 "DEVID"
/-- The alias key for a FUFIN by its digest and security version (R660). -/
def aliasKey (fufin : Nat) (svn : Nat) : Nat × Point := keyGen (hmac384 cdi0 (toBytesBE fufin 48 ++ toBytes svn 4)) "ALIAS"

end Sys2Proof.Machine
end

