-- ==== Sys2Proof/Machine/Points.lean ====
section
/-! DEFINITION. Ceilings, voltage points and requested changes of FMULT (R359, R360, R561-R565). -/
namespace Sys2Proof.Machine

/-! ### Ceilings and voltages (R561-R563, R565) -/

/-- V(k) in mV. -/
def pointMv (k : Nat) : Nat := 550 + 50 * k
/-- The in-service ceiling entry k of a tile: the lower of the fused and the recorded value. -/
def State.ceil (s : State) (t k : Nat) : Nat :=
  let f := Config.fusedCeiling t k % 128
  match tget s.power.ceil (8 * t + k) with
  | some v => min f v
  | none => f
/-- Active tiles of a region: those bound to a licensed ID. -/
def State.activeTiles (s : State) (r : Nat) : List Nat := (regionTiles r).filter fun t => (s.lidOf t).isSome
/-- C_r(k): the lowest entry among the active tiles; a region without any is held by the top FMULT alone. -/
def State.regionCeil (s : State) (r k : Nat) : Nat := (s.activeTiles r).foldl (fun m t => min m (s.ceil t k)) 74
/-- The highest FMULT a region may run. -/
def State.topFmult (s : State) (r : Nat) : Nat := min 74 (s.regionCeil r 7)
/-- The compute rail's setpoint in mV for an FMULT. -/
def State.voltFor (s : State) (r f : Nat) : Nat :=
  match (upto 0 8).find? fun k => decide (f ≤ s.regionCeil r k) with
  | none => pointMv 7
  | some 0 => pointMv 0
  | some (k + 1) =>
    let lo := s.regionCeil r k
    pointMv k + 5 * cdiv (10 * (f - lo)) (s.regionCeil r (k + 1) - lo)

/-! ### Changes of FMULT (R359, R360, R564) -/

/-- Does the region have a clock to change: is it on or idle, and not tripped? -/
def Region.live (R : Region) : Bool := (R.power == .on || R.power == .idle) && !R.tripped
/-- A change of FMULT is requested: a raise moves the voltage first; a lower request abandons a raise that still slews; a
region whose clock is off takes the value at its wake. -/
def State.askFmult (s : State) (r f : Nat) : State :=
  let R := s.region r
  if !R.live then s.setRegion r { R with fmult := f, pendingFmult := none, slewTo := none }
  else
    let now := R.changing.getD R.fmult
    if f > now then
      let v := s.voltFor r f
      s.setRegion r { R with pendingFmult := some f, slewTo := if v > R.voltMv then some v else none }
    else s.setRegion r { R with pendingFmult := if f = now then none else some f, slewTo := none }
/-- A lowering to FMULT 16 that hardware forces; it is never deferred, but a change under way ends first. -/
def State.forceLow (s : State) (r : Nat) : State :=
  let R := s.region r
  if !R.live then s.setRegion r { R with fmult := 16, pendingFmult := none, slewTo := none }
  else
    match R.changing with
    | some _ => s.setRegion r { R with pendingFmult := some 16, slewTo := none }
    | none => if R.fmult = 16 then s.setRegion r { R with pendingFmult := none, slewTo := none }
              else s.setRegion r { R with changing := some 16, pendingFmult := none, slewTo := none, stopped := true, regionLock := false }

end Sys2Proof.Machine
end

