-- ==== Sys2Proof/Machine/Jobs.lean ====
section
/-! DEFINITION. Jobs and paddocks: state changes, pre-emption, save areas, restores, CLEARING, release, the geometry table
(R35-R50, R423-R435, R487-R500, R672-R677, R725). -/
namespace Sys2Proof.Machine

/-! ### Tile resets and clearing (R86, R248, R675, R692) -/

/-- A core after a tile reset: stopped, every field zero; private memory's own state stays. -/
def Core.wiped (c : Core) : Core := { privUpset := c.privUpset, privWritten := c.privWritten }
/-- Registers that a tile reset leaves: the zone map and the repairs. -/
def srKept (n : Nat) : Bool := (decide (0xA00 ≤ n) && decide (n < 0xA08)) || n == 0xA0C
/-- A tile after a tile reset: scratchpad, zone map, private memory, bypasses and spares stay (R692). -/
def Tile.resetState (T : Tile) : Tile := { T with
  arr := { bypass := T.arr.bypass, exhausted := T.arr.exhausted, pendingBypass := T.arr.pendingBypass,
           parityBlocks := T.arr.parityBlocks, ueRows := T.arr.ueRows, tick := T.arr.tick }
  core0 := T.core0.wiped
  core1 := T.core1.wiped
  seqr := {}
  chans := []
  held := []
  net := { nextTxn := T.net.nextTxn, bmap := T.net.bmap }
  sched := { mem := T.sched.mem, cal := T.sched.cal }
  sends := []
  xtcHit := 0
  xtcMiss := 0
  notes := []
  spore := { T.spore with gleaned := 0, fromFold := 0, received := [], count := 0 }
  sr := T.sr.filter fun e => srKept e.1
  spd := { T.spd with wait := [] } }
/-- Readers other than cores forget what R16 keeps for them of the registers from a key on. -/
def State.dropShadows (s : State) (lo n : Nat) : State :=
  let keep := fun (e : Nat × Option Nat) => decide (e.1 < lo) || decide (lo + n ≤ e.1)
  { s with fold := { s.fold with shadow := s.fold.shadow.filter keep, heldLo := s.fold.heldLo.filter keep } }
/-- A tile reset: the combining buffer is flushed first (R188, R692). -/
def State.resetTile (s : State) (t : Nat) : State := ((s.cbFlushAll t).modTile t Tile.resetState).dropShadows (2 ^ 40 + t * 2 ^ 16) 0x1000
/-- A region reset: its four tiles, dispatch unit and translation caches (R692). -/
def State.resetRegion (s : State) (r : Nat) : State :=
  let s := (regionTiles r).foldl (fun s t => s.resetTile t) s
  let s := s.modRegion r fun R => { R with slot0 := {}, slot1 := {}, dspErr := 0, stlb := [], wcache := [] }
  { s with mmu := { s.mmu with walks := s.mmu.walks.filter fun (w : Walk) => w.region != r } }
/-- The whole private memory of both cores becomes zero. -/
def State.zeroPriv (s : State) (t : Nat) : State :=
  (s.zeroKeys (privKey t 0 0) (2 ^ 18)).modTile t fun T => { T with core0 := { T.core0 with privUpset := [], privWritten := [] }, core1 := { T.core1 with privUpset := [], privWritten := [] } }
/-- Everything of a tile's CLEARING but the scratchpad's zero-fill, which starts (R675, R676). -/
def State.clearTile (s : State) (t : Nat) : State :=
  let s := (s.zeroPriv t).modTile t fun T =>
    { T.resetState with sched := { cal := T.sched.cal }, tlb := [], droves := [], preempting := false, atPoint := false }
  let s := s.startFill t
  { s with org := { s.org with toFill := setIns s.org.toFill t } }

/-! ### The geometry table and bindings (R27, R36-R44, R725) -/

/-- The geometry table is updated for some logical IDs: GEN passes through an odd value to the next even one (R44, R47). -/
def State.geoUpdate (s : State) (ids : List Nat) : State :=
  let g := (s.org.geoGen + 2) % 2 ^ 32
  { s with org := { s.org with geoGen := g, geoChanged := ids.foldl (fun tb l => tput tb l g) s.org.geoChanged } }
/-- IDs bound to tiles of some regions. -/
def State.idsIn (s : State) (rs : List Nat) : List Nat := (upto 0 540).filter fun l => (s.tileOf l).elim false fun t => rs.contains (regionOf t)
/-- The tile that R27 gives an ID whose tile is lost or that is newly licensed, among tiles that `ok` allows. -/
def State.choose27 (s : State) (l : Nat) (ok : Nat → Bool) : Option Nat :=
  let d := designated l
  let f := l / 60
  let free := fun t => s.freeTile t && ok t
  if s.freeTile d then some d
  else match (upto 0 4).map (tileInRegion (regionOf d)) |>.find? (fun t => s.freeTile t) with
    | some t => some t
    | none => (((upto 0 64).map (tileAtPos f)).reverse).find? free
/-- An ID is bound to a tile, or becomes a hole; as a member of paddock `p` it is lent where `p` does not own the region (R37). -/
def State.bind (s : State) (l : Nat) (t : Option Nat) (p : Nat) : State :=
  let b : Bind := match t with
    | none => .hole
    | some x => if x = designated l then .designated else .tile x
  let lent := match t with
    | some x => if p ≠ 0 ∧ s.owner (regionOf x) ≠ p then some p else none
    | none => none
  let s := match t with
    | some x => s.defect 0x0D 0x9103 [l, x] (((s.tileOf l).map (· + 1)).getD 0)
    | none => s
  { s with
    org := { s.org with binds := tput s.org.binds l b, lent := tput s.org.lent l lent, stranded := setDel s.org.stranded l }
    -- Fufin updates every binding map (R315)
    tiles := s.tiles.foldl (fun tb (e : Nat × Tile) => if (tget e.2.net.bmap l).isSome then tput tb e.1 { e.2 with net := { e.2.net with bmap := tput e.2.net.bmap l none } } else tb) s.tiles }

/-- Event 0x9107 where an ID's binding took the last free tile of its field (R615). -/
def State.tookLast (s : State) (l : Nat) (to_ : Option Nat) : State :=
  let f := l / 60
  if to_.isSome && !((upto 0 64).any fun i => s.freeTile (tileAtPos f i)) then s.raise { code := 0x9107, unit := f, detail := [f] } else s
/-- An unowned region takes the IDs that a licence raise left waiting, once no lost tile is to be handled (R620, R622). -/
def State.bindWaiting (s : State) : State :=
  let ok := fun t => s.owner (regionOf t) == 0 && !s.org.clearing.contains (regionOf t)
  let ready := s.org.toBind.filter fun l => ok (designated l)
  if ready.isEmpty || !s.org.lost.isEmpty then s
  else
    let s := ready.foldl (fun s l =>
      let to_ := s.choose27 l fun t => s.owner (regionOf t) == 0 && !s.org.clearing.contains (regionOf t)
      let s := (s.bind l to_ 0).tookLast l to_
      if to_.isNone then s.raise { code := 0x9102, lid := l, detail := [l] } else s) s
    let s := { s with org := { s.org with toBind := s.org.toBind.filter fun l => !ready.contains l } }
    (s.geoUpdate ready).raise { code := 0x9105, detail := [s.org.variant.perField] }

/-- A tile that an ID leaves is cleared singly before it can be free (R29, R674). -/
def State.vacate (s : State) (t : Nat) : State :=
  let s := { s with org := { s.org with clearingTiles := setIns s.org.clearingTiles t } }
  s.clearTile t

/-! ### Event records of jobs -/

def State.jobEvent (s : State) (code j : Nat) (detail : List Nat) : State :=
  let J := s.job j
  s.raise { code := code, job := j, paddock := J.paddock, ctx := some J.ctx, fn := J.fn, detail := detail }

/-! ### Job states (R495-R500) -/

def State.modJob (s : State) (j : Nat) (f : Job → Job) : State := s.setJob j (f (s.job j))
def State.modPaddock (s : State) (p : Nat) (f : Paddock → Paddock) : State := s.setPaddock p (f (s.paddock p))

/-- A job's state changes; the time it spends RUNNING is counted (R493). -/
def State.jobTo (s : State) (j : Nat) (st : JobState) : State :=
  s.modJob j fun J =>
    let ran := match J.runFrom with | some f => s.time - f | none => 0
    { J with state := st, runNs := J.runNs + ran, runFrom := if st = .running then some s.time else none }

/-- Frames of a save area for the paddock as it stands (R433). -/
def State.areaFrames (s : State) (p : Nat) : Nat :=
  let ts := s.memberTiles p
  let g := ((ts.map regionOf).foldl setIns []).length
  (0x50000 + g * 0x100000 + ts.length * 0x920000) / 4096

/-- The job has a save area big enough, or is given one; none where HBM has no room (R432). -/
def State.takeArea (s : State) (j p : Nat) : Option State :=
  let n := s.areaFrames p
  let have_ := (s.job j).area.frames
  if have_.length ≥ n then some s
  else
    let s' := s.setFrames have_ .free
    match s'.findFrames 0xFF n 1 with
    | none => none
    | some fs => some ((s'.setFrames fs (.save j)).modJob j fun J => { J with area := { J.area with frames := fs, bytes := 4096 * n } })

/-- The job's save area is zero-filled and freed (R432). -/
def State.dropArea (s : State) (j : Nat) : State :=
  (s.freeFrames (s.job j).area.frames).modJob j fun J => { J with area := {}, saved := false }

/-- Every pending request of the kinds that `p` selects completes with a status, those of a lower kind number first. -/
def State.answerOwed (s : State) (j : Nat) (p : Owed → Bool) (status : Nat) : State :=
  let os := (s.job j).owed.filter p
  let s := s.modJob j fun J => { J with owed := J.owed.filter fun o => !p o }
  os.foldl (fun s o => s.finish o status 0 0 j) s

/-- A paddock's hurdle state leaves every node. -/
def State.clearHurdles (s : State) (p : Nat) : State :=
  let rest := fun (l : List HMsg) => l.filter fun m => m.paddock != p
  { s with net := { s.net with
      hurdles := s.net.hurdles.filter (fun e => e.1 / 64 % 65536 != p)
      harms := rest s.net.harms, hpasses := rest s.net.hpasses, hdones := rest s.net.hdones } }

/-- Every handle of a tile's cores is closed (R265). -/
def Tile.closeHandles (T : Tile) : Tile := { T with
  core0 := { T.core0 with q := [], hurdles := [] }, core1 := { T.core1 with q := [], hurdles := [] }
  chans := tmap (fun (c : Channel) => { c with open_ := false }) T.chans }

/-- Member tiles leave their pre-emption: what was stopped goes on, or has been ended. -/
def State.unfreeze (s : State) (p : Nat) : State :=
  let s := s.modPaddock p fun P => { P with preempt := false, frozen := false, reported := [] }
  let ts := s.memberTiles p
  ts.foldl (fun s t => s.modTile t fun T => { T with
    preempting := false, atPoint := false
    seqr := { T.seqr with passes := T.seqr.passes.map fun (x : PassRun) => { x with split := false } } }) s

/-- The cores of a paddock stop. -/
def State.stopCores (s : State) (p : Nat) : State :=
  (s.memberTiles p).foldl (fun s t => s.modTile t fun T => { T with core0 := { T.core0 with running := false }, core1 := { T.core1 with running := false } }) s

/-- Faults of a job that nothing waits on any more are forgotten, their IDs counting as resolved (R413, R419). -/
def State.dropFaults (s : State) (j : Nat) : State :=
  let mine := fun (f : Fault') => f.id / 2 ^ 32 == j % 2 ^ 32
  { s with mmu := { s.mmu with
      resolvedIds := (s.mmu.faults.filter mine).foldl (fun l f => setIns l f.id) s.mmu.resolvedIds
      faults := s.mmu.faults.filter fun f => !mine f } }

/-- A terminal job's handle is held until 1,024 newer jobs of its function are terminal (R494). -/
def State.retireHandles (s : State) (fn : Nat) : State :=
  let mine := s.host.jobs.filter fun e => e.2.live && e.2.fn == fn && e.2.terminal
  let gone := mine.filter fun e => decide ((mine.filter fun x => decide (x.2.order > e.2.order)).length ≥ 1024)
  gone.foldl (fun s e => s.modJob e.1 fun _ => {}) s

/-- A job ends: pending requests complete, then the job's own command; its area is freed and its paddock is free of it
(R242, R498, R500). -/
def State.endJob (s : State) (j : Nat) (st : JobState) (status : Nat) : State :=
  let J := s.job j
  let p := J.paddock
  let wasResident := (s.paddock p).resident == some j && J.kind == .compute
  let s := if wasResident then
      let s := (s.stopCores p).unfreeze p
      ((s.memberTiles p).foldl (fun s t => s.modTile t Tile.closeHandles) s).clearHurdles p
    else s
  let s := (s.jobTo j st).modJob j fun J => { J with status := status, holdHost := false, holdGeo := false, holdDev := false, suspendNext := false, resumeNext := false, cancelNext := false }
  let s := s.dropArea j
  let s := s.dropFaults j
  let s := if J.kind = .compute then s.modPaddock p fun P => { P with
      jobs := P.jobs.filter (· != j), resident := if P.resident = some j then none else P.resident,
      saving := if wasResident then false else P.saving, restoring := if wasResident then false else P.restoring } else s
  let s := s.answerOwed j (fun o => o.kind == 1 || o.kind == 2) 0x14
  let s := s.answerOwed j (fun o => o.kind == 3) 0
  let J := s.job j
  let final := if st = .failed then status else 0
  let s := J.owed.foldl (fun s o => s.finish o final (J.exitLid % 2 ^ 16 * 2 ^ 32 + b01 (J.exitCore == 1) * 2 ^ 48) J.exitStatus j) s
  (s.modJob j fun J => { J with owed := [] }).retireHandles J.fn

/-! ### CLEARING (R39, R674-R677) -/

/-- What a region's CLEARING releases besides its tiles' state: the paddock's layer slots and the context's cached
translations (R675). -/
def State.clearRegionUnits (s : State) (r p : Nat) : State :=
  let c := (s.paddock p).ctx
  s.modRegion r fun R => { R with
    slot0 := if R.slot0.heldBy = some p then {} else R.slot0
    slot1 := if R.slot1.heldBy = some p then {} else R.slot1
    stlb := R.stlb.filter fun e => e.ctx != c }

/-- Tiles of a region that its CLEARING writes: not those another paddock has lent into it, nor unfit ones. -/
def State.clearedTiles (s : State) (r : Nat) : List Nat :=
  (regionTiles r).filter fun t => s.fit t && !((s.lidOf t).elim false fun l => (tget s.org.lent l).isSome)

/-- A region enters CLEARING; one that is OFF leaves it at once, a dead one does not enter it (R621, R676). -/
def State.clearRegion (s : State) (p r : Nat) : State :=
  let s := s.clearRegionUnits r p
  let R := s.region r
  if s.org.dead.contains r then s
  else if R.power = .off then s
  else
    let ts := s.clearedTiles r
    let s := { s with org := { s.org with clearing := setIns s.org.clearing r } }
    let s := ts.foldl (fun s t => s.clearTile t) s
    if R.power = .nap then s.wantWake r else s

/-- A paddock's regions and lent tiles enter CLEARING. -/
def State.clearPaddock (s : State) (p : Nat) : State :=
  let lent := (s.members p).filter fun l => (tget s.org.lent l).isSome
  let s := lent.foldl (fun s l => match s.tileOf l with
    | some t => ({ s with org := { s.org with clearingTiles := setIns s.org.clearingTiles t } }).clearTile t
    | none => s) s
  ((s.paddock p).regions).foldl (fun s r => s.clearRegion p r) s

/-- Is CLEARING of a paddock's regions and of the tiles lent to it over? -/
def State.clearOver (s : State) (p : Nat) : Bool :=
  ((s.paddock p).regions.all fun r => !s.org.clearing.contains r) &&
  ((upto 0 540).all fun l => tget s.org.lent l != some p || (s.tileOf l).elim true fun t => !s.org.clearingTiles.contains t)

/-! ### Pre-emption (R423-R432) -/

/-- Fufin starts a pre-emption of a paddock: PREEMPT goes to every member tile and to each dispatch unit serving it, and
regions below FMULT 56 are asked to reach it (R424, R427). -/
def State.beginPreempt (s : State) (p : Nat) : State :=
  if (s.paddock p).preempt then s
  else
    let s := s.modPaddock p fun P => { P with preempt := true, frozen := false, reported := [] }
    ((s.memberTiles p).foldl (fun l t => setIns l (regionOf t)) []).foldl (fun s r =>
      let R := s.region r
      let f := min 56 (min R.limit (s.topFmult r))
      if R.fmult < f ∧ !R.forced ∧ R.live then s.askFmult r f else s) s

/-- Saved bytes of a key range, by offset. -/
def State.savedBytes (s : State) (lo n : Nat) : List (Nat × Byte) × List Nat :=
  ((s.mem.filter fun c => decide (lo ≤ c.1) && decide (c.1 < lo + n)).map (fun c => (c.1 - lo, c.2)),
   (s.marks.filter fun k => decide (lo ≤ k) && decide (k < lo + n)).map (· - lo))

/-- One tile as the save area holds it (R434). -/
def State.saveTile (s : State) (t : Nat) : SavedTile :=
  let (b, m) := s.savedBytes (spdKey t 0) (2 ^ 23)
  let (pb, pm) := s.savedBytes (privKey t 0 0) (2 ^ 18)
  { lid := s.lidOr t, tile := s.tile t, spd := b, spdMarks := m, priv := pb, privMarks := pm }

/-- The save of a paddock's resident job: tile blocks by rank, its layer slots and its hurdle state (R433). -/
def State.saveJob (s : State) (j p : Nat) : State :=
  let ts := s.memberTiles p
  let rs := (ts.map regionOf).foldl setIns []
  let slots := rs.flatMap fun r =>
    let R := s.region r
    (if R.slot0.heldBy = some p then [(2 * r, R.slot0)] else []) ++ (if R.slot1.heldBy = some p then [(2 * r + 1, R.slot1)] else [])
  let hs := s.net.hurdles.filter fun e => e.1 / 64 % 65536 == p
  let mine := fun (l : List HMsg) => l.filter fun m => m.paddock == p
  let s := s.modJob j fun J => { J with saved := true, area := { J.area with
    made := true, mixed := (s.paddock p).mixed, tiles := ts.map s.saveTile, slots := slots, hurdles := hs
    harms := mine s.net.harms, hpasses := mine s.net.hpasses, hdones := mine s.net.hdones } }
  -- the units are left empty; scratchpads and arrays keep their contents for the context's next job (R674)
  let s := ts.foldl (fun s t => s.modTile t fun T => { T with
    core0 := T.core0.wiped, core1 := T.core1.wiped, seqr := {}, chans := [], held := [], notes := [],
    sched := { cal := T.sched.cal, mem := T.sched.mem }, sends := [], preempting := false, atPoint := false }) s
  let s := rs.foldl (fun s r => s.modRegion r fun R => { R with
    slot0 := if R.slot0.heldBy = some p then {} else R.slot0, slot1 := if R.slot1.heldBy = some p then {} else R.slot1 }) s
  ((s.clearHurdles p).unfreeze p).modPaddock p fun P => { P with resident := none, saving := false }

/-- Bytes put back from a save area. -/
def State.putSaved (s : State) (lo n : Nat) (b : List (Nat × Byte)) (m : List Nat) : State :=
  let s := s.zeroKeys lo n
  let s := { s with mem := b.foldl (fun mm (e : Nat × Byte) => tput mm (lo + e.1) e.2) s.mem }
  { s with marks := m.foldl (fun l k => setIns l (lo + k)) s.marks }

/-- A tile restored from its block (R430, R434): what belongs to the silicon stays the tile's own. -/
def State.restoreTile (s : State) (t : Nat) (b : SavedTile) (mixed : Bool) : State :=
  let s := s.putSaved (spdKey t 0) (2 ^ 23) b.spd b.spdMarks
  let s := s.putSaved (privKey t 0 0) (2 ^ 18) b.priv b.privMarks
  s.modTile t fun T =>
    let A := b.tile.arr
    { T with
      arr := { A with bypass := T.arr.bypass, exhausted := T.arr.exhausted, pendingBypass := T.arr.pendingBypass,
                      parityBlocks := T.arr.parityBlocks, ueRows := T.arr.ueRows }
      core0 := b.tile.core0, core1 := b.tile.core1
      seqr := b.tile.seqr, chans := b.tile.chans, held := b.tile.held, notes := b.tile.notes
      net := { T.net with tx := b.tile.net.tx, rx := b.tile.net.rx }
      sched := if mixed then { b.tile.sched with cal := T.sched.cal } else T.sched
      droves := b.tile.droves, sends := b.tile.sends
      spd := { T.spd with upset := [], checkBack := [], cb := [], wait := b.tile.spd.wait }
      sr := (b.tile.sr.filter fun (e : Nat × Option Nat) => e.1 != 0xA0C).foldl (fun tb (e : Nat × Option Nat) => tput tb e.1 e.2) (T.sr.filter fun (e : Nat × Option Nat) => e.1 == 0xA0C)
      xtcHit := b.tile.xtcHit, xtcMiss := b.tile.xtcMiss
      preempting := false, atPoint := false }

/-- A saved job's state is put back onto its paddock (R430). -/
def State.restoreJob (s : State) (j p : Nat) : State :=
  let A := (s.job j).area
  let s := (A.tiles.zip (s.memberTiles p)).foldl (fun s e => s.restoreTile e.2 e.1 A.mixed) s
  let s := A.slots.foldl (fun s e => s.modRegion (e.1 / 2) fun R => if e.1 % 2 = 0 then { R with slot0 := e.2 } else { R with slot1 := e.2 }) s
  let s := { s with net := { s.net with 
      hurdles := A.hurdles.foldl (fun tb (e : Nat × HNode) => tput tb e.1 e.2) s.net.hurdles
      harms := s.net.harms ++ A.harms, hpasses := s.net.hpasses ++ A.hpasses, hdones := s.net.hdones ++ A.hdones } }
  s.modJob j fun J => { J with saved := false, area := { J.area with made := false, tiles := [], slots := [], hurdles := [], harms := [], hpasses := [], hdones := [] } }

/-- Can a saved job be restored onto its paddock (R430)? -/
def State.restorable (s : State) (j : Nat) : Bool :=
  let J := s.job j
  J.area.tiles.map (·.lid) == s.members J.paddock && J.area.mixed == (s.paddock J.paddock).mixed

/-- A save of the frozen resident job starts, where there is room for it (R432). -/
def State.startSave (s : State) (p : Nat) : State :=
  match (s.paddock p).resident with
  | none => s
  | some j => match s.takeArea j p with
    | none => s
    | some s => s.modPaddock p fun P => { P with saving := true }

/-- A restore, or a resume in place, of a job on its free paddock starts. -/
def State.startRestore (s : State) (j p : Nat) : State := s.modPaddock p fun P => { P with resident := some j, restoring := true }

/-- Is a paddock free for a job (R496)? -/
def State.padFree (s : State) (p : Nat) : Bool :=
  let P := s.paddock p
  P.live && !P.releasing && P.resident.isNone && !P.saving && !P.restoring && s.clearOver p

/-- A job whose last hold is cleared resumes: in place, or from its save area when its paddock is free (R496, R497). -/
def State.tryResume (s : State) (j : Nat) : State :=
  let J := s.job j
  if J.state ≠ .suspended ∨ J.holds ≠ 0 then s
  else
    let s := s.jobTo j .resuming
    if !J.saved then s.startRestore j J.paddock
    else if s.padFree J.paddock then s.startRestore j J.paddock else s

/-- A hold is set on a compute job (R498). -/
def State.holdJob (s : State) (j : Nat) (set : Job → Job) : State :=
  let s := s.modJob j set
  let J := s.job j
  match J.state with
  | .running =>
    if J.descheduled then (s.jobTo j .suspended).modJob j fun J => { J with descheduled := false }
    else (s.jobTo j .suspending).beginPreempt J.paddock
  | .resuming => s.modJob j fun J => { J with suspendNext := true }
  | _ => s

/-- A job is cancelled (R497, R498). -/
def State.cancelJob (s : State) (j : Nat) : State :=
  let J := s.job j
  let resident := (s.paddock J.paddock).resident == some j && !J.saved
  match J.state with
  | .queued | .deferred => s.endJob j .cancelled 0
  | .running => if J.descheduled then s.endJob j .cancelled 0 else (s.jobTo j .cancelling).beginPreempt J.paddock
  | .suspending => (s.jobTo j .cancelling).beginPreempt J.paddock
  | .suspended =>
    if resident then
      let s := s.jobTo j .cancelling
      let s := s.modPaddock J.paddock fun P => { P with saving := false }
      s.clearPaddock J.paddock
    else s.endJob j .cancelled 0
  | .resuming => if (s.paddock J.paddock).restoring && (s.paddock J.paddock).resident == some j then s.modJob j fun J => { J with cancelNext := true }
                 else s.endJob j .cancelled 0
  | _ => s

/-! ### Shrinking, re-placing, releasing (R487-R489) -/

/-- Regions leave a paddock: they enter CLEARING and then are unowned (R487); a dead region leaves without it (R621). -/
def State.doShrink (s : State) (p : Nat) (rs : List Nat) : State :=
  let ids := s.idsIn rs
  let s := rs.foldl (fun s r => s.clearRegion p r) s
  (s.modPaddock p fun P => { P with regions := P.regions.filter fun r => !rs.contains r }).geoUpdate ids

/-- Re-bindings of a REPLACE_PADDOCK take effect (R488); the ID's old tile is cleared, and the placement-changed event
names the IDs with their old and new tiles (R619). -/
def State.doRebind (s : State) (p : Nat) (pairs : List (Nat × Nat)) : State :=
  let olds := pairs.map fun e => (e.1, (s.tileOf e.1).getD 1023, e.2)
  let s := pairs.foldl (fun s e => s.bind e.1 (some e.2) p) s
  let s := olds.foldl (fun s e => if e.2.1 < 576 ∧ e.2.1 ≠ e.2.2 then s.vacate e.2.1 else s) s
  let s := s.geoUpdate (pairs.map (·.1))
  s.raise { code := 0x9101, paddock := p, ctx := some (s.paddock p).ctx, fn := (s.ctx (s.paddock p).ctx).fn,
            job := ((s.paddock p).resident).getD 0, detail := s.org.geoGen :: olds.flatMap fun e => [e.1, e.2.1, e.2.2] }

/-- The GEOMETRY hold of every suspended job of a paddock is lifted (R488). -/
def State.liftGeometry (s : State) (p : Nat) : State :=
  (s.paddock p).jobs.foldl (fun s j => (s.modJob j fun J => { J with holdGeo := false }).tryResume j) s

/-- A paddock with no job left is released: drove and hurdle state discarded, CLEARING entered, the ID freed and the
final completion written (R489). -/
def State.releaseIfReady (s : State) (p : Nat) : State :=
  let P := s.paddock p
  if !P.live || !P.releasing || !P.jobs.isEmpty || !s.clearOver p then s
  else
    let s := s.clearHurdles p
    let s := { s with
      tiles := s.tiles.foldl (fun tb (e : Nat × Tile) => if e.2.droves.any (·.tag == p) then tput tb e.1 { e.2 with droves := e.2.droves.filter (·.tag != p) } else tb) s.tiles
      net := { s.net with
        routers := s.net.routers.foldl (fun tb (e : Nat × Router) => if e.2.forks.any fun (f : Fork) => f.tag == p then tput tb e.1 { e.2 with forks := e.2.forks.filter fun (f : Fork) => f.tag != p } else tb) s.net.routers } }
    let ids := s.members p ++ s.idsIn P.regions
    let s := s.clearPaddock p
    -- lent tiles keep their binding and are stranded once their CLEARING ends (R725)
    let lent := (upto 0 540).filter fun l => tget s.org.lent l == some p
    let s := { s with org := { s.org with
      lent := lent.foldl (fun tb l => tput tb l none) s.org.lent, stranded := lent.foldl setIns s.org.stranded } }
    let s := (s.setPaddock p {}).geoUpdate ids
    match P.releaseBy with
    | some o => s.finish o 0 0 0 0
    | none => s

/-- A paddock's release begins: every job that is not terminal is cancelled (R489). -/
def State.beginRelease (s : State) (p : Nat) (o : Option Owed) : State :=
  let s := s.modPaddock p fun P => { P with releasing := true, releaseBy := o }
  let s := (s.paddock p).jobs.foldl (fun s j => s.cancelJob j) s
  s.releaseIfReady p

/-! ### The frozen paddock (R424, R428, R497) -/

/-- The column bypasses that waited for a suspension are applied on the member tiles (R82). -/
def State.applyBypasses (s : State) (p : Nat) : State :=
  (s.memberTiles p).foldl (fun s t => s.modTile t fun T =>
    { T with arr := { T.arr with bypass := T.arr.pendingBypass.foldl (fun tb k => tput tb (k / 65) (k % 65 + 1)) T.arr.bypass, pendingBypass := [] } }) s

/-- SUSPENDED is reached: requests that wait for it complete, and a save asked for starts (R498). -/
def State.nowSuspended (s : State) (j p : Nat) : State :=
  let s := s.jobTo j .suspended
  let s := s.applyBypasses p
  let s := s.answerOwed j (fun o => o.kind == 1 && !o.save) 0
  let s := if (s.job j).saveAsked then s.startSave p else s
  -- Fufin clears the hold that a bypass set (R82, R498); a RESUME that waited clears HOST
  let s := s.modJob j fun J => { J with holdDev := false, holdHost := J.holdHost && !J.resumeNext, resumeNext := false }
  if (s.paddock p).saving then s else s.tryResume j

/-- A frozen paddock whose resident job is being cancelled and whose CLEARING is over: CANCELLED is reached (R497). -/
def State.settle (s : State) (p : Nat) : State :=
  let P := s.paddock p
  match P.resident with
  | some j => if (s.job j).state = .cancelling ∧ P.frozen ∧ s.clearOver p then (s.endJob j .cancelled 0).releaseIfReady p else s
  | none => s.releaseIfReady p

/-- What waited for the paddock to be free of its resident job is done (R428, R487, R488). -/
def State.doAfter (s : State) (p : Nat) : State :=
  let P := s.paddock p
  match P.after with
  | none => s
  | some a =>
    let s := s.modPaddock p fun P => { P with after := none }
    match a with
    | .shrink o rs => (s.doShrink p rs).finish o 0 0 0 0
    | .replace o pairs =>
      let s := s.doRebind p pairs
      let s := s.liftGeometry p
      -- a job that ran is restored onto the new tiles; the command completes when its restore has ended
      match P.jobs.find? fun j => (s.job j).state == .running && (s.job j).saved with
      | some j => (s.startRestore j p).modPaddock p fun P => { P with after := some (.replace o []) }
      | none => if (s.paddock p).restoring then s.modPaddock p fun P => { P with after := some (.replace o []) } else s.finish o 0 0 0 0
    | .slice | .switchOff => s

/-- A paddock has been frozen: its resident job goes where the pre-emption was meant to take it. -/
def State.onFrozen (s : State) (p : Nat) : State :=
  match (s.paddock p).resident with
  | none => s
  | some j =>
    match (s.job j).state with
    | .cancelling => (s.clearPaddock p).settle p
    | .suspending => s.nowSuspended j p
    -- a pre-emption for a state move saves nothing (R616)
    | .running => if s.org.moving.any fun m => m.2.2.2 == p then s else (s.applyBypasses p).startSave p
    | _ => s

/-- A save has ended (R428, R429). -/
def State.onSaved (s : State) (p : Nat) : State :=
  match (s.paddock p).resident with
  | none => s
  | some j =>
    let s := s.saveJob j p
    let s := match (s.job j).state, (s.paddock p).after with
      | .running, some .slice => s.modJob j fun J => { J with descheduled := true }
      | _, _ => s
    let s := s.modJob j fun J => { J with saveAsked := false }
    let s := s.answerOwed j (fun o => o.kind == 1) 0
    let s := s.tryResume j
    s.doAfter p

/-- A restore or a resume in place has ended: the job is RUNNING (R430, R497); requests that waited for it take effect. -/
def State.onRestored (s : State) (j p : Nat) : State :=
  let s := if (s.job j).saved then s.restoreJob j p else s
  let s := (s.unfreeze p).modPaddock p fun P => { P with restoring := false }
  let s := (s.jobTo j .running).modJob j fun J => { J with descheduled := false }
  let s := s.answerOwed j (fun o => o.kind == 2) 0
  let s := match (s.paddock p).after with
    | some (.replace o []) => (s.modPaddock p fun P => { P with after := none }).finish o 0 0 0 0
    | _ => s
  let J := s.job j
  if J.cancelNext then (s.modJob j fun J => { J with cancelNext := false }).cancelJob j
  else if J.suspendNext then (s.modJob j fun J => { J with suspendNext := false }).holdJob j id
  else s

/-- A running job fails for a device cause: its cores stop and it ends FAILED (R229, R500). -/
def State.failJob (s : State) (j status : Nat) : State :=
  let J := s.job j
  if J.terminal || !J.live then s
  else
    let p := J.paddock
    let s := if J.kind = .compute && (s.paddock p).resident == some j then s.stopCores p else s
    (s.endJob j .failed status).releaseIfReady p

end Sys2Proof.Machine
end

