-- ==== Sys2Proof/Machine/HostSession.lean ====
section
/-! DEFINITION. Sessions, links, resets of functions, doorbells, and the queue engine's fetches (R471-R481, R504-R506, R716). -/
namespace Sys2Proof.Machine

/-! ### Sessions (R474) -/

/-- The version both sides accept: major times 256 plus minor; none where no major is common. -/
def negotiate (hver : Nat) : Option Nat :=
  let hi := (fld hver 24 8, fld hver 16 8)
  let lo := (fld hver 8 8, fld hver 0 8)
  let host := fun m => if hi.1 = m then some hi.2 else if lo.1 = m then some lo.2 else none
  match host 2 with
  | some n => some (0x200 + min n 4)
  | none => match host 1 with
    | some n => some (0x100 + min n 9)
    | none => none

/-- A session starts: the version is negotiated and the admin queue runs. -/
def State.startSession (s : State) (fn : Nat) : State :=
  let F := s.func fn
  match negotiate F.hver with
  | none => (s.setFunc fn { F with enabled := true, enableHeld := false, verFail := true }).hostEvent 0x6007 fn []
  | some v =>
    let s := s.setFunc fn { F with enabled := true, enableHeld := false, nver := v, ready := true, verFail := false }
    s.setQueue fn 0 { made := true, sqBase := F.asq, cqBase := F.acq, log2Sq := fld F.aqa 0 5, log2Cq := fld F.aqa 16 5, intEn := true }

/-! ### Contexts destroyed, functions reset (R485, R505) -/

/-- Everything of a context goes: translations, walks, faults, frames, tables, fault queue, images (R485). -/
def State.destroyContext (s : State) (c : Nat) : State :=
  let s := s.dropXlate (fun e => e.ctx == c) [c]
  let own := s.host.frames.filter fun e => e.2 == .ctx c || e.2 == .table c || e.2 == .faultQueue c
  let s := s.freeFrames (own.map (·.1))
  let s := { s with mmu := { s.mmu with
    walks := s.mmu.walks.filter fun (w : Walk) => w.ctx != c
    resolvedIds := (s.mmu.faults.filter fun (f : Fault') => f.ctx == c).foldl (fun l (f : Fault') => setIns l f.id) s.mmu.resolvedIds
    faults := s.mmu.faults.filter fun (f : Fault') => f.ctx != c } }
  ((s.setCtx c {}).setMmuCtx c {}).endConsents fun x => x.ctx == c

/-- The last step of a function's reset: contexts, queues, session and registers are cleared (R505). -/
def State.resetDone (s : State) (fn : Nat) : State :=
  let s := (upto 0 256).foldl (fun s c => if s.ctxMine fn c then s.destroyContext c else s) s
  let F := s.func fn
  let keep := F.vfOn || decide (fn < 4)
  let s := { s with
    host := { s.host with
      queues := s.host.queues.filter fun e => e.1 / 4096 != fn
      jobs := s.host.jobs.filter fun (e : Nat × Job) => !(e.2.fn == fn && e.2.kind != JobKind.maintenance) }
    errs := tput s.errs fn {}
    mmu := { s.mmu with invAddr := tput s.mmu.invAddr fn 0, invCmd := tput s.mmu.invCmd fn 0, invDone := tput s.mmu.invDone fn 0,
                        priBlocked := setDel s.mmu.priBlocked fn }
    fold := { s.fold with mail := if fn < 4 then tput s.fold.mail fn {} else s.fold.mail } }
  let s := s.dropShadows (fn * 2 ^ 32) (2 ^ 32)
  let s := s.setFunc fn { vfOn := F.vfOn, queues := if keep then F.queues else 0, contexts := if keep then F.contexts else 0,
                          quota := if keep then F.quota else 0, quotaCut := F.quotaCut, aer := F.aer }
  s.hostEvent 0x6005 fn []

/-- Resets that waited for their paddocks to be released end. -/
def State.resetSettle (s : State) : State :=
  (s.host.funcs.filter (·.2.resetting)).foldl (fun s e =>
    if s.host.paddocks.any (fun p => p.2.live && (s.ctx p.2.ctx).fn == e.1) then s else s.resetDone e.1) s

/-- The reset of one function begins (R505): queues are silent, jobs cancelled, paddocks released. -/
def State.beginReset (s : State) (fn : Nat) : State :=
  let s := s.modFunc fn fun F => { F with resetting := true, enabled := false, ready := false, enableHeld := false }
  -- its SPDM sessions end, and the MCTP endpoint of a physical function's (R663)
  let s := s.endSessions fun x => x.place == fn || (decide (fn < 4) && x.place == 256 + fn)
  let s := { s with host := { s.host with
    queues := s.host.queues.foldl (fun tb (e : Nat × Queue) => if e.1 / 4096 = fn then tput tb e.1 { e.2 with made := false, fetched := [], deleting := none } else tb) s.host.queues
    jobs := s.host.jobs.foldl (fun tb (e : Nat × Job) => if e.2.owed.any (·.fn == fn) then tput tb e.1 { e.2 with owed := e.2.owed.filter (·.fn != fn) } else tb) s.host.jobs } }
  let copies := s.host.jobs.filter fun e => e.2.live && e.2.fn == fn && e.2.kind == .copy && !e.2.terminal
  let s := copies.foldl (fun s e => s.endJob e.1 .cancelled 0) s
  let pads := s.host.paddocks.filter fun e => e.2.live && (s.ctx e.2.ctx).fn == fn
  pads.foldl (fun s e => s.beginRelease e.1 none) s

/-- A function is reset; a physical function's reset also resets and disables its virtual functions. -/
def State.resetFunction (s : State) (fn : Nat) : State :=
  let vfs := if fn < 4 then (vfsOf fn).filter fun v => (s.func v).vfOn else []
  let s := vfs.foldl (fun s v => (s.modFunc v fun F => { F with vfOn := false }).beginReset v) s
  (s.beginReset fn).resetSettle

/-- FNC_DISABLE: clearing ENABLE resets the function. -/
def State.fncDisable (s : State) (fn : Nat) : State := if (s.func fn).enabled || (s.func fn).enableHeld then s.resetFunction fn else s
def execFncDisable (fn : FnIx) (s : State) : Res := .next (s.fncDisable fn)

/-- FLR (R505). -/
def execFlr (fn : FnIx) (s : State) : Res := .next (s.resetFunction fn)

/-- HOST_LINK_DOWN (R506). -/
def execHostLinkDown (p : HostIx) (s : State) : Res :=
  if !(s.port p).up then .next s
  else
    let s := s.setPort p { s.port p with up := false, reads := [] }
    .next ((s.hostEvent 0x6006 p []).resetFunction p)

/-- HOST_LINK_TRAINED (R506): lanes and rate in GT/s, rounded down. -/
def execHostLinkTrained (p : HostIx) (width gt : Nat) (s : State) : Res :=
  let P := s.port p
  if P.perst || P.out then .next s
  else
    let s := s.setPort p { P with up := true, width := width, gt := gt }
    .next (if width < 16 ∨ gt < 64 then s.hostEvent 0x6008 p [width, gt] else s)

/-- PERST_N_ASSERT (R716): the port's link is held in reset and its functions reset; no other port is touched. -/
def execPerstNAssert (p : HostIx) (s : State) : Res :=
  let s := s.setPort p { s.port p with perst := true, up := false, reads := [] }
  .next (s.resetFunction p)

/-- PERST_N_DEASSERT (R716): the link may train. -/
def execPerstNDeassert (p : HostIx) (s : State) : Res := .next (s.setPort p { s.port p with perst := false })

/-- VF_ENABLE (R473): the host sets VF Enable with a number of functions, or clears it. Each function newly enabled has one
queue pair, its admin queue; disabled ones are reset and return their allotments. -/
def execVfEnable (pf : HostIx) (count : Fin 64) (s : State) : Res :=
  let vfs := vfsOf pf
  let on := vfs.take count
  let off := (vfs.drop count).filter fun v => (s.func v).vfOn
  let s := on.foldl (fun s v => if (s.func v).vfOn then s else s.modFunc v fun F => { F with vfOn := true, queues := 1 }) s
  let s := off.foldl (fun s v => (s.modFunc v fun F => { F with vfOn := false }).beginReset v) s
  .next s.resetSettle

/-! ### Doorbells and polls (R478, R479, R508) -/

/-- SQ_TAIL_DOORBELL: a device ring takes its tail from its tail word instead. -/
def State.sqTail (s : State) (fn q tail : Nat) : State :=
  let Q := s.queue fn q
  if !Q.made || Q.stopped || Q.inDevice then s
  else if tail ≥ 2 ^ Q.log2Sq then s.queueStop fn q 1
  else s.modQueue fn q fun Q => { Q with sqTail := tail }
def execSqTailDoorbell (fn : FnIx) (q tail : BitVec 16) (s : State) : Res := .next (s.sqTail fn q.toNat tail.toNat)

/-- CQ_HEAD_DOORBELL. -/
def State.cqHead (s : State) (fn q head : Nat) : State :=
  let Q := s.queue fn q
  let size := 2 ^ Q.log2Cq
  if !Q.made || Q.stopped then s
  else if head ≥ size then s.queueStop fn q 2
  else
    let freed := (head + size - Q.cqHead) % size
    if freed > Q.cqUsed then s.queueStop fn q 2
    else s.modQueue fn q fun Q => { Q with cqHead := head, cqUsed := Q.cqUsed - freed }
def execCqHeadDoorbell (fn : FnIx) (q head : BitVec 16) (s : State) : Res := .next (s.cqHead fn q.toNat head.toNat)

/-- DEVICE_RING_POLL: the tail word of a queue whose rings lie in device memory. -/
def execDeviceRingPoll (fn : FnIx) (q : BitVec 16) (host : HostMem) (s : State) : Res :=
  let Q := s.queue fn q.toNat
  if !Q.made || Q.stopped || !Q.inDevice then .next s
  else match s.ctxRead Q.ctx host (pagePieces Q.tailVa 8) with
    | .error 0x20 => .next (s.queueStop fn q.toNat 5)
    | .error _ => .next (s.queueStop fn q.toNat 3)
    | .ok bs =>
      let tail := ofBytes bs % 2 ^ 16
      if tail ≥ 2 ^ Q.log2Sq then .next (s.queueStop fn q.toNat 1)
      else .next (s.modQueue fn q.toNat fun Q => { Q with sqTail := tail })

/-- COALESCE_TIMEOUT (R481). -/
def execCoalesceTimeout (fn : FnIx) (q : BitVec 16) (s : State) : Res :=
  let Q := s.queue fn q.toNat
  if Q.made && decide (Q.pendingInt > 0) && decide (Q.coalUs ≠ 0) then
    .next ((s.modQueue fn q.toNat fun Q => { Q with pendingInt := 0 }).emit (.msix fn Q.vector))
  else .next s

/-! ### Fetching (R475, R480-R483) -/

/-- A submission entry's fields in its 64 bytes. -/
def sqEntry (n : Nat) : SqEntry where
  opcode := BitVec.ofNat 8 n
  flags := BitVec.ofNat 8 (fld n 8 8)
  id := BitVec.ofNat 16 (fld n 16 16)
  ctx := BitVec.ofNat 8 (fld n 32 8)
  res := BitVec.ofNat 24 (fld n 40 24)
  w1 := BitVec.ofNat 64 (fld n 64 64)
  w2 := BitVec.ofNat 64 (fld n 128 64)
  w3 := BitVec.ofNat 64 (fld n 192 64)
  w4 := BitVec.ofNat 64 (fld n 256 64)
  w5 := BitVec.ofNat 64 (fld n 320 64)
  w6 := BitVec.ofNat 64 (fld n 384 64)
  w7 := BitVec.ofNat 64 (fld n 448 64)

/-- The version that introduced an opcode; none for a reserved one (R475, R484-R493). -/
def opVersion (op : Nat) : Option Nat :=
  if [0x01, 0x02, 0x03, 0x04, 0x05, 0x10, 0x13, 0x15, 0x20, 0x21, 0x22, 0x23, 0x24, 0x28, 0x29, 0x30, 0x31, 0x32, 0x33, 0x34].contains op then some 0x100
  else if [0x11, 0x12, 0x25, 0x26].contains op then some 0x200
  else if op = 0x38 then some 0x201
  else if [0x14, 0x16].contains op then some 0x202
  else none

/-- Completion entries a command may write: two where it may answer ACCEPTED or DEFERRED first. -/
def opEntries (op : Nat) : Nat := if [0x14, 0x15, 0x24, 0x30, 0x31, 0x32, 0x33, 0x38].contains op then 2 else 1

/-- COMMAND_FETCH: the engine reads the next entry when it can reserve its completion entries; a ring read that fails stops
the queue. `entry` is what a ring in host memory answers. An opcode that is reserved, or beyond the session's version, is
answered at once. -/
def execCommandFetch (fn : FnIx) (q : BitVec 16) (entry : BitVec 512) (failed : Bool) (s : State) : Res :=
  let q := q.toNat
  let Q := s.queue fn q
  if !Q.made || Q.stopped || Q.deleting.isSome || decide (Q.sqHead = Q.sqTail) || (s.func fn).resetting then .next s
  else
    let place := if Q.inDevice then (s.ctxPlace Q.ctx (Q.sqBase + 64 * Q.sqHead) false).toOption else some (1, 0)
    match place with
    | none => .next (s.queueStop fn q 5)
    | some (tg, a) =>
      let bad := if tg = 1 then failed else s.hbmBad (hbmAddrKey a) 64
      if bad then .next (s.queueStop fn q 3)
      else
        let n := if tg = 1 then entry.toNat else s.nat (hbmAddrKey a) 64
        let c := sqEntry n
        let op := c.opcode.toNat
        let need := opEntries op
        let reserved := natSum (Q.fetched.map (·.hold))
        if Q.cqUsed + reserved + need > 2 ^ Q.log2Cq then .next s
        else
          let s := s.modQueue fn q fun Q => { Q with
            sqHead := (Q.sqHead + 1) % 2 ^ Q.log2Sq, fetchNo := Q.fetchNo + 1,
            fetched := Q.fetched ++ [{ c := c, no := Q.fetchNo, hold := need }] }
          let o : Owed := { fn := fn, queue := q, no := Q.fetchNo, id := c.id.toNat }
          match opVersion op with
          | none => .next (s.finish o 0x11 0 0 0)
          | some v => if (s.func fn).nver < v then .next (s.finish o 0x10 0 0 0) else .next s

end Sys2Proof.Machine
end

