-- ==== Sys2Proof/Machine/CoreOps.lean ====
section
/-! DEFINITION. What every instruction of a tidy core shares: registers, poison, exceptions, the order of issue, and accesses
to private memory, scratchpad and translated memory (R197-R205, R226-R235, R249). -/
namespace Sys2Proof.Machine

/-! ### Registers (R199, R201) -/

def Core.gr (c : Core) (r : Nat) : Nat := if r = 0 then 0 else (tget c.g r).toNat
def Core.gBad (c : Core) (r : Nat) : Bool := r != 0 && c.gp.contains r
/-- g0 discards writes. -/
def Core.setG (c : Core) (r v : Nat) (poison : Bool) : Core :=
  if r = 0 then c else { c with g := tput c.g r (BitVec.ofNat 64 v), gp := setPut c.gp r poison }
/-- p0 reads as all ones and discards writes. -/
def Core.pr (c : Core) (r : Nat) : Nat := if r = 0 then 2 ^ 64 - 1 else (tget c.p r).toNat
def Core.setP (c : Core) (r v : Nat) : Core := if r = 0 then c else { c with p := tput c.p r (BitVec.ofNat 64 v) }
def Core.vr (c : Core) (r : Nat) : Nat := (tget c.v r).toNat
/-- Poison of one 64-bit lane. -/
def Core.vBad (c : Core) (r lane : Nat) : Bool := c.vp.contains (8 * r + lane)
def Core.setV (c : Core) (r v : Nat) (bad : Nat → Bool) : Core :=
  { c with v := tput c.v r (BitVec.ofNat 512 v), vp := (upto 0 8).foldl (fun l k => setPut l (8 * r + k) (bad k)) c.vp }
def Core.tr (c : Core) (r : Nat) : Nat := (tget c.t r).toNat
def Core.setT (c : Core) (r v : Nat) : Core := { c with t := tput c.t r (BitVec.ofNat 256 v) }
def Core.qr (c : Core) (r : Nat) : Nat := (tget c.q r).toNat
def Core.setQ (c : Core) (r v : Nat) : Core := { c with q := tput c.q r (BitVec.ofNat 64 v) }
def Core.pcOf (c : Core) : Nat := c.pc.toNat
/-- A vector register's bytes replaced where `bytes` says, with the mark each byte brings: a lane is poisoned by any marked
byte it receives, and keeps its mark unless every byte of it is written (R200, R201). -/
def Core.putV (c : Core) (r : Nat) (bytes : List (Nat × Byte × Bool)) : Core :=
  let v := bytes.foldl (fun v (e : Nat × Byte × Bool) => setFld v (8 * e.1) 8 e.2.1.toNat) (c.vr r)
  c.setV r v fun k =>
    let mine := bytes.filter fun e => e.1 / 8 == k
    mine.any (·.2.2) || (c.vBad r k && decide ((mine.foldl (fun l e => setIns l e.1) []).length < 8))

/-! ### Exceptions (R226-R229) -/

/-- What an instruction comes to. -/
inductive CoreRes where
  /-- it completes, and the core goes on behind it -/
  | done (s : State)
  /-- it completes, and the core goes on elsewhere -/
  | jump (s : State) (pc : Nat)
  /-- it raises an exception: cause and CORE_EVAL -/
  | raise (s : State) (cause eval : Nat)
  /-- it waits at issue -/
  | wait (s : State)

/-- Taking an exception; where no handler may take it the core stops and its job fails with FAULTED. -/
def State.exception (s : State) (u : CoreId) (cause eval : Nat) : State :=
  let c := s.core u
  let s := s.modCore u fun c => { c with epc := c.pc, ecause := cause, eval := BitVec.ofNat 64 eval }
  if c.supervisor || c.evec == 0 then
    let j := s.tileJob u.tile
    let s := s.modCore u fun c => { c with running := false }
    ((s.tileEvent u.tile 0x1203 u.core [cause, c.pcOf, eval]).failJob j 0x20).resetSettle
  else s.modCore u fun c => { c with supervisor := true, pc := c.evec }

/-! ### Issue (R197, R200, R205, R208, R240) -/

/-- May the core execute an instruction now? -/
def State.coreOn (s : State) (u : CoreId) : Bool :=
  let T := s.tile u.tile
  (s.core u).running && s.ticking u.tile && !T.preempting && !T.atPoint

def privBase : Nat := 0xFF00000000000000
def spdBase : Nat := 0xFF00000000800000
/-- Is the word at `a` in private memory? -/
def inPriv (a : Nat) : Bool := decide (privBase ≤ a) && decide (a + 4 ≤ privBase + 2 ^ 17)

/-- The fetch of the words of an instruction: none where all is well, else the exception (R202, R205, R249). -/
def State.fetch (s : State) (u : CoreId) (a : Nat) : Nat → Option (Nat × Nat) × State
  | 0 => (none, s)
  | n + 1 =>
    if !inPriv a then (some (3, a), s)
    else
      let unit := (a - privBase) / 8
      let wrong := tget (s.core u).privUpset unit
      if wrong > 1 || s.marked (privKey u.tile u.core (8 * unit)) then (some (7, (s.core u).pcOf), s)
      else if wrong = 1 then
        ((s.modCore u fun c => { c with privUpset := tput c.privUpset unit 0 }).tileEvent u.tile 0x1201 u.core [8 * unit]).fetch u (a + 4) n
      else s.fetch u (a + 4) n

/-- The level the running image declares, times 256 for its major part. -/
def State.imageLevel (s : State) (u : CoreId) : Nat := let im := (s.job (s.tileJob u.tile)).img; im.lvlMajor * 256 + im.lvlMinor

/-- Does a register that the instruction names still wait for a translated load? -/
def Core.pendingReg (c : Core) (gs vs : List Nat) : Bool :=
  c.loads.any fun w => if w.vec then vs.contains w.rd else w.rd != 0 && gs.contains w.rd

/-- How an instruction word is to be issued. -/
structure Issue where
  word  : Nat
  words : Nat := 1
  /-- the word is illegal (R208) -/
  bad   : Bool := false
  /-- Voxair level that introduced the instruction -/
  level : Nat := 0x200
  /-- predicate register of scalar predication -/
  pred  : Nat := 0
  gs    : List Nat := []
  vs    : List Nat := []

/-- The first instruction-class-independent part of an instruction, then its own (`body`), then what follows from it. A
core that may not execute, or a source held by a translation, leaves the state as it is. `skip` is what a false predicate
does besides advancing. -/
def State.issue (s : State) (u : CoreId) (i : Issue) (body : State → CoreRes) (skip : State → CoreRes := .done) : Res :=
  let c := s.core u
  if !s.coreOn u then .next s
  else if c.hold.any fun h => h.resolved.isNone then .next s
  else
    let next := fun (s : State) (pc : Nat) => s.modCore u fun c => { c with pc := BitVec.ofNat 64 pc, retired := (c.retired + 1) % 2 ^ 64 }
    let go : CoreRes :=
      match c.hold with
      | some h => .raise (s.modCore u fun c => { c with hold := none }) 5 h.va
      | none =>
        let (e, s) := s.fetch u c.pcOf i.words
        match e with
        | some (cause, v) => .raise s cause v
        | none =>
          if i.bad || decide (s.imageLevel u < i.level) then .raise s 1 i.word
          else if !bit (c.pr i.pred) 0 then skip s
          else if c.pendingReg i.gs i.vs then .wait s
          else body s
    match go with
    | .done s => .next (next s (c.pcOf + 4 * i.words))
    | .jump s pc => .next (next s pc)
    | .raise s cause v => .next (s.exception u cause v)
    | .wait s => .next s

/-- The first poisoned register of a list of general registers raises POISON (R201). -/
def poisonOf (c : Core) (gs : List Nat) (k : CoreRes) (s : State) : CoreRes :=
  match gs.find? c.gBad with
  | some r => .raise s 6 r
  | none => k

/-! ### Addresses (R202) -/

inductive CAddr where
  | virt | priv (off : Nat) | spd (off : Nat) | bad
  deriving DecidableEq, Repr

/-- Where the `n` bytes at an address lie. -/
def caddr (a n : Nat) : CAddr :=
  if a + n ≤ 0x0100000000000000 then .virt
  else if privBase ≤ a ∧ a + n ≤ privBase + 2 ^ 17 then .priv (a - privBase)
  else if spdBase ≤ a ∧ a + n ≤ spdBase + 2 ^ 23 then .spd (a - spdBase)
  else .bad

/-- One element of a core's access: its address, its bytes, and its place in the register. -/
structure CAcc where
  addr : Nat
  len  : Nat
  pos  : Nat := 0
  deriving DecidableEq, Repr

/-- Parts of `n` bytes at `a` that lie in one aligned unit of `w` bytes: address, bytes, place. -/
def splitUnits (w a n pos : Nat) : List CAcc :=
  (upto (a / w) ((a + n - 1) / w + 1 - a / w)).map fun k =>
    let lo := max a (w * k)
    { addr := lo, len := min (a + n) (w * k + w) - lo, pos := pos + (lo - a) }
/-- Narrow accesses of a scalar access (R203): one for each aligned 8-byte unit, but 16 aligned bytes are one. -/
def narrowParts (a n pos : Nat) : List CAcc := if n = 16 ∧ a % 16 = 0 then [⟨a, 16, pos⟩] else splitUnits 8 a n pos
/-- Words of translated memory that an access touches. -/
def CAcc.words (e : CAcc) : List CAcc := splitUnits 32 e.addr e.len e.pos
/-- The translated parts of an access, word by word. -/
def virtParts (els : List CAcc) : List CAcc := els.flatMap fun e => if caddr e.addr e.len = .virt then e.words else []
def spdWordsOf (els : List CAcc) : List Nat :=
  els.flatMap fun e => match caddr e.addr e.len with | .spd off => (upto (off / 32) ((off + e.len - 1) / 32 + 1 - off / 32)) | _ => []
/-- The first element that lies nowhere. -/
def badAddr (els : List CAcc) : Option Nat := (els.find? fun e => caddr e.addr e.len == .bad).map (·.addr)

/-- Every page is translated before any access is performed; a page that does not translate holds the core (R204). -/
def State.coreXlate (s : State) (u : CoreId) (write : Bool) : List CAcc → Option (List (CAcc × Nat × Nat)) × State
  | [] => (some [], s)
  | e :: t =>
    match s.xlate u.tile e.addr write with
    | (.hit tg out, s) =>
      let (r, s) := s.coreXlate u write t
      (r.map fun l => (e, tg, out) :: l, s)
    | (.walking, s) => (none, s.modCore u fun c => { c with hold := some { va := e.addr, write := write } })
    | (.fault k, s) =>
      let (h, s) := s.holdFault (s.tag u.tile) u.tile (faultUnitCore u.core) { va := e.addr, write := write } k
      (none, s.modCore u fun c => { c with hold := some h })

/-- Requests of the core whose word is the one at an output address: a later access to it waits for them (R232). -/
def State.coreBusy (s : State) (u : CoreId) (tg out : Nat) (write : Bool) : Bool :=
  (s.tile u.tile).net.requests.any fun q =>
    (q.for_ == .coreStore u.core || (write && q.for_ == .coreLoad u.core)) && q.pkt.addr % 2 ^ 42 / 32 == out / 32 &&
    ((tg == 1) == ((upto 0 4).any fun p => hostNode p == q.pkt.dst))

/-- What the translated parts of an access come to before it is performed. -/
inductive Ready where
  | go (l : List (CAcc × Nat × Nat)) (s : State)
  | wait (s : State)
  | raise (s : State) (cause eval : Nat)

/-- The checks before an access: addresses, translations, live ports, and waits for scratchpad sweeps, earlier accesses to
the same word and room for requests (R180, R202, R204, R232, R309). -/
def State.coreReady (s : State) (u : CoreId) (els : List CAcc) (write : Bool) : Ready :=
  match badAddr els with
  | some a => .raise s 3 a
  | none =>
    match s.coreXlate u write (virtParts els) with
    | (none, s) => .wait s
    | (some l, s) =>
      match l.find? fun e => (s.memNode (s.tileCtx u.tile) e.2.1 e.2.2).isNone with
      | some e => .raise s 5 e.1.addr
      | none =>
        if (spdWordsOf els).any (s.tile u.tile).spdBlocked || (l.any fun e => s.coreBusy u e.2.1 e.2.2 write) ||
            (!l.isEmpty && decide ((s.tile u.tile).net.requests.length + l.length > 4096)) then .wait s
        else .go l s

/-! ### Loads -/

/-- Bytes read from local memory, placed in the register, each with its mark. -/
def placed (bs : List Byte) (poison : Bool) (pos : Nat) : List (Nat × Byte × Bool) :=
  (bs.zip (upto pos bs.length)).map fun e => (e.2, e.1, poison)
/-- One narrow read after another. -/
def State.narrowReads (s : State) (u : CoreId) : List CAcc → List (Nat × Byte × Bool) × State
  | [] => ([], s)
  | e :: t =>
    let (r, s) := s.narrowRead u.tile (coreReq u.core) (e.addr - spdBase) e.len
    let (l, s) := s.narrowReads u t
    (placed r.bytes (r.poison || r.again) e.pos ++ l, s)
/-- A linear run of whole words read (R164, R203). -/
def State.wordReads (s : State) (u : CoreId) (off n pos : Nat) : List (Nat × Byte × Bool) × State :=
  let ws := upto (off / 32) ((off + n - 1) / 32 + 1 - off / 32)
  let (rs, s) := s.spdReads u.tile (coreReq u.core) (ws.map (· % 2 ^ 18))
  let all := (rs.flatMap fun r => r.bytes.map fun b => (b, r.poison || r.again)).drop (off % 32)
  (((all.take n).zip (upto pos n)).map fun e => (e.2, e.1.1, e.1.2), s)
/-- The local elements of a load in order. -/
def State.localReads (s : State) (u : CoreId) (whole : Bool) : List CAcc → List (Nat × Byte × Bool) × State
  | [] => ([], s)
  | e :: t =>
    let (b, s) := match caddr e.addr e.len with
      | .priv off => let (bs, _, s) := s.privRead u off e.len
                     -- each byte brings the mark of its own aligned 8 bytes
                     ((bs.zip (upto 0 e.len)).map (fun (x : Byte × Nat) => (e.pos + x.2, x.1, s.marked (privKey u.tile u.core ((off + x.2) / 8 * 8)))), s)
      | .spd off => if whole then s.wordReads u off e.len e.pos else s.narrowReads u (narrowParts e.addr e.len e.pos)
      | _ => ([], s)
    let (l, s) := s.localReads u whole t
    (b ++ l, s)
/-- Requests for the translated words of a load, each with what waits for it. -/
def State.virtReads (s : State) (u : CoreId) (vec : Bool) (rd width : Nat) (signed : Bool) : List (CAcc × Nat × Nat) → State
  | [] => s
  | (e, tg, out) :: t =>
    let dst := (s.memNode (s.tileCtx u.tile) tg out).getD 1023
    let (x, s) := s.request u.tile (.coreLoad u.core) { typ := .memRead, vc := 0, words := 1, dst := dst, addr := out / 32 * 32 }
    let w : LoadWait := { txn := x, vec := vec, rd := rd, pos := e.pos, len := e.len, inWord := out % 32, signed := signed, width := width }
    (s.modCore u fun c => { c with loads := c.loads ++ [w] }).virtReads u vec rd width signed t

/-- The number that bytes by place spell. -/
def placedNat (l : List (Nat × Byte × Bool)) : Nat := l.foldl (fun v e => v + e.2.1.toNat * 2 ^ (8 * e.1)) 0
/-- A scalar value of `w` bytes as a register holds it. -/
def extend (signed : Bool) (w v : Nat) : Nat := if signed then wrap 64 (sext (8 * w) v) else v

/-- A scalar load. -/
def State.loadG (s : State) (u : CoreId) (rd a w : Nat) (signed : Bool) : CoreRes :=
  match s.coreReady u [⟨a, w, 0⟩] false with
  | .raise s k v => .raise s k v
  | .wait s => .wait s
  | .go [] s =>
    let (l, s) := s.localReads u false [⟨a, w, 0⟩]
    .done (s.modCore u fun c => c.setG rd (extend signed w (placedNat l)) (l.any (·.2.2)))
  | .go l s => .done ((s.modCore u fun c => c.setG rd 0 false).virtReads u false rd w signed l)

/-- A vector load: bytes not loaded stay. -/
def State.loadV (s : State) (u : CoreId) (vd : Nat) (els : List CAcc) (whole : Bool) : CoreRes :=
  match s.coreReady u els false with
  | .raise s k v => .raise s k v
  | .wait s => .wait s
  | .go l s =>
    let (b, s) := s.localReads u whole els
    let virt := l.flatMap fun e => (upto e.1.pos e.1.len).map fun k => (k, (0 : Byte), false)
    .done ((s.modCore u fun c => c.putV vd (b ++ virt)).virtReads u true vd 0 false l)

/-- The answer to one word of a translated load has arrived (R201, R204). -/
def State.loadArrive (s : State) (u : CoreId) (txn word : Nat) (poison : Bool) : State :=
  match (s.core u).loads.find? fun w => w.txn == txn with
  | none => s
  | some w =>
    let s := s.modCore u fun c => { c with loads := c.loads.filter fun x => x.txn != txn }
    let v := fld word (8 * w.inWord) (8 * w.len)
    if w.vec then s.modCore u fun c => c.putV w.rd ((toBytes v w.len).zip (upto w.pos w.len) |>.map fun e => (e.2, e.1, poison))
    else
      let last := !((s.core u).loads.any fun x => !x.vec && x.rd == w.rd)
      s.modCore u fun c =>
        let v := setFld (c.gr w.rd) (8 * w.pos) (8 * w.len) v
        c.setG w.rd (if last then extend w.signed w.width v else v) (c.gBad w.rd || poison)

/-! ### Stores -/

/-- The bytes of one store, with their address and mark. -/
structure CStore where
  addr   : Nat
  bytes  : List Byte
  poison : Bool
  deriving DecidableEq, Repr

/-- Part of a store's bytes. -/
def CStore.part (e : CStore) (p : CAcc) : List Byte := (e.bytes.drop (p.addr - e.addr)).take p.len
/-- The local elements of a store in ascending order; `whole` stores aligned words whole (R203). -/
def State.localWrite (s : State) (u : CoreId) (whole : Bool) (e : CStore) : State :=
  match caddr e.addr e.bytes.length with
  | .priv off => s.privWrite u off e.bytes e.poison
  | .spd off =>
    if whole && e.bytes.length == 32 && off % 32 == 0 then s.spdWrite u.tile (off / 32) e.bytes e.poison
    else (narrowParts e.addr e.bytes.length 0).foldl (fun s p => s.narrowWrite u.tile (coreReq u.core) (p.addr - spdBase) (e.part p) e.poison) s
  | _ => s
/-- One translated word of a store: a masked write (R450). -/
def State.virtWrite (s : State) (u : CoreId) (tg out mask data : Nat) (poison : Bool) : State :=
  let dst := (s.memNode (s.tileCtx u.tile) tg out).getD 1023
  let w := out / 32 * 32
  let p : Packet :=
    if mask = 2 ^ 32 - 1 then { typ := .memWrite, words := 1, dst := dst, addr := w, poison := b01 poison, data := [BitVec.ofNat 256 data] }
    else { typ := .memWrite, words := 2, dst := dst, addr := w + maskedBit tg, poison := 2 * b01 poison, data := [BitVec.ofNat 256 mask, BitVec.ofNat 256 data] }
  let (x, s) := s.request u.tile (.coreStore u.core) p
  s.modCore u fun c => { c with stores := c.stores ++ [(x, w)] }
/-- Byte masks and data of the words that translated pieces write, later pieces winning. -/
def gatherWords (l : List ((CAcc × Nat × Nat) × List Byte × Bool)) : List (Nat × Nat × Nat × Nat × Bool) :=
  l.foldl (fun (acc : List (Nat × Nat × Nat × Nat × Bool)) (e : (CAcc × Nat × Nat) × List Byte × Bool) =>
    let tg := e.1.2.1
    let w := e.1.2.2 / 32
    let i := e.1.2.2 % 32
    let mask := byteMask i e.2.1.length
    let val := ofBytes e.2.1 * 2 ^ (8 * i)
    if acc.any fun (x : Nat × Nat × Nat × Nat × Bool) => x.1 == tg && x.2.1 == w then
      acc.map fun (x : Nat × Nat × Nat × Nat × Bool) => if x.1 == tg && x.2.1 == w then
        (tg, w, x.2.2.1 ||| mask, ofBytes (mergeBytes (toBytes x.2.2.2.1 32) val mask 0), x.2.2.2.2 || e.2.2) else x
    else acc ++ [(tg, w, mask, val, e.2.2)]) []

/-- A store of several elements. -/
def State.storeC (s : State) (u : CoreId) (es : List CStore) (whole : Bool) : CoreRes :=
  let els : List CAcc := es.map fun e => ⟨e.addr, e.bytes.length, 0⟩
  match s.coreReady u els true with
  | .raise s k v => .raise s k v
  | .wait s => .wait s
  | .go l s =>
    let s := es.foldl (fun s e => s.localWrite u whole e) s
    let parts := es.flatMap fun e => if caddr e.addr e.bytes.length = .virt then (CAcc.words ⟨e.addr, e.bytes.length, 0⟩).map fun p => (e.part p, e.poison) else []
    .done ((gatherWords (l.zip parts)).foldl (fun s w => s.virtWrite u w.1 (32 * w.2.1) w.2.2.1 w.2.2.2.1 w.2.2.2.2) s)

/-- The answer to a translated store has arrived. -/
def State.storeArrive (s : State) (u : CoreId) (txn : Nat) : State :=
  s.modCore u fun c => { c with stores := c.stores.filter fun x => x.1 != txn }

end Sys2Proof.Machine
end

