-- ==== Sys2Proof/Machine/Operands.lean ====
section
/-! DEFINITION. Instruction words: the formats of R207 and R264, each built from its fields. -/
namespace Sys2Proof.Machine

def encR (op rd ra rb p funct : Nat) : Nat := atBit op 26 6 + atBit rd 21 5 + atBit ra 16 5 + atBit rb 11 5 + atBit p 8 3 + atBit funct 0 8
def encI (op rd ra imm : Nat) : Nat := atBit op 26 6 + atBit rd 21 5 + atBit ra 16 5 + atBit imm 0 16
def encLS (op rd ra width off : Nat) : Nat := atBit op 26 6 + atBit rd 21 5 + atBit ra 16 5 + atBit width 13 3 + atBit off 0 13
def encB (ra rb cond off : Nat) : Nat := encLS 0x0C ra rb cond off
def encJ (rd off : Nat) : Nat := atBit 0x0D 26 6 + atBit rd 21 5 + atBit off 0 21
def encSys (g sub tq imm : Nat) : Nat := atBit 0x0F 26 6 + atBit g 21 5 + atBit sub 16 5 + atBit tq 12 4 + atBit imm 0 12
def encV (op vd va vb p et funct : Nat) : Nat := encR op vd va vb p (atBit et 5 3 + atBit funct 0 5)
def encVM (op vd ra rb p mode esz low : Nat) : Nat := encR op vd ra rb p (atBit mode 6 2 + atBit esz 4 2 + atBit low 0 4)
/-- First word of a long form. -/
def encL (lop rd imm : Nat) : Nat := atBit 0x3F 26 6 + atBit lop 20 6 + atBit rd 15 5 + atBit (imm / 2 ^ 32) 0 15

/-- Format DT: descriptor instructions (R263). -/
def encDT (op rd ra td z p q funct : Nat) : Nat := atBit op 26 6 + atBit rd 21 5 + atBit ra 16 5 + atBit td 12 4 + atBit z 11 1 + atBit p 8 3 + atBit q 5 3 + atBit funct 0 5
/-- Format DR: register instructions (R263). -/
def encDR (op rd ra rb p q funct : Nat) : Nat := encR op rd ra rb p (atBit q 5 3 + atBit funct 0 5)

end Sys2Proof.Machine
end

