-- ==== Sys2Proof/Machine/Flags.lean ====
section
/-! DEFINITION. Floating point on the cores: operations of one element with their flags, and the sticky flags (R216, R217, R245). -/
namespace Sys2Proof.Machine

def Core.rm (c : Core) : RM := rmOfNat (fld c.fcsr 5 3)
/-- Flags stay set (R217). -/
def Core.raiseFlags (c : Core) (f : FFlags) : Core := { c with fcsr := c.fcsr ||| f.toNat }

/-- A signalling NaN of a format. -/
def FFmt.isSnan (f : FFmt) (a : Nat) : Bool := (f.decode a).isNan && !bit a (f.mb - 1)
/-- An operation's result, with NV where an operand signals. -/
def withNv (r : Nat × FFlags) (snan : Bool) : Nat × FFlags := (r.1, { r.2 with nv := r.2.nv || snan })

/-- The operations of one element, numbered as VFP numbers them; `d` is the accumulator operand. -/
def fpOp (f : FFmt) (rm : RM) (op a b d : Nat) : Nat × FFlags :=
  let na := f.isSnan a
  let nb := f.isSnan b
  let neg := fun x => if bit x (f.eb + f.mb) then x - f.signBit else x + f.signBit
  let fma := fun a =>
    let bad := (FV.mul (f.decode a) (f.decode b)).2.nv
    let r := f.fma rm a b d
    let quiet := (f.decode d).isNan && !f.isSnan d
    withNv (if bad && quiet then (r.1, { r.2 with nv := Config.fmaInvalid }) else r) (na || nb || f.isSnan d)
  match op with
  | 0x00 => withNv (f.add rm a b) (na || nb)
  | 0x01 => withNv (f.add rm a (neg b)) (na || nb)
  | 0x02 => withNv (f.mul rm a b) (na || nb)
  | 0x03 => fma a
  | 0x04 => fma (neg a)
  | 0x05 => withNv (f.div rm a b) (na || nb)
  | 0x06 => withNv (f.sqrt rm a) na
  | 0x07 => (f.minMax false a b, { nv := na || nb })
  | 0x08 => (f.minMax true a b, { nv := na || nb })
  | 0x09 => (if (f.decode a).isNan then f.nanBits else if bit a (f.eb + f.mb) then neg a else a, {})
  | 0x0A => (if (f.decode a).isNan then f.nanBits else neg a, {})
  | _ =>
    -- VFSCALE: beyond 8,192 either way every finite value overflows or vanishes alike
    let k := max (-8192) (min 8192 (sext f.width b))
    match f.decode a with
    | .nan => (f.nanBits, { nv := na })
    | .inf n => f.encode rm (.inf n)
    | .fin n m e => f.round rm n m (e + k) false

/-- Compares, numbered as VCMP and FPU number their low bits: 0 equal, 1 below, 2 below or equal, 3 unordered. -/
def fpCmp (f : FFmt) (op a b : Nat) : Bool × FFlags :=
  let x := f.decode a
  let y := f.decode b
  let un := x.isNan || y.isNan
  let sig := f.isSnan a || f.isSnan b
  match op with
  | 0 => (x.eq y, { nv := sig })
  | 1 => (x.lt y, { nv := un })
  | 2 => (x.lt y || x.eq y, { nv := un })
  | _ => (un, { nv := sig })

/-- An integer encoded in a format under a rounding mode. -/
def intToFp (f : FFmt) (rm : RM) (i : Int) : Nat × FFlags := f.encode rm (FV.ofInt i)
/-- A datum of one format rounded to another. -/
def fpToFp (src dst : FFmt) (rm : RM) (a : Nat) : Nat × FFlags := withNv (dst.encode rm (src.decode a)) (src.isSnan a)

/-- The values a result of VRCP or VRSQ may take: a relative error below 2^-14 (R221). -/
def nearEnough (op : Nat) (x r : Nat) : Bool :=
  match fp32.decode x, fp32.decode r with
  | .fin n m e, .fin n' m' e' =>
    let d : Int := 2 ^ 14
    let (p, q) := if op = 0 then (m * m', e + e') else (m * m' * m', e + 2 * e')
    -- p * 2^q against 1 within the bound
    let lo : Int := if op = 0 then d - 1 else (d - 1) * (d - 1)
    let hi : Int := if op = 0 then d + 1 else (d + 1) * (d + 1)
    let one : Int := if op = 0 then d else d * d
    let a : Int := if 0 ≤ q then p * 2 ^ q.toNat else p
    let s : Int := if 0 ≤ q then 1 else 2 ^ (-q).toNat
    n == n' && decide (lo * s < a * one) && decide (a * one < hi * s)
  | _, _ => false

/-- A special function of an FP32 input (R221): its bits are the configuration's, within the bound that the spec sets for a
reciprocal or a root of a positive finite value. NaN results are canonical. -/
def special32 (op a : Nat) : Nat :=
  let r := Config.special op a % 2 ^ 32
  let r := if (fp32.decode r).isNan then fp32.nanBits else r
  match op, fp32.decode a with
  | _, .nan => fp32.nanBits
  | 0, .fin _ m _ =>
    let q := fp32.div .nearestEven 0x3F800000 a
    if m = 0 ∨ q.2.of ∨ q.2.uf then r else if nearEnough 0 a r then r else q.1
  | 1, .fin n m _ =>
    if m = 0 ∨ n then r else if nearEnough 1 a r then r else (fp32.div .nearestEven 0x3F800000 (fp32.sqrt .nearestEven a).1).1
  | _, _ => r

end Sys2Proof.Machine
end

