-- ==== Sys2Proof/Machine/Scalar.lean ====
section
/-! DEFINITION. Scalar instructions of the tidy cores: integer, loads and stores, atomics, floating point, branches, long
forms, and the SYS class but for system registers (R205-R217, R232, R242). -/
namespace Sys2Proof.Machine

/-! ### Integer (R210, R211) -/

/-- Leading zeros of a 64-bit number. -/
def clz64 (a : Nat) : Nat := if a = 0 then 64 else 63 - Nat.log2 a
/-- Trailing zeros. -/
def ctzFrom (a : Nat) (i : Nat) : Nat → Nat
  | 0 => i
  | n + 1 => if bit a i then i else ctzFrom a (i + 1) n
def popCount (a : Nat) : Nat → Nat
  | 0 => 0
  | n + 1 => b01 (bit a n) + popCount a n

/-- ALU's functs (R210). -/
def aluKnown (f : Nat) : Bool := decide (f ≤ 0x0D) || (decide (0x10 ≤ f) && decide (f ≤ 0x12)) || (decide (0x14 ≤ f) && decide (f ≤ 0x1A))
/-- rd of an ALU instruction, modulo 2^64. -/
def aluOp (f a b : Nat) : Nat :=
  let x := sext 64 a
  let y := sext 64 b
  match f with
  | 0x00 => (a + b) % 2 ^ 64
  | 0x01 => wrap 64 ((a : Int) - b)
  | 0x02 => a &&& b
  | 0x03 => a ||| b
  | 0x04 => a ^^^ b
  | 0x05 => a * 2 ^ (b % 64) % 2 ^ 64
  | 0x06 => a / 2 ^ (b % 64)
  | 0x07 => wrap 64 (x / 2 ^ (b % 64))
  | 0x08 => b01 (x < y)
  | 0x09 => b01 (a < b)
  | 0x0A => if x < y then a else b
  | 0x0B => if x < y then b else a
  | 0x0C => min a b
  | 0x0D => max a b
  | 0x10 => a * b % 2 ^ 64
  | 0x11 => wrap 64 (x * y / 2 ^ 64)
  | 0x12 => a * b / 2 ^ 64
  | 0x14 => if b = 0 then 2 ^ 64 - 1 else wrap 64 (Int.tdiv x y)
  | 0x15 => if b = 0 then 2 ^ 64 - 1 else a / b
  | 0x16 => if b = 0 then a else wrap 64 (Int.tmod x y)
  | 0x17 => if b = 0 then a else a % b
  | 0x18 => clz64 a
  | 0x19 => ctzFrom a 0 64
  | _ => popCount a 64

/-- An instruction that writes one general register from its sources. -/
def State.setReg (s : State) (u : CoreId) (rd v : Nat) (poison : Bool) : CoreRes := .done (s.modCore u fun c => c.setG rd (v % 2 ^ 64) poison)

def execAlu (u : CoreId) (rd ra rb : Fin 32) (p : Fin 8) (funct : BitVec 8) (s : State) : Res :=
  let f := funct.toNat
  let one := decide (0x18 ≤ f)
  s.issue u { word := encR 0x00 rd ra rb p f, bad := !aluKnown f || (one && rb != 0), pred := p, gs := [rd, ra, rb] } fun s =>
    let c := s.core u
    s.setReg u rd (aluOp f (c.gr ra) (c.gr rb)) (c.gBad ra || (!one && c.gBad rb))

/-- An immediate instruction: rd from ra. -/
def State.immOp (s : State) (u : CoreId) (op rd ra imm : Nat) (bad : Bool) (f : Nat → Nat) : Res :=
  s.issue u { word := encI op rd ra imm, bad := bad, gs := [rd, ra] } fun s =>
    let c := s.core u
    s.setReg u rd (f (c.gr ra)) (c.gBad ra)

def execAddi (u : CoreId) (rd ra : Fin 32) (imm : BitVec 16) (s : State) : Res :=
  s.immOp u 0x01 rd ra imm.toNat false fun a => wrap 64 (a + sext 16 imm.toNat)
def execAndi (u : CoreId) (rd ra : Fin 32) (imm : BitVec 16) (s : State) : Res := s.immOp u 0x02 rd ra imm.toNat false fun a => a &&& imm.toNat
def execOri (u : CoreId) (rd ra : Fin 32) (imm : BitVec 16) (s : State) : Res := s.immOp u 0x03 rd ra imm.toNat false fun a => a ||| imm.toNat
def execXori (u : CoreId) (rd ra : Fin 32) (imm : BitVec 16) (s : State) : Res := s.immOp u 0x04 rd ra imm.toNat false fun a => a ^^^ imm.toNat
def execShi (u : CoreId) (rd ra : Fin 32) (imm : BitVec 16) (s : State) : Res :=
  let i := imm.toNat
  s.immOp u 0x05 rd ra i (fld i 8 8 != 0 || fld i 6 2 == 3) fun a => aluOp (5 + fld i 6 2) a (fld i 0 6)
def execLui (u : CoreId) (rd ra : Fin 32) (imm : BitVec 16) (s : State) : Res :=
  s.issue u { word := encI 0x06 rd ra imm.toNat, bad := ra != 0, gs := [rd] } fun s => s.setReg u rd (wrap 64 (sext 16 imm.toNat * 2 ^ 16)) false
def execSlti (u : CoreId) (rd ra : Fin 32) (imm : BitVec 16) (s : State) : Res :=
  s.immOp u 0x07 rd ra imm.toNat false fun a => b01 (sext 64 a < sext 16 imm.toNat)

/-! ### Long forms (R209) -/

/-- The issue of a long form. -/
def longIssue (lop rd imm : Nat) (bad : Bool) (gs : List Nat) : Issue := { word := encL lop rd imm, words := 2, bad := bad, gs := gs }

def execLi (u : CoreId) (rd : Fin 32) (imm : BitVec 47) (s : State) : Res :=
  s.issue u (longIssue 0x00 rd imm.toNat false [rd.val]) fun s => s.setReg u rd (wrap 64 (sext 47 imm.toNat)) false
def execLaddi (u : CoreId) (rd : Fin 32) (imm : BitVec 47) (s : State) : Res :=
  s.issue u (longIssue 0x01 rd imm.toNat false [rd.val]) fun s =>
    let c := s.core u
    s.setReg u rd (wrap 64 (c.gr rd + sext 47 imm.toNat)) (c.gBad rd)

/-- A jump: its target must lie in private memory (R214). -/
def State.jumpTo (s : State) (u : CoreId) (rd link target : Nat) : CoreRes :=
  if !inPriv target then .raise s 3 target else .jump (s.modCore u fun c => c.setG rd link false) target

def execLjal (u : CoreId) (rd : Fin 32) (imm : BitVec 47) (s : State) : Res :=
  s.issue u (longIssue 0x02 rd imm.toNat (imm.toNat % 4 != 0) [rd.val]) fun s =>
    let pc := (s.core u).pcOf
    s.jumpTo u rd (pc + 8) (wrap 64 (pc + sext 47 imm.toNat))

/-! ### Branches and jumps (R214) -/

def brTaken (cond a b : Nat) : Bool :=
  match cond with
  | 0 => a == b
  | 1 => a != b
  | 2 => decide (sext 64 a < sext 64 b)
  | 3 => decide (sext 64 b ≤ sext 64 a)
  | 4 => decide (a < b)
  | _ => decide (b ≤ a)

def execBr (u : CoreId) (ra rb : Fin 32) (cond : Fin 8) (off : BitVec 13) (s : State) : Res :=
  s.issue u { word := encB ra rb cond off.toNat, bad := decide (cond.val ≥ 6), gs := [ra, rb] } fun s =>
    let c := s.core u
    poisonOf c [ra, rb] (if brTaken cond (c.gr ra) (c.gr rb) then
      let t := wrap 64 (c.pcOf + 4 * sext 13 off.toNat)
      if !inPriv t then .raise s 3 t else .jump s t
    else .done s) s
def execJal (u : CoreId) (rd : Fin 32) (off : BitVec 21) (s : State) : Res :=
  s.issue u { word := encJ rd off.toNat, gs := [rd] } fun s =>
    let pc := (s.core u).pcOf
    s.jumpTo u rd (pc + 4) (wrap 64 (pc + 4 * sext 21 off.toNat))
def execJalr (u : CoreId) (rd ra : Fin 32) (imm : BitVec 16) (s : State) : Res :=
  s.issue u { word := encI 0x0E rd ra imm.toNat, gs := [rd, ra] } fun s =>
    let c := s.core u
    poisonOf c [ra] (s.jumpTo u rd (c.pcOf + 4) (wrap 64 (c.gr ra + sext 16 imm.toNat) / 4 * 4)) s

/-! ### Loads, stores, atomics (R212, R213) -/

def execLoad (u : CoreId) (rd ra : Fin 32) (width : Fin 8) (off : BitVec 13) (s : State) : Res :=
  s.issue u { word := encLS 0x08 rd ra width off.toNat, bad := width == 7, gs := [rd, ra] } fun s =>
    let c := s.core u
    let a := wrap 64 (c.gr ra + sext 13 off.toNat)
    poisonOf c [ra] (s.loadG u rd a (2 ^ (width.val % 4)) (decide (width.val < 4))) s

def execStore (u : CoreId) (rs ra : Fin 32) (width : Fin 8) (off : BitVec 13) (s : State) : Res :=
  s.issue u { word := encLS 0x09 rs ra width off.toNat, bad := decide (width.val ≥ 4), gs := [rs, ra] } fun s =>
    let c := s.core u
    let a := wrap 64 (c.gr ra + sext 13 off.toNat)
    poisonOf c [ra] (s.storeC u [⟨a, toBytes (c.gr rs) (2 ^ width.val), c.gBad rs⟩] false) s

/-- op(old, rb) of an atomic of `w` bytes. -/
def amoOp (f w old b : Nat) : Nat :=
  match f with
  | 0 | 9 => b
  | 1 => (old + b) % 2 ^ (8 * w)
  | 2 => old &&& b
  | 3 => old ||| b
  | 4 => old ^^^ b
  | 5 => if sext (8 * w) old < sext (8 * w) b then old else b
  | 6 => if sext (8 * w) old < sext (8 * w) b then b else old
  | 7 => min old b
  | _ => max old b

/-- An atomic on local memory: one read-modify-write (R213). -/
def State.amo (s : State) (u : CoreId) (rd rb f w a : Nat) : CoreRes :=
  let c := s.core u
  let b := c.gr rb % 2 ^ (8 * w)
  let fin := fun (s : State) (old : Nat) (bad : Bool) => CoreRes.done (s.modCore u fun c => c.setG rd (extend (w == 4) w old) bad)
  let wr := fun (old : Nat) => f != 9 || decide (old = c.gr rd % 2 ^ (8 * w))
  let pz := fun (bad : Bool) => (bad && f != 0) || c.gBad rb || (f == 9 && c.gBad rd)
  match caddr a w with
  | .priv off =>
    if a % w ≠ 0 then .raise s 4 a
    else
      let (bs, bad, s) := s.privRead u off w
      let old := ofBytes bs
      fin (if wr old then s.privWrite u off (toBytes (amoOp f w old b) w) (pz bad) else s) old bad
  | .spd off =>
    if a % w ≠ 0 then .raise s 4 a
    else if (s.tile u.tile).spdBlocked (off / 32) then .wait s
    else
      let (r, s) := s.spdRead u.tile (coreReq u.core) (off / 32)
      let i := off % 32
      let bad := r.poison || r.again
      let old := ofBytes ((r.bytes.drop i).take w)
      let val := amoOp f w old b * 2 ^ (8 * i)
      fin (if wr old then s.spdWrite u.tile (off / 32) (mergeBytes r.bytes val (byteMask i w) 0) (bad || pz bad) else s) old bad
  | _ => .raise s 3 a

def execAmo (u : CoreId) (rd ra rb : Fin 32) (p : Fin 8) (funct : BitVec 8) (s : State) : Res :=
  let f := funct.toNat
  let op := f % 16
  s.issue u { word := encR 0x0A rd ra rb p f, bad := decide (op > 9) || decide (f ≥ 32), level := if f ≥ 16 then 0x202 else 0x200,
              pred := p, gs := [rd, ra, rb] } fun s =>
    poisonOf (s.core u) [ra] (s.amo u rd rb op (if f ≥ 16 then 4 else 8) ((s.core u).gr ra)) s

/-! ### Scalar floating point (R216) -/

/-- Functs of FPU below bit 7. -/
def fpuKnown (f : Nat) : Bool := decide (f ≤ 0x0B) || (decide (0x10 ≤ f) && decide (f ≤ 0x14))
/-- The result of a scalar floating-point instruction and its flags; `d` is rd's old value. -/
def fpuOp (rm : RM) (f a b d : Nat) : Nat × FFlags :=
  let fm := if bit f 7 then fp64 else fp32
  let other := if bit f 7 then fp32 else fp64
  let x := a % 2 ^ fm.width
  let y := b % 2 ^ fm.width
  match f % 128 with
  | 0x00 => fpOp fm rm 0x00 x y 0
  | 0x01 => fpOp fm rm 0x01 x y 0
  | 0x02 => fpOp fm rm 0x02 x y 0
  | 0x03 => fpOp fm rm 0x05 x y 0
  | 0x04 => fpOp fm rm 0x06 x y 0
  | 0x05 => fpOp fm rm 0x03 x y (d % 2 ^ fm.width)
  | 0x06 => fpOp fm rm 0x07 x y 0
  | 0x07 => fpOp fm rm 0x08 x y 0
  | 0x08 => let r := fpCmp fm 0 x y; (b01 r.1, r.2)
  | 0x09 => let r := fpCmp fm 1 x y; (b01 r.1, r.2)
  | 0x0A => let r := fpCmp fm 2 x y; (b01 r.1, r.2)
  | 0x0B => (fm.classify x, {})
  | 0x10 => let r := (fm.decode x).toInt rm (-2 ^ 63) (2 ^ 63 - 1); (wrap 64 r.1, r.2)
  | 0x11 => let r := (fm.decode x).toInt .towardZero (-2 ^ 63) (2 ^ 63 - 1); (wrap 64 r.1, r.2)
  | 0x12 => intToFp fm rm (sext 64 a)
  | 0x13 => intToFp fm rm a
  | _ => fpToFp other fm rm (a % 2 ^ other.width)

/-- Does a funct read rb? -/
def fpuTwo (f : Nat) : Bool := decide (f % 128 ≤ 0x0A) && f % 128 != 4

def execFpu (u : CoreId) (rd ra rb : Fin 32) (p : Fin 8) (funct : BitVec 8) (s : State) : Res :=
  let f := funct.toNat
  s.issue u { word := encR 0x0B rd ra rb p f, bad := !fpuKnown (f % 128) || (f % 128 == 4 && rb != 0), pred := p, gs := [rd, ra, rb] } fun s =>
    let c := s.core u
    let (r, g) := fpuOp c.rm f (c.gr ra) (c.gr rb) (c.gr rd)
    (s.modCore u (·.raiseFlags g)).setReg u rd r (c.gBad ra || (fpuTwo f && c.gBad rb) || (f % 128 == 5 && c.gBad rd))

/-! ### SYS (R215) -/

/-- The issue of a SYS instruction, with the bits of [15:12] and imm12 that it names. -/
def sysIssue (g sub tq imm tqMask immMask : Nat) (bad : Bool := false) : Issue :=
  { word := encSys g sub tq imm, bad := bad || (tq ||| tqMask) != tqMask || (imm ||| immMask) != immMask, gs := [g] }

/-- FENCE (R232): S flushes the combining buffer; M waits for the core's translated accesses; I is kept by every fetch. -/
def execFence (u : CoreId) (g : Fin 32) (tq : Fin 16) (imm : BitVec 12) (s : State) : Res :=
  s.issue u (sysIssue g 0x02 tq imm.toNat 0 7 (imm.toNat % 8 == 0)) fun s =>
    let c := s.core u
    if bit imm.toNat 1 && !(c.loads.isEmpty && c.stores.isEmpty) then .wait s
    else .done (if bit imm.toNat 0 then s.cbFlushAll u.tile else s)

def execEcall (u : CoreId) (g : Fin 32) (tq : Fin 16) (imm : BitVec 12) (s : State) : Res :=
  s.issue u (sysIssue g 0x03 tq imm.toNat 0 0xFFF) fun s => .raise s 8 imm.toNat
def execEbreak (u : CoreId) (g : Fin 32) (tq : Fin 16) (imm : BitVec 12) (s : State) : Res :=
  s.issue u (sysIssue g 0x04 tq imm.toNat 0 0) fun s => .raise s 9 0
def execEret (u : CoreId) (g : Fin 32) (tq : Fin 16) (imm : BitVec 12) (s : State) : Res :=
  s.issue u (sysIssue g 0x05 tq imm.toNat 0 0) fun s =>
    let c := s.core u
    if !c.supervisor then .raise s 2 (encSys g 0x05 tq imm.toNat) else .jump (s.modCore u fun c => { c with supervisor := false }) c.epc.toNat
/-- PAUSE: the ticks it idles are not counted (log 5). -/
def execPause (u : CoreId) (g : Fin 32) (tq : Fin 16) (imm : BitVec 12) (s : State) : Res :=
  s.issue u (sysIssue g 0x06 tq imm.toNat 0 0xFFF) .done

/-- Instructions of M-, X- and S-class that the core has issued and that have not completed. -/
def State.coreIssued (s : State) (u : CoreId) : Bool :=
  let T := s.tile u.tile
  let q := T.seqr
  let m := q.queue ++ q.passes.map (·.entry) ++ (q.load.map (·.entry)).toList ++ (q.drain.map (·.entry)).toList
  let slots := s.regions.flatMap fun e => e.2.slot0.queue ++ e.2.slot1.queue
  m.any (fun e => e.core == u.core) || T.chans.any (fun e => e.2.queue.any fun x => x.core == u.core) ||
  slots.any (fun (e : DEntry) => e.tile == u.tile && e.core == u.core) ||
  (s.core u).hurdles.any (fun e => e.2.any fun h => decide (h.completed < h.passed))

/-- The first nonzero exit status in ascending logical ID, core 0 before core 1 (R242). -/
def firstExit (ls : List (Nat × Nat × Nat)) : Option (Nat × Nat × Nat) :=
  (ls.filter fun e => e.2.2 != 0).foldl (fun (b : Option (Nat × Nat × Nat)) (e : Nat × Nat × Nat) =>
    match b with | none => some e | some x => if e.1 < x.1 ∨ (e.1 = x.1 ∧ e.2.1 < x.2.1) then some e else b) none

/-- The job ends once both cores of every member tile have exited (R242, R500). -/
def State.exitCheck (s : State) (p : Nat) : State :=
  match (s.paddock p).resident with
  | none => s
  | some j =>
    if (s.memberTiles p).all fun t => (s.tile t).core0.exited.isSome && (s.tile t).core1.exited.isSome then
      match firstExit (s.job j).exits with
      | none => (s.endJob j .done 0).releaseIfReady p
      | some (l, k, v) => ((s.modJob j fun J => { J with exitStatus := v, exitLid := l, exitCore := k }).endJob j .failed 0x2B).releaseIfReady p
    else s

def execExit (u : CoreId) (g : Fin 32) (tq : Fin 16) (imm : BitVec 12) (s : State) : Res :=
  s.issue u (sysIssue g 0x07 tq imm.toNat 0 0) fun s =>
    if s.coreIssued u then .wait s
    else
      let c := s.core u
      let p := s.tag u.tile
      let s := s.modCore u fun c => { c with running := false, exited := some (c.gr g) }
      let s := match (s.paddock p).resident with
        | some j => s.modJob j fun J => { J with exits := J.exits ++ [(s.lidOr u.tile, u.core.val, c.gr g)] }
        | none => s
      .done ((s.exitCheck p).resetSettle)

/-! ### Tensor descriptors and queue handles -/

/-- A 32-byte aligned local address (R215). -/
def descAddr (a : Nat) : Bool := a % 32 == 0 && (match caddr a 32 with | .priv _ | .spd _ => true | _ => false)

def execTld (u : CoreId) (g : Fin 32) (tq : Fin 16) (imm : BitVec 12) (s : State) : Res :=
  s.issue u (sysIssue g 0x08 tq imm.toNat 15 0) fun s =>
    let a := (s.core u).gr g
    poisonOf (s.core u) [g] (
      if !descAddr a then .raise s 3 a
      else if (spdWordsOf [⟨a, 32, 0⟩]).any (s.tile u.tile).spdBlocked then .wait s
      else
        let (l, s) := s.localReads u true [⟨a, 32, 0⟩]
        if l.any (·.2.2) then .raise s 6 (64 + tq) else .done (s.modCore u fun c => c.setT tq (placedNat l))) s
def execTst (u : CoreId) (g : Fin 32) (tq : Fin 16) (imm : BitVec 12) (s : State) : Res :=
  s.issue u (sysIssue g 0x09 tq imm.toNat 15 0) fun s =>
    let a := (s.core u).gr g
    poisonOf (s.core u) [g] (if !descAddr a then .raise s 3 a else s.storeC u [⟨a, toBytes ((s.core u).tr tq) 32, false⟩] true) s
def execTrd (u : CoreId) (g : Fin 32) (tq : Fin 16) (imm : BitVec 12) (s : State) : Res :=
  s.issue u (sysIssue g 0x0A tq imm.toNat 15 7) fun s => s.setReg u g (fld ((s.core u).tr tq) (32 * imm.toNat) 32) false
def execTwr (u : CoreId) (g : Fin 32) (tq : Fin 16) (imm : BitVec 12) (s : State) : Res :=
  s.issue u (sysIssue g 0x0B tq imm.toNat 15 7) fun s =>
    let c := s.core u
    poisonOf c [g] (.done (s.modCore u fun c => c.setT tq (setFld (c.tr tq) (32 * imm.toNat) 32 (c.gr g)))) s
def execQmov (u : CoreId) (g : Fin 32) (tq : Fin 16) (imm : BitVec 12) (s : State) : Res :=
  s.issue u (sysIssue g 0x0C tq imm.toNat 7 0) fun s => s.setReg u g ((s.core u).qr (tq % 8)) false

end Sys2Proof.Machine
end

