-- ==== Sys2Proof/Machine/Matrix.lean ====
section
/-! DEFINITION. Issue of the M-, X- and S-class instructions: tickets, rejections, skips, waits and summaries; the matrix
instructions (R251-R278). -/
namespace Sys2Proof.Machine

/-! ### Issue -/

/-- The issue of a DT-format instruction: bit 11 must be zero (R263). -/
def dtIssue (op rd ra td z p q funct : Nat) (bad : Bool) : Issue :=
  { word := encDT op rd ra td z p q funct, bad := z != 0 || bad, pred := p, gs := [rd, ra] }
/-- The issue of a DR-format instruction. -/
def drIssue (op rd ra rb p q funct : Nat) (bad : Bool) (more : List Nat := []) : Issue :=
  { word := encDR op rd ra rb p q funct, bad := bad, pred := p, gs := [rd, ra, rb] ++ more }

/-- Codes of R256 that reject, in the order in which a rejection reports them (R257). -/
def rejOrder : List Nat := [0x19, 0x18, 0x14, 0x10, 0x11, 0x16, 0x13, 0x17, 0x12, 0x15, 0x1A]
/-- The first cause of rejection that holds. -/
def rejectCode (l : List (Nat × Bool)) : Option Nat := rejOrder.find? fun k => l.any fun e => e.1 == k && e.2

/-- SEQ_REJECT records a rejection (R297). -/
def State.noteReject (s : State) (u : CoreId) (op code seq : Nat) : State :=
  s.modTile u.tile fun T => T.setReg 0x812 (atBit code 24 8 + atBit op 18 6 + atBit u.core 17 1 + atBit seq 0 16)

/-- A ticketed instruction takes its ticket for a unit into rd (R253). Answers its SEQ. -/
def State.takeTicket (s : State) (u : CoreId) (rd unit : Nat) : Nat × State :=
  let seq := (s.core u).nextSeq unit
  (seq, s.modCore u fun c => (c.takeSeq unit).setG rd (ticketWord unit seq) false)

/-- A ticketed instruction is rejected: it completes at issue with its code (R257). -/
def State.reject (s : State) (u : CoreId) (op rd unit code : Nat) (poisoned : Bool) : CoreRes :=
  let (seq, s) := s.takeTicket u rd unit
  let s := s.noteReject u op code seq
  .done (s.complete u unit seq (s.core u).retired code 0 { poisoned := poisoned } [])

/-- A ticketed instruction that is complete at issue. -/
def State.atOnce (s : State) (u : CoreId) (rd unit count : Nat) : CoreRes :=
  let (seq, s) := s.takeTicket u rd unit
  .done (s.complete u unit seq (s.core u).retired 0 count {} [])

/-- A skipped instruction counts in its summary and is complete (R129, R254). -/
def State.skipped (s : State) (u : CoreId) (mClass : Bool) : CoreRes := .done (s.summarise u mClass 0 0 (s.core u).retired)

/-! ### The sequencer's queue (R251, R252) -/

/-- Queue entries a core holds. -/
def Seqr.held (q : Seqr) (k : Nat) : Nat := (q.queue.filter fun e => e.core == k && e.op != .skippedPass).length
/-- An instruction joins the sequence. -/
def State.enqueueM (s : State) (u : CoreId) (seq : Nat) (op : MOp) : State :=
  let c := s.core u
  let at_ := (s.tile u.tile).arr.tick
  s.modSeqr u.tile fun q => { q with
    queue := q.queue ++ [{ core := u.core, seq := seq, op := op, no := q.nextNo, stamp := c.retired, at_ := at_ }], nextNo := q.nextNo + 1 }
/-- An accepted matrix instruction: it waits while its core's queue is full. -/
def State.acceptM (s : State) (u : CoreId) (rd : Nat) (op : MOp) (then_ : State → State := id) : CoreRes :=
  if (s.tile u.tile).seqr.held u.core ≥ 16 then .wait s
  else
    let (seq, s) := s.takeTicket u rd unitSeq
    .done (then_ (s.enqueueM u seq op))

/-- Does the surface's descriptor fail R224 on this tile? -/
def State.descRefused (s : State) (u : CoreId) (diag : Bool) (bits : Nat) : Bool := descBad (s.tile u.tile).weightSheet diag bits

/-! ### MLOAD (R266-R269) -/

/-- Cell rates a weight format may be loaded with (R268). -/
def loadRateOk (fmt c : Nat) : Bool :=
  match fmtGroup fmt with
  | 1 => c == 1
  | 2 | 3 => c == 2
  | 4 => c == 2 || c == 4
  | _ => false

def execMload (u : CoreId) (rd ra : Fin 32) (td : Fin 16) (z : Fin 2) (p : Fin 8) (q : Fin 8) (funct : Fin 32) (s : State) : Res :=
  s.issue u (dtIssue 0x20 rd ra td z p q funct (q != 0 || funct != 0)) (skip := fun s => s.skipped u true) fun s =>
    let c := s.core u
    let bad := c.gBad ra
    let x := c.gr ra
    let w := LWord.ofNat x
    let bits := c.tr td
    let d := Desc.ofNat bits
    let arrays := (maskArrays w.arrays).length
    match rejectCode [
        (0x19, bad || decide (x ≥ 2 ^ 9) || w.lanes == 0), (0x14, s.descRefused u w.diag bits), (0x10, !loadRateOk d.fmt w.lanes),
        (0x11, (d.nm == 2 && w.lanes == 1) || (w.diag && d.nm != 0)),
        (0x16, d.transposed && (d.nm != 0 || d.fmt == 7 || d.fmt == 8)),
        (0x15, d.cols != 64 * w.lanes || d.rows != (if w.diag then 1 else 64) || decide (d.planes < (if w.shared then 1 else arrays)))] with
    | some k => s.reject u 0x20 rd unitSeq k bad
    | none => if w.arrays = 0 then s.atOnce u rd unitSeq 0 else s.acceptM u rd (.load x bits)

/-! ### MPASS (R270-R272, R276) -/

/-- The mode a half has once every instruction issued so far has taken effect. -/
def Seqr.issueMode (q : Seqr) (b : Bool) : HalfMode := if b then q.issueB else q.issueA
def Seqr.setIssue (q : Seqr) (target : Nat) (m : HalfMode) : Seqr :=
  { q with issueA := if target = 1 then q.issueA else m, issueB := if target = 0 then q.issueB else m }

/-- The transfer a pass issued now is linked to: the last XCOPY or XSPARSE issued since the channel was opened (R276). -/
def Channel.lastLink (c : Channel) : Option XLink := if c.linkNo = c.linkBase then none else c.links.find? fun l => l.no == c.linkNo
def linkAllowed (c : Channel) : Bool :=
  match c.lastLink.map XLink.op with
  | none | some .get | some .unpackNm | some .unpackGather | some .unpackExpand => true
  | _ => false

def execMpass (u : CoreId) (rd ra : Fin 32) (td : Fin 16) (z : Fin 2) (p : Fin 8) (q : Fin 8) (funct : Fin 32) (s : State) : Res :=
  let skip := fun (s : State) => CoreRes.done (s.enqueueM u 0 .skippedPass)
  s.issue u (dtIssue 0x21 rd ra td z p q funct (q != 0 || funct != 0)) (skip := skip) fun s =>
    let c := s.core u
    let T := s.tile u.tile
    let bad := c.gBad ra
    let x := c.gr ra
    let w := PWord.ofNat x
    let bits := c.tr td
    let d := Desc.ofNat bits
    let rate := pairRate d.fmt w.wfmt
    let cr := rate.getD 1
    let mode := passMode w.exact d.fmt
    let ch := tget T.chans w.link
    let mine := ch.open_ && ch.owner == u.core
    match rejectCode [
        (0x19, bad || decide (x ≥ 2 ^ 55) || w.spars == 0 || w.target == 3 || (w.linked && mine && !linkAllowed ch)),
        (0x18, w.linked && !mine), (0x14, s.descRefused u false bits), (0x10, rate.isNone),
        (0x11, (w.spars == 4 && cr == 1) || (w.diag && w.spars != 1) || d.nm != 0),
        (0x13, (w.add && (targetHalves w.target).any fun b => T.seqr.issueMode b != mode) || (d.vdrop == 2 && w.add) || (mode == .bf16Exact && w.diag)),
        (0x12, decide (w.rowBase + w.rowCount > targetRows w.exact cr w.target)),
        (0x15, d.cols != 64 * w.spars || decide (d.rows * d.planes < w.n))] with
    | some k => s.reject u 0x21 rd unitSeq k bad
    | none =>
      let anchor := if w.target = 1 then T.seqr.anchorB else T.seqr.anchorA
      s.acceptM u rd (.pass { word := x, desc := bits, anchor := anchor, link := if w.linked then (ch.lastLink.map (·.no)).getD 0 else 0 }) fun s =>
        if w.add || w.arrays == 0 then s else s.modSeqr u.tile fun q => q.setIssue w.target mode

/-! ### MDRAIN (R273, R274) -/

def execMdrain (u : CoreId) (rd ra : Fin 32) (td : Fin 16) (z : Fin 2) (p : Fin 8) (q : Fin 8) (funct : Fin 32) (s : State) : Res :=
  s.issue u (dtIssue 0x22 rd ra td z p q funct (q != 0 || funct != 0)) (skip := fun s => s.skipped u true) fun s =>
    let c := s.core u
    let T := s.tile u.tile
    let bad := c.gBad ra
    let x := c.gr ra
    let w := DWordM.ofNat x
    let bits := c.tr td
    let d := Desc.ofNat bits
    let want := if !w.exact then HalfMode.normal else if w.lanes = 1 then .bf16Exact else .exact
    let halves := targetHalves w.target
    let rows := if w.scatter then T.arr.drainRows w else w.rowCount
    let surf := if w.scatter then (T.arr.idx (w.target == 1)).scanned else w.rowCount
    match rejectCode [
        (0x19, bad || fld x 12 4 != 0 || fld x 34 30 != 0 || w.target == 3 || w.lanes == 0 || (w.zfill && !w.scatter)),
        (0x14, s.descRefused u false bits), (0x10, !(d.fmt == 0 || d.fmt == 0xA || d.fmt == 0xB)),
        (0x13, halves.any fun b => T.seqr.issueMode b != want),
        (0x17, w.scatter && halves.any fun b => !(T.arr.idx b).valid),
        (0x12, decide (w.rowBase + rows > targetRows w.exact w.lanes w.target)),
        (0x15, d.cols != (if w.exact ∧ w.lanes = 1 then 64 else 256 * w.lanes) || decide (d.rows * d.planes < surf))] with
    | some k => s.reject u 0x22 rd unitSeq k bad
    | none => s.acceptM u rd (.drain x bits) fun s => if wholeClear w then s.modSeqr u.tile fun q => q.setIssue w.target .normal else s

/-! ### MMODE (R275) -/

/-- MMODE takes effect in the sequence: each pass captures at issue the anchor that holds then (R104). -/
def execMmode (u : CoreId) (rd ra rb : Fin 32) (p : Fin 8) (q : Fin 8) (funct : Fin 32) (s : State) : Res :=
  s.issue u (drIssue 0x23 rd ra rb p q funct (rd != 0 || rb != 0 || q != 0 || decide (funct.val > 1))) (skip := fun s => s.skipped u true) fun s =>
    let c := s.core u
    let x := c.gr ra
    if c.gBad ra || decide (x ≥ 2 ^ 11) then
      .done ((s.noteReject u 0x23 0x19 0).summarise u true 0x19 (b01 (c.gBad ra)) c.retired)
    else if (s.tile u.tile).seqr.held u.core ≥ 16 then .wait s
    else
      let s := s.modSeqr u.tile fun q => if funct = 1 then { q with anchorB := sext 11 x } else { q with anchorA := sext 11 x }
      .done (s.summarise u true 0 0 c.retired)

/-! ### Waits and polls (R259-R262, R278) -/

/-- Where a ticket stands. -/
inductive TicketState where
  | unknown | pending | stale
  | held (h : Held)

/-- Is a ticket's instruction still in its unit? -/
def State.ticketPending (s : State) (u : CoreId) (unit seq : Nat) : Bool :=
  let T := s.tile u.tile
  if unit = 0 then
    let q := T.seqr
    (q.queue ++ q.passes.map (·.entry) ++ (q.load.map (·.entry)).toList ++ (q.drain.map (·.entry)).toList).any fun e =>
      e.core == u.core && e.seq == seq && e.op != .skippedPass
  else if unit < 17 then (tget T.chans (unit - 1)).queue.any fun e => e.core == u.core && e.seq == seq
  else
    -- a lent tile's instructions wait in its host region's unit
    s.regions.any fun e => (if unit = 17 then e.2.slot0 else e.2.slot1).queue.any fun x => x.tile == u.tile && x.core == u.core && x.seq == seq

/-- The state of the ticket in a word, for instructions that take tickets of the kinds `ok` allows (R261, R278). -/
def State.ticket (s : State) (u : CoreId) (w : Nat) (ok : Nat → Bool) : TicketState :=
  match ticketUnit w with
  | none => .unknown
  | some unit =>
    let seq := fld w 0 16
    if !ok unit || fld w 16 40 != 0 || !(s.core u).issued unit seq then .unknown
    else if s.ticketPending u unit seq then .pending
    else match (s.tile u.tile).held.find? fun h => h.core == u.core.val && h.unit == unit && h.seq == seq with
      | some h => .held h
      | none => .stale

/-- A 64-byte record buffer (R262). -/
def recordAddr (a : Nat) : Bool := a != 0 && a % 64 == 0 && (match caddr a 64 with | .priv _ | .spd _ => true | _ => false)
/-- A completion record written (R262). -/
def State.writeRecord (s : State) (u : CoreId) (a st : Nat) (words : List Nat) : CoreRes :=
  let bs := toBytes st 8 ++ ((words ++ List.replicate 7 0).take 7).flatMap fun w => toBytes w 8
  s.storeC u [⟨a, bs.take 32, false⟩, ⟨a + 32, bs.drop 32, false⟩] true

/-- A wait (`poll` clear) or a poll of a ticket, with a record buffer where `rb` names one. -/
def State.ticketWait (s : State) (u : CoreId) (op rd ra : Nat) (rb : Option Nat) (poll : Bool) (ok : Nat → Bool) : CoreRes :=
  let c := s.core u
  let answer := fun (s : State) (v : Nat) => CoreRes.done (s.modCore u fun c => c.setG rd v false)
  if c.gBad ra || (rb.any c.gBad) then answer (s.noteReject u op 0x19 0) (statusWord 0x19 0 { poisoned := true })
  else if rb.any fun r => !recordAddr (c.gr r) then .raise s 3 (c.gr (rb.getD 0))
  else
    let give := fun (st : Nat) (words : List Nat) =>
      match rb with
      | none => answer s st
      | some r => match s.writeRecord u (c.gr r) st words with
        | .done s => answer s st
        | x => x
    match s.ticket u (c.gr ra) ok with
    | .unknown => answer (s.noteReject u op 0x18 0) (statusWord 0x18 0 {})
    | .pending => if poll then answer s 0 else .wait s
    | .stale => give staleWord []
    | .held h => give h.status h.words

/-- A summary wait's answer: the summary, which is then cleared (R260). -/
def Summary.word (m : Summary) : Nat := 2 ^ 63 + atBit m.count 16 32 + atBit m.flags 8 8 + atBit m.code 0 8

def execMwait (u : CoreId) (rd ra rb : Fin 32) (p : Fin 8) (q : Fin 8) (s : State) : Res :=
  s.issue u (drIssue 0x24 rd ra rb p q 0 (q != 0)) fun s =>
    s.ticketWait u 0x24 rd ra (some rb) false fun unit => unit == 0
def execMpoll (u : CoreId) (rd ra rb : Fin 32) (p : Fin 8) (q : Fin 8) (s : State) : Res :=
  s.issue u (drIssue 0x24 rd ra rb p q 1 (rb != 0 || q != 0)) fun s =>
    s.ticketWait u 0x24 rd ra none true fun unit => unit == 0

/-- Sequencer instructions of a core that have not completed. -/
def State.mPending (s : State) (u : CoreId) : Bool :=
  let q := (s.tile u.tile).seqr
  (q.queue ++ q.passes.map (·.entry) ++ (q.load.map (·.entry)).toList ++ (q.drain.map (·.entry)).toList).any fun e => e.core == u.core

def execMwaitall (u : CoreId) (rd ra rb : Fin 32) (p : Fin 8) (q : Fin 8) (s : State) : Res :=
  s.issue u (drIssue 0x24 rd ra rb p q 2 (ra != 0 || rb != 0 || q != 0)) fun s =>
    if s.mPending u then .wait s
    else .done (s.modCore u fun c => ({ c with mSum := {} }).setG rd c.mSum.word false)

end Sys2Proof.Machine
end

