-- ==== Sys2Proof/Machine/Transfer.lean ====
section
/-! DEFINITION. The transfer engine: channels, far places, packets, the copies XCOPY, XPUT and XSEND, and completion
(R142, R276, R279-R285, R292, R408-R412). -/
namespace Sys2Proof.Machine

def State.chan (s : State) (t c : Nat) : Channel := tget (s.tile t).chans c
def State.modChan (s : State) (t c : Nat) (f : Channel → Channel) : State := s.modTile t fun T => { T with chans := tmod T.chans c f }

/-! ### Far places (R280) -/

/-- A far place: under the context's tables, in another tile's scratchpad, or in the tile's own. -/
inductive Far where
  | virt (va : Nat)
  | remote (lid off : Nat)
  | own (off : Nat)
  deriving DecidableEq, Repr

/-- A far address of the kinds of R283: 0 translated, 1 remote, 2 own scratchpad. -/
def Far.ofKind (kind a : Nat) : Far := if kind = 0 then .virt a else if kind = 1 then .remote (fld a 32 16) (fld a 0 23) else .own (fld a 0 23)
def Far.plus (f : Far) (n : Nat) : Far :=
  match f with
  | .virt va => .virt (va + n)
  | .remote l o => .remote l ((o + n) % 2 ^ 23)
  | .own o => .own ((o + n) % 2 ^ 23)
/-- Address within its kind. -/
def Far.addr : Far → Nat | .virt a => a | .remote _ o => o | .own o => o
/-- Words from a word-aligned place on that one packet may take: it crosses no 2 KiB boundary (R409). -/
def Far.room (f : Far) : Nat := (2048 - f.addr % 2048) / 32

/-- Bits that a far address of a kind must leave clear, or a logical ID that does not exist (R280, R315). -/
def farBad (kind a : Nat) : Bool :=
  if kind = 0 then decide (a ≥ 2 ^ 56)
  else if kind = 1 then fld a 23 9 != 0 || decide (a ≥ 2 ^ 48) || decide (fld a 32 16 ≥ 540)
  else decide (a ≥ 2 ^ 23)

/-! ### The surface's words (R281) -/

/-- One element of a transfer: where its bytes are in the tile, how many, and its far word as an offset from the far base. -/
structure Chunk where
  loc : Nat
  len : Nat
  far : Int
  deriving DecidableEq, Repr, Inhabited

/-- The chunks of byte runs as parts of a packed image that stands at `at_`: each run padded to whole words. -/
def imageRuns : List (Nat × Nat) → Nat → List Chunk
  | [], _ => []
  | (off, n) :: t, at_ => (upto 0 (cdiv n 32)).map (fun k => { loc := off + 32 * k, len := if off % 32 = 0 then 32 else min 32 (n - 32 * k), far := at_ + 32 * k }) ++ imageRuns t (at_ + up32 n)
/-- Rows packed as one stream move byte for byte into padded image rows; other rows move as whole words. -/
def Desc.imageChunks (d : Desc) (aux : Bool) : List Chunk :=
  let rows := d.rowRuns
  let size := d.rows * d.planes * up32 d.rowBytes
  let part := fun (l : List Chunk) => if d.rowPitch = 0 then
      (l.zip (rows.flatMap fun r => (upto 0 (cdiv r.2 32)).map fun k => min 32 (r.2 - 32 * k))).map fun e => { e.1 with len := e.2 } else l
  part (imageRuns rows 0) ++ (if aux then imageRuns (d.auxRuns false) size else [])
/-- The words of the same-layout form, each once in surface order. -/
def Desc.layoutChunks (d : Desc) (aux : Bool) : List Chunk :=
  let runs := d.rowRuns ++ (if aux then d.auxRuns false else [])
  let ws := runs.flatMap fun r => if r.2 = 0 then [] else upto (r.1 / 32) ((r.1 + r.2 - 1) / 32 + 1 - r.1 / 32)
  let once := ws.foldl (fun (acc : List Nat) w => if acc.head? = some w then acc else w :: acc) [] |>.reverse
  once.map fun w => { loc := 32 * w, len := 32, far := (32 * w : Int) - d.base }

/-- FAR of an XCOPY (R281); XSEND sends as FAR 2 does. -/
def XEntry.farKind (e : XEntry) : Nat := if e.op = .xsend then 2 else fld e.instr 1 2
def XEntry.zre (e : XEntry) : Bool := bit e.instr 3
def XEntry.aux (e : XEntry) : Bool := bit e.instr 4
/-- The elements of an XCOPY or XSEND. -/
def XEntry.chunks (e : XEntry) : List Chunk :=
  let d := Desc.ofNat e.desc
  if e.farKind = 1 then d.layoutChunks e.aux else d.imageChunks e.aux
/-- Leading rows whose every word is among the first `pos` elements (R276). -/
def XEntry.rowMark (e : XEntry) (pos : Nat) : Nat :=
  let d := Desc.ofNat e.desc
  let all := d.rows * d.planes
  if e.farKind = 1 then
    let cs := (e.chunks.take pos).map (·.loc / 32)
    (d.rowRuns.takeWhile fun r => r.2 == 0 || ((upto (r.1 / 32) ((r.1 + r.2 - 1) / 32 + 1 - r.1 / 32)).all cs.contains)).length
  else min all (pos / cdiv d.rowBytes 32)
/-- The far place of an XCOPY's element. -/
def XEntry.far (e : XEntry) (c : Chunk) : Far :=
  if e.farKind = 0 then .virt (e.ra + c.far.toNat) else .remote (fld e.ra 32 16) ((fld e.ra 0 23 + c.far).toNat % 2 ^ 23)

/-! ### The tile's own scratchpad, read and written by the engine -/

/-- Bytes read, with whether a word carried a mark and whether detect-only mode read again (R181, R295): an error that the
re-reads find again is delivered poisoned. -/
def State.xferRead (s : State) (t off n : Nat) : List Byte × Bool × Bool × State :=
  let ws := if n = 0 then [] else upto (off / 32) ((off + n - 1) / 32 + 1 - off / 32)
  let (rs, s) := s.spdReads t .xfer (ws.map (· % 2 ^ 18))
  let again := rs.any (·.again)
  let (_, s) := s.rerunLimit t .xfer (s.tile t).rerunMax ((ws.map (· % 2 ^ 18)).zip rs)
  (((rs.flatMap (·.bytes)).drop (off % 32)).take n, rs.any fun r => r.poison || r.again, again && decide ((s.tile t).rerunMax > 0), s)
/-- Bytes written: whole words take the mark they come with, a word written in part keeps one it had (R173, R179). -/
def State.xferWrite (s : State) (t off : Nat) (bs : List Byte) (poison : Bool) : State :=
  let n := bs.length
  (splitUnits 32 off n 0).foldl (fun s p =>
    let w := p.addr / 32 % 2 ^ 18
    let part := (bs.drop p.pos).take p.len
    if p.len = 32 then s.spdWrite t w part poison
    else
      let (r, s) := s.spdRead t .xfer w
      s.spdPut t w (mergeBytes r.bytes (ofBytes part * 2 ^ (8 * (p.addr % 32))) (byteMask (p.addr % 32) p.len) 0) (poison || r.poison || r.again)) s
/-- Does any word of a byte range wait for a sweep or a fill? -/
def Tile.rangeBlocked (T : Tile) (off n : Nat) : Bool := n != 0 && (upto (off / 32) ((off + n - 1) / 32 + 1 - off / 32)).any fun w => T.spdBlocked (w % 2 ^ 18)

/-! ### Requests of a channel (R204, R309, R315, R410) -/

/-- What a request of the engine comes to. -/
inductive Asked where
  | sent (s : State)
  | wait (s : State)
  | failed (s : State) (code : Nat)
  | now (s : State) (words : List (Nat × Bool))

/-- A channel's element is translated; where that waits or faults the channel is suspended at it. -/
def State.chanXlate (s : State) (t c va : Nat) (write : Bool) : Option (Nat × Nat) × State :=
  match s.xlate t va write with
  | (.hit tg out, s) => (some (tg, out), s)
  | (.walking, s) => (none, s.modChan t c fun x => { x with wait := some { va := va, write := write } })
  | (.fault k, s) =>
    let (h, s) := s.holdFault (s.tag t) t c { va := va, write := write } k
    (none, s.modChan t c fun x => { x with wait := some h })

/-- A request to a far place outside the tile. -/
def State.farSend (s : State) (t c n : Nat) (far : Far) (key : Nat) (write : Bool) (p : Packet) : Asked :=
  if !s.canRequest t then .wait s
  else match far with
    | .virt va =>
      match s.chanXlate t c va write with
      | (none, s) => .wait s
      | (some (tg, out), s) => match s.memNode (s.tileCtx t) tg out with
        | none => .failed (s.lostRequest t 5 0xFFFF) 0x21
        | some dst => .sent (s.request t (.channel c key n) { p with dst := dst, addr := (if p.addr = 0 then 0 else maskedBit tg) + out }).2
    | .remote lid off => match s.mapNode t lid with
      | none => .failed (s.lostRequest t 5 lid) 0x21
      | some dst => .sent (s.request t (.channel c key n) { p with dst := dst, dstLid := lid, addr := p.addr + off }).2
    | .own _ => .wait s

/-- `n` words read from a word-aligned far place; `key` comes back with the answer. -/
def State.farRead (s : State) (t c : Nat) (far : Far) (n key : Nat) (zre : Bool) : Asked :=
  match far with
  | .own off =>
    if (s.tile t).rangeBlocked off (32 * n) then .wait s
    else
      let ws := upto (off / 32) n
      let r := ws.foldl (fun (acc : List (Nat × Bool) × State) w =>
        let (b, p, _, s) := acc.2.xferRead t (32 * w) 32
        (acc.1 ++ [(ofBytes b, p)], s)) ([], s)
      .now r.2 r.1
  | .virt _ => s.farSend t c n far key false { typ := .memRead, words := n }
  | .remote .. => s.farSend t c n far key false { typ := .read, words := n, zre := zre }

/-- Whole words written to a far place. -/
def State.farWrite (s : State) (t c : Nat) (far : Far) (data : List Word256) (poison key : Nat) (zre : Bool) : Asked :=
  let n := data.length
  match far with
  | .own off =>
    if (s.tile t).rangeBlocked off (32 * n) then .wait s
    else .now ((upto 0 n).foldl (fun s i => s.xferWrite t (off + 32 * i) (Word256.bytes (data.getD i 0)) (bit poison i)) s) []
  | .virt _ => s.farSend t c n far key true { typ := .memWrite, words := n, poison := poison, data := data }
  | .remote .. => s.farSend t c n far key true { typ := .write, words := n, poison := poison, data := data, zre := zre && (zreWords data poison).2 }

/-- Bytes within one far word written: a masked write (R170, R450). -/
def State.farPart (s : State) (t c : Nat) (far : Far) (bs : List Byte) (poison : Bool) (key : Nat) : Asked :=
  let i := far.addr % 32
  let mask : Word256 := BitVec.ofNat 256 (byteMask i bs.length)
  let data : Word256 := BitVec.ofNat 256 (ofBytes bs * 2 ^ (8 * i))
  let base := match far with | .virt a => Far.virt (a - i) | .remote l o => Far.remote l (o - i) | .own o => Far.own (o - i)
  if bs.length = 32 then s.farWrite t c far [data] (b01 poison) key false
  else match far with
    | .own off => if (s.tile t).rangeBlocked off bs.length then .wait s else .now (s.xferWrite t off bs poison) []
    | .virt _ => s.farSend t c 1 base key true { typ := .memWrite, words := 2, addr := 2 ^ 48, poison := 2 * b01 poison, data := [mask, data] }
    | .remote .. => s.farSend t c 1 base key true { typ := .write, words := 2, addr := 2 ^ 48, poison := 2 * b01 poison, data := [mask, data] }

/-! ### Completion (R255, R262, R276) -/

/-- The head transfer of a channel completes; the next begins at its first element. -/
def State.xfinish (s : State) (t c code count : Nat) (words : List Nat) (pruned : Bool := false) : State :=
  let ch := s.chan t c
  match ch.queue with
  | [] => s
  | e :: rest =>
    let s := s.modChan t c fun x =>
      { open_ := x.open_, owner := x.owner, queue := rest, linkNo := x.linkNo, linkBase := x.linkBase
        links := x.links.map fun l => if l.no = e.link ∧ e.link ≠ 0 then { l with code := some code } else l }
    s.complete (mkCore t e.core) (unitChan c) e.seq e.stamp code count { rerun := ch.rerun, poisoned := ch.poisoned || e.rbPoison, pruned := pruned } words

/-- The row mark of the head transfer moves on. -/
def State.setMark (s : State) (t c no mark : Nat) : State :=
  if no = 0 then s else s.modChan t c fun x => { x with links := x.links.map fun l => if l.no = no then { l with mark := mark } else l }

/-- The answer for a copy's words: `n` elements are performed. -/
def State.xadvance (s : State) (t c n netWords : Nat) : State :=
  let s := s.modChan t c fun x => { x with busy := false, pos := x.pos + n, bytes := x.bytes + 32 * n, netBytes := x.netBytes + 32 * netWords }
  let ch := s.chan t c
  match ch.queue with
  | e :: _ => if e.op = .get ∨ e.op = .put then s.setMark t c e.link (e.rowMark ch.pos) else s
  | [] => s

/-! ### Copies -/

/-- How many of the elements form one packet: consecutive far words, at most 64, crossing no 2 KiB boundary. -/
def batchLen (room : Nat) : List Chunk → Nat
  | [] => 0
  | a :: t => if room = 0 then 0 else match t with
    | [] => 1
    | b :: _ => if b.far = a.far + 32 ∧ room > 1 then 1 + batchLen (room - 1) t else 1

/-- Local words of elements as a packet carries them, with their marks. -/
def State.readChunks (s : State) (t : Nat) : List Chunk → List Word256 × Nat × Bool × State
  | [] => ([], 0, false, s)
  | k :: ks =>
    let (b, p, r, s) := s.xferRead t k.loc k.len
    let (ws, m, r', s) := s.readChunks t ks
    (wordOf b :: ws, b01 p + 2 * m, r || r', s)

/-- An answer to the engine's request, put to the channel's use: whether the channel may go on at once. -/
def Asked.take (a : Asked) (t c : Nat) (then_ : State → List (Nat × Bool) → State) : Bool × State :=
  match a with
  | .sent s => (false, s.modChan t c fun x => { x with busy := true })
  | .wait s => (false, s)
  | .failed s code => (true, s.xfinish t c code (s.chan t c).bytes [(s.chan t c).netBytes])
  | .now s ws => (true, then_ s ws)

/-- The next packet of an XCOPY. -/
def State.copyStep (s : State) (t c : Nat) (e : XEntry) : Bool × State :=
  let ch := s.chan t c
  let rest := e.chunks.drop ch.pos
  match rest with
  | [] => (true, s.xfinish t c 0 ch.bytes [ch.netBytes])
  | k :: _ =>
    let far := e.far k
    let n := batchLen (min 64 far.room) rest
    let run := rest.take n
    if e.op = .get then (s.farRead t c far n ch.pos e.zre).take t c fun s _ => s
    else if run.any fun k => (s.tile t).rangeBlocked k.loc k.len then (false, s)
    else
      let (ws, m, again, s) := s.readChunks t run
      let s := s.modChan t c fun x => { x with rerun := x.rerun || again, poisoned := x.poisoned || decide (m ≠ 0) }
      (s.farWrite t c far ws m ch.pos e.zre).take t c fun s _ => s

/-- Words that arrived for a GET are written to the tile (R281). -/
def State.xferData (s : State) (t c : Nat) (e : XEntry) (pos : Nat) (ws : List Word256) (poison : Nat) (netWords : Nat) : State :=
  let run := (e.chunks.drop pos).take ws.length
  let s := ((run.zip ws).zip (upto 0 ws.length)).foldl (fun s x => s.xferWrite t x.1.1.loc ((Word256.bytes x.1.2).take x.1.1.len) (bit poison x.2)) s
  (s.modChan t c fun x => { x with poisoned := x.poisoned || decide (poison ≠ 0) }).xadvance t c ws.length netWords

/-- XPUT: one narrow write (R282). -/
def State.putStep (s : State) (t c : Nat) (e : XEntry) : Bool × State :=
  let ch := s.chan t c
  let n := if bit e.instr 0 then 16 else 8
  if ch.pos > 0 then (true, s.xfinish t c 0 n [32])
  else (s.farPart t c (Far.ofKind 1 e.ra) (toBytes e.rb 8 ++ (if n = 16 then toBytes e.rb1 8 else [])) e.rbPoison 0).take t c fun s _ => s

/-- The tile that installed a drove (R325). -/
def State.bellwether (s : State) (tag id : Nat) : Option Nat :=
  (s.tiles.find? fun e => e.2.droves.any fun d => d.id == id && d.tag == tag && !d.removing).map (·.1)

/-- Packets of one drove send go to the drove's bellwether under one transaction number, the last with LAST (R328). None
where no bellwether holds the drove. -/
def State.droveSend (s : State) (t : Nat) (for_ : ReqFor) (drove : Nat) (ps : List Packet) : Option State :=
  match s.bellwether (s.tag t) drove with
  | none => none
  | some b =>
    let full := fun (p : Packet) (last : Bool) => { p with typ := .droveData, words := p.data.length, dst := b, dstLid := s.lidOr b, drove := drove, last := last }
    match ps with
    | [] => some s
    | p :: rest =>
      let (x, s) := s.request t for_ (full p rest.isEmpty)
      let more := (rest.zip (upto 1 rest.length)).map fun e => { (s.stamp t (full e.1 (e.2 == rest.length))) with txn := x }
      let s := s.modTile t fun T => { T with net := { T.net with requests := T.net.requests.map fun q => if q.pkt.txn = x then { q with more := more } else q } }
      some (more.foldl (fun s e => s.tileSend t e) s)

/-- XSEND: the packets of the image (R284). -/
def State.sendStep (s : State) (t c : Nat) (e : XEntry) : Bool × State :=
  let off := fld e.ra 32 23
  let cs := e.chunks
  if cs.any fun k => (s.tile t).rangeBlocked k.loc k.len then (false, s)
  else if !s.canRequest t then (false, s)
  else
    let pkts := (cs.foldl (fun (acc : List (List Chunk)) k =>
      match acc with
      | r :: rs => if r.length < 64 ∧ ((off + k.far.toNat) % 2048 ≠ 0) then (r ++ [k]) :: rs else [k] :: acc
      | [] => [[k]]) []).reverse
    let (ps, s) := pkts.foldl (fun (acc : List Packet × State) r =>
      let (ws, m, again, s) := acc.2.readChunks t r
      let s := s.modChan t c fun x => { x with rerun := x.rerun || again, poisoned := x.poisoned || decide (m ≠ 0) }
      let at_ := (off + ((r.head?.map Chunk.far).getD 0).toNat) % 2 ^ 23
      (acc.1 ++ [{ poison := m, data := ws, addr := at_, zre := e.zre && (zreWords ws m).2 }], s)) ([], s)
    match s.droveSend t (.channel c 0 0) (fld e.ra 0 16) ps with
    | none => (true, (s.lostRequest t 5 0xFFFF).xfinish t c 0x21 0 [0, 0])
    | some s => (false, s.modChan t c fun ch => { ch with busy := true })

end Sys2Proof.Machine
end

