-- ==== Sys2Proof/Machine/Sparse.lean ====
section
/-! DEFINITION. The sparse stage of the transfer engine: N:M packing and the blocked compressed-row format (R120-R127, R136-R141, R283). -/
namespace Sys2Proof.Machine

/-! ### The parameter block (R283) -/

structure SparseP where
  values : Nat
  index  : Nat
  scales : Nat
  rowptr : Nat
  i0 : Nat
  i1 : Nat
  j0 : Nat
  j1 : Nat
  base : Nat
  list : Nat
  far : Nat
  h : Nat
  c : Nat
  s : Nat
  reserved : Bool
  deriving DecidableEq, Repr

def SparseP.ofNat (n : Nat) : SparseP where
  values := fld n 0 64
  index := fld n 64 64
  scales := fld n 128 64
  rowptr := fld n 192 64
  i0 := fld n 256 32
  i1 := fld n 288 32
  j0 := fld n 320 32
  j1 := fld n 352 32
  base := fld n 384 32
  list := fld n 416 32
  far := fld n 448 8
  h := fld n 456 8
  c := lanesOf (fld n 464 2)
  s := fld n 466 2
  reserved := fld n 468 4 != 0 || fld n 472 40 != 0

/-- H of the parameter block. -/
def SparseP.rows (p : SparseP) : Nat := 4 ^ p.h
/-- S of the parameter block. -/
def SparseP.nm (p : SparseP) : Nat := if p.s = 1 then 2 else 4
def XEntry.sparse (e : XEntry) : SparseP := SparseP.ofNat e.par
/-- The fourth funct bit of PACK_NM. -/
def XEntry.prune (e : XEntry) : Bool := bit e.instr 3

/-! ### Elements with their marks -/

/-- Bytes of the tile read word by word, each with its word's mark. -/
def State.xferMarked (s : State) (t off n : Nat) : List (Byte × Bool) × Bool × State :=
  (if n = 0 then [] else splitUnits 32 off n 0).foldl (fun (acc : List (Byte × Bool) × Bool × State) u =>
    let (b, p, r, s) := acc.2.2.xferRead t u.addr u.len
    (acc.1 ++ b.map (fun x => (x, p)), acc.2.1 || r, s)) ([], false, s)
/-- Bytes of the tile written, a word taking the mark of any byte it receives. -/
def State.xferPut (s : State) (t off : Nat) (bs : List (Byte × Bool)) : State :=
  (if bs.isEmpty then [] else splitUnits 32 off bs.length 0).foldl (fun s u =>
    let part := (bs.drop u.pos).take u.len
    s.xferWrite t u.addr (part.map (·.1)) (part.any (·.2))) s
/-- `n` elements of `w` bits that bytes hold, each with the marks of its bytes. -/
def elemsOf (w n : Nat) (bs : List (Byte × Bool)) : List (Nat × Bool) :=
  let v := ofBytes (bs.map (·.1))
  (upto 0 n).map fun k => (fld v (w * k) w, ((bs.drop (w * k / 8)).take ((w * k + w - 1) / 8 + 1 - w * k / 8)).any (·.2))
/-- The bytes of elements of `w` bits. -/
def packElems (w : Nat) (es : List (Nat × Bool)) : List (Byte × Bool) :=
  let v := (es.zip (upto 0 es.length)).foldl (fun v (e : (Nat × Bool) × Nat) => v + e.1.1 % 2 ^ w * 2 ^ (w * e.2)) 0
  let n := cdiv (w * es.length) 8
  (toBytes v n).zip ((upto 0 n).map fun b => ((es.drop (8 * b / w)).take ((8 * b + 7) / w + 1 - 8 * b / w)).any (·.2))

/-- Plane and row within it of a row counted over planes (R271). -/
def Desc.rowAt (d : Desc) (r : Nat) : Nat × Nat := (r / d.rows, r % d.rows)
/-- Byte offset of a row. -/
def Desc.rowOff (d : Desc) (r : Nat) : Nat := d.elemBit (r / d.rows) (r % d.rows) 0 / 8
/-- Scale bytes of one row, and the first one's offset. -/
def Desc.rowScales (d : Desc) : Nat := cdiv d.cols 32
def Desc.rowScaleOff (d : Desc) (r : Nat) : Nat := d.scaleBase + r / d.rows * up32 (d.rows * d.rowScales) + r % d.rows * d.rowScales

/-- A dense row: its elements with their scale codes and marks. -/
def State.denseRow (s : State) (t : Nat) (d : Desc) (r : Nat) : List (Nat × Nat × Bool) × Bool × State :=
  let (b, a, s) := s.xferMarked t (d.rowOff r) d.rowBytes
  let (k, a', s) := if d.hasScale then s.xferMarked t (d.rowScaleOff r) d.rowScales else ([], false, s)
  let es := elemsOf d.width d.cols b
  ((es.zip (upto 0 d.cols)).map fun e =>
    let sc := if d.hasScale then k.getD (e.2 / 32) (127, false) else (127, false)
    (e.1.1, sc.1.toNat, e.1.2 || sc.2), a || a', s)
def State.denseRows (s : State) (t : Nat) (d : Desc) : List Nat → List (List (Nat × Nat × Bool)) × Bool × State
  | [] => ([], false, s)
  | r :: rs =>
    let (x, a, s) := s.denseRow t d r
    let (xs, a', s) := s.denseRows t d rs
    (x :: xs, a || a', s)

/-! ### Far runs -/

/-- The far bytes `[a, a + n)` as the words gathered so far hold them, with their marks. -/
def Channel.far (c : Channel) (kind a n : Nat) : List (Byte × Bool) :=
  let f := (Far.ofKind kind a).addr
  (upto f n).map fun x =>
    match c.buf.find? fun w => w.1 == x / 32 with
    | some w => (BitVec.ofNat 8 (fld w.2.1 (8 * (x % 32)) 8), w.2.2)
    | none => (0, false)
/-- A far number of 4 bytes. -/
def Channel.farNat (c : Channel) (kind a : Nat) : Nat := ofBytes ((c.far kind a 4).map (·.1))
/-- The first far word still wanted of some runs, and how many consecutive words from it on one packet reads. -/
def Channel.missing (c : Channel) (kind : Nat) (runs : List (Nat × Nat)) : Option (Far × Nat) :=
  let gone := fun (w : Nat) => c.buf.any fun x => x.1 == w
  runs.findSome? fun r =>
    let f := (Far.ofKind kind r.1).addr
    let ws := if r.2 = 0 then [] else upto (f / 32) ((f + r.2 - 1) / 32 + 1 - f / 32)
    match ws.dropWhile gone with
    | [] => none
    | w :: more =>
      let at_ : Far := (Far.ofKind kind (r.1 - f % 32)).plus (32 * (w - f / 32))
      some (at_, 1 + ((more.takeWhile fun x => !gone x).take (min 63 (at_.room - 1))).length)
/-- Far writes of bytes from a far address on, word by word. -/
def farOuts (a : Nat) (bs : List (Byte × Bool)) : List (Nat × List Byte × Bool) :=
  if bs.isEmpty then [] else (splitUnits 32 a bs.length 0).map fun u =>
    let part := (bs.drop u.pos).take u.len
    (u.addr, part.map (·.1), part.any (·.2))

/-! ### N:M packing (R120, R127, R137) -/

/-- Is magnitude `a` at least `b`? Where a NaN stands on one side, `nan` says which side wins. -/
def magGe (nan : Bool) (a b : FV) : Bool :=
  match a, b with
  | .nan, .nan => true
  | .nan, _ => nan
  | _, .nan => !nan
  | .inf _, _ => true
  | .fin .., .inf _ => false
  | .fin _ m e, .fin _ n f => if e ≤ f then decide (m ≥ n * 2 ^ (f - e).toNat) else decide (m * 2 ^ (e - f).toNat ≥ n)
/-- The positions of the `n` largest of a group, the lower index winning a tie, in ascending order. -/
def largest (nan : Bool) (n : Nat) (vs : List (Nat × FV)) : List Nat :=
  ((vs.filter fun a => decide ((vs.filter fun b => b.1 != a.1 && (if b.1 < a.1 then magGe nan b.2 a.2 else !magGe nan a.2 b.2)).length < n)).map (·.1))
/-- A group as stored: `n` slots of (bits, index, mark), and whether weights were left out. -/
def packGroup (fmt : Nat) (nan : Bool) (n : Nat) (g : List (Nat × Nat × Bool)) : List (Nat × Nat × Bool) × Bool :=
  let all := g.zip (upto 0 4)
  let nz := all.filter fun e => e.1.2.2 || !elemZero fmt e.1.1 e.1.2.1
  let keep := if nz.length ≤ n then nz.map (·.2) else largest nan n (nz.map fun e => (e.2, scaled (decodeElem fmt e.1.1) e.1.2.1))
  let any := g.any (·.2.2)
  let spare := (([0, 1, 2, 3] : List Nat).find? fun k => !keep.contains k).getD 0
  ((upto 0 n).map fun i => match keep[i]? with
    | some k => let x := g.getD k (0, 0, false); (x.1, k, x.2.2 || any)
    | none => (0, spare, any), decide (nz.length > n))

/-- The sum of two weights of one format, rounded once; where the format holds no such value, a free one (R137). -/
def sumElem (fmt a b free : Nat) : Nat :=
  let w := fmtWidth fmt
  if fmt = 3 || fmt = 6 then
    let v := sext 8 a + sext 8 b
    if -128 ≤ v ∧ v ≤ 127 then wrap 8 v else free % 256
  else
    let v := (FV.add .nearestEven (decodeElem fmt a) (decodeElem fmt b)).1
    let small := fun (r : Nat × FFlags) => if r.2.of || (v == .nan && decide (fmt ≥ 7)) then free % 2 ^ w else r.1
    match fmt with
    | 0 => (bf16.encode .nearestEven v).1
    | 2 | 5 => ((FFmt.mk 5 2).encode .nearestEven v).1
    | 1 | 4 => small (encodeSmall 4 3 7 0x7E 0x7F v)
    | 7 => small (encodeSmall 3 2 3 0x1F 0 v)
    | 8 => small (encodeSmall 2 3 1 0x1F 0 v)
    | 9 => small (encodeSmall 2 1 1 0x7 0 v)
    | 0xA => (fp32.encode .nearestEven v).1
    | _ => (fp64.encode .nearestEven v).1

/-- Bytes of one plane's values, indices and scales on the compressed side. -/
def XEntry.nmSizes (e : XEntry) : Nat × Nat × Nat :=
  let d := Desc.ofNat e.desc
  let n := 64 * d.cols
  (d.width * n / 8, n / 4, if d.hasScale then d.rows * d.rowScales else 0)
/-- Plane and group of the present element of an N:M transfer. -/
def XEntry.nmAt (e : XEntry) (pos : Nat) : Nat × Nat := let g := (Desc.ofNat e.desc).rows / 4; (pos / g, pos % g)
/-- Stored rows of one group. -/
def SparseP.slots (p : SparseP) : Nat := if p.nm = 2 then 2 else 1
/-- The far runs of the present group: values, indices, and with the first group of a plane the scales. -/
def XEntry.nmRuns (e : XEntry) (pos : Nat) : List (Nat × Nat) :=
  let d := Desc.ofNat e.desc
  let p := e.sparse
  let (pl, g) := e.nmAt pos
  let (v, x, k) := e.nmSizes
  let n := p.slots
  [(p.values + pl * up32 v + n * g * (d.width * d.cols / 8), n * (d.width * d.cols / 8)), (p.index + pl * up32 x + n * g * (d.cols / 4), n * (d.cols / 4))] ++
    (if g = 0 ∧ k ≠ 0 then [(p.scales + pl * up32 k, k)] else [])

/-- The element is performed: the restart point, the blocks done and the row mark move on. -/
def State.sparseNext (s : State) (t c : Nat) (e : XEntry) (mark : Option Nat) (f : Channel → Channel) : State :=
  let s := s.modChan t c fun x => f { x with buf := [] }
  match mark with
  | some m => s.setMark t c e.link m
  | none => s
/-- Marks met add to POISONED, re-reads to RERUN. -/
def State.sparseFlags (s : State) (t c : Nat) (poison again : Bool) : State :=
  s.modChan t c fun x => { x with poisoned := x.poisoned || poison, rerun := x.rerun || again }

/-- One group packed: its far writes are left in `outs`; with PRUNE clear an overfull group ends the transfer. -/
def State.packNm (s : State) (t c : Nat) (e : XEntry) : State :=
  let ch := s.chan t c
  let d := Desc.ofNat e.desc
  let p := e.sparse
  let (pl, g) := e.nmAt ch.pos
  let rows := (upto 0 4).map fun k => pl * d.rows + 4 * g + k
  let (xs, a, s) := s.denseRows t d rows
  let (fv, s) := s.takeFree
  let groups := (upto 0 d.cols).map fun n => packGroup d.fmt (fv % 2 == 1) p.slots (xs.map fun r => r.getD n (0, 127, false))
  match (groups.zip (upto 0 d.cols)).find? fun x => x.1.2 && !e.prune with
  | some x => s.xfinish t c 0x22 ch.stored [(pl * d.rows + 4 * g) * d.cols + x.2]
  | none =>
    let (k, a', s) := if g = 0 ∧ d.hasScale then s.xferMarked t (d.rowScaleOff (pl * d.rows)) (d.rows * d.rowScales) else ([], false, s)
    let slot := fun i => groups.map fun x => x.1.getD i (0, 0, false)
    let vals := (upto 0 p.slots).flatMap fun i => packElems d.width ((slot i).map fun x => (x.1, x.2.2))
    let idxs := (upto 0 p.slots).flatMap fun i => packElems 2 ((slot i).map fun x => (x.2.1, x.2.2))
    let outs := ((e.nmRuns ch.pos).zip [vals, idxs, k]).flatMap fun x => farOuts x.1.1 x.2
    let last := decide (4 * (g + 1) = d.rows)
    let s := s.sparseFlags t c (xs.any fun r => r.any (·.2.2)) (a || a')
    s.sparseNext t c e none fun x => { x with
      pos := x.pos + 1, outs := outs, stored := x.stored + b01 last, pruned := x.pruned + (groups.filter (·.2)).length }

/-- One group unpacked into its four dense rows. -/
def State.unpackNm (s : State) (t c : Nat) (e : XEntry) : State :=
  let ch := s.chan t c
  let d := Desc.ofNat e.desc
  let p := e.sparse
  let (pl, g) := e.nmAt ch.pos
  let runs := (e.nmRuns ch.pos).map fun r => ch.far p.far r.1 r.2
  let vals := elemsOf d.width (p.slots * d.cols) (runs.getD 0 [])
  let idxs := elemsOf 2 (p.slots * d.cols) (runs.getD 1 [])
  let (fv, s) := s.takeFree
  let cell := fun (k n : Nat) =>
    let sel := (upto 0 p.slots).filterMap fun i =>
      let v := vals.getD (i * d.cols + n) (0, false)
      let x := idxs.getD (i * d.cols + n) (0, false)
      if x.1 = k then some (v.1, v.2 || x.2) else none
    match sel with
    | [] => (0, (upto 0 p.slots).any fun i => (idxs.getD (i * d.cols + n) (0, false)).2)
    | [v] => v
    | v :: w :: _ => (sumElem d.fmt v.1 w.1 fv, v.2 || w.2)
  let s := (upto 0 4).foldl (fun s k => s.xferPut t (d.rowOff (pl * d.rows + 4 * g + k)) (packElems d.width ((upto 0 d.cols).map (cell k)))) s
  let s := match runs[2]? with
    | some k => s.xferPut t (d.rowScaleOff (pl * d.rows)) k
    | none => s
  let last := decide (4 * (g + 1) = d.rows)
  let s := s.sparseFlags t c (runs.any fun r => r.any (·.2)) false
  s.sparseNext t c e (some (pl * d.rows + 4 * (g + 1))) fun x => { x with pos := x.pos + 1, stored := x.stored + b01 last }

/-! ### The blocked compressed-row format (R138-R141) -/

/-- One block row packed: each block with a nonzero element, then the next ROWPTR entry. -/
def State.packBcr (s : State) (t c : Nat) (e : XEntry) : State :=
  let ch := s.chan t c
  let d := Desc.ofNat e.desc
  let p := e.sparse
  let h := p.rows
  let (xs, a, s) := s.denseRows t d ((upto 0 h).map fun k => ch.pos * h + k)
  let blocks := (upto 0 (d.cols / 64)).filterMap fun j =>
    let b := xs.map fun r => (r.drop (64 * j)).take 64
    if b.any fun r => r.any fun x => x.2.2 || !elemZero d.fmt x.1 x.2.1 then some (j, b) else none
  let nat4 := fun (n : Nat) => (toBytes n 4).map fun x => (x, false)
  let outs := ((blocks.zip (upto (p.base + ch.stored) blocks.length)).flatMap fun x =>
    let b := x.1.2
    farOuts (p.index + 4 * x.2) (nat4 (p.j0 + x.1.1)) ++
    farOuts (p.values + x.2 * h * 8 * d.width) (packElems d.width (b.flatMap fun r => r.map fun y => (y.1, y.2.2))) ++
    (if d.hasScale then farOuts (p.scales + 2 * h * x.2) (b.flatMap fun r =>
      [(BitVec.ofNat 8 (r.getD 0 (0, 0, false)).2.1, r.any (·.2.2)), (BitVec.ofNat 8 (r.getD 32 (0, 0, false)).2.1, r.any (·.2.2))]) else []))
  let first := if ch.pos = 0 then farOuts (p.rowptr + 4 * p.i0) (nat4 p.base) else []
  let after := farOuts (p.rowptr + 4 * (p.i0 + ch.pos + 1)) (nat4 (p.base + ch.stored + blocks.length))
  let s := s.sparseFlags t c (xs.any fun r => r.any (·.2.2)) a
  s.sparseNext t c e none fun x => { x with pos := x.pos + 1, outs := first ++ outs ++ after, stored := x.stored + blocks.length }

/-- The far runs that the present element of an UNPACK_BCR reads: a ROWPTR entry, or a block with its column. -/
def XEntry.bcrRuns (e : XEntry) (ch : Channel) : List (Nat × Nat) :=
  let d := Desc.ofNat e.desc
  let p := e.sparse
  if ch.pos = 0 then [(p.rowptr + 4 * p.i0, 4)]
  else if ch.pos = 1 then [(p.rowptr + 4 * (p.i0 + ch.blockRow + 1), 4)]
  else
    [(p.index + 4 * ch.ptr, 4), (p.values + ch.ptr * p.rows * 8 * d.width, p.rows * 8 * d.width)] ++
    (if d.hasScale then [(p.scales + 2 * p.rows * ch.ptr, 2 * p.rows)] else [])

/-- The next block row of an UNPACK_BCR, or its next stored block: ROWPTR[i0] (pos 0), the row's end (pos 1), a block (pos 2). -/
def State.unpackBcr (s : State) (t c : Nat) (e : XEntry) : State :=
  let ch := s.chan t c
  let d := Desc.ofNat e.desc
  let p := e.sparse
  let h := p.rows
  let expand := e.op == .unpackExpand
  let word := fun (i : Nat) => match (e.bcrRuns ch)[i]? with | some r => ch.far p.far r.1 r.2 | none => []
  let s := s.sparseFlags t c ((e.bcrRuns ch).any fun r => (ch.far p.far r.1 r.2).any (·.2)) false
  let n := ofBytes ((word 0).map (·.1))
  if ch.pos = 0 then s.sparseNext t c e none fun x => { x with pos := 1, ptr := n, ptrBase := n, blockRow := 0 }
  else if ch.pos = 1 then
    if n < ch.ptr then s.xfinish t c 0x23 ch.stored [p.i0 + ch.blockRow + 1]
    else
      let rows := (upto 0 h).map fun k => ch.blockRow * h + k
      let (fv, s) := s.takeFree
      let s := if !expand then s else rows.foldl (fun s r =>
        let s := s.xferPut t (d.rowOff r) ((upto 0 d.rowBytes).map fun _ => (0, false))
        if d.hasScale then s.xferPut t (d.rowScaleOff r) ((upto 0 d.rowScales).map fun _ => (BitVec.ofNat 8 (fv % 255), false)) else s) s
      s.sparseNext t c e none fun x => { x with pos := 2, ptrEnd := n, prevCol := none }
  else if (match ch.prevCol with | some q => decide (n ≤ q) | none => false) then s.xfinish t c 0x23 ch.stored [ch.ptr]
  else
    let es := elemsOf d.width (64 * h) (word 1)
    let k := word 2
    let put := fun (s : State) (i r : Nat) (col : Nat) =>
      let s := s.xferPut t (d.rowOff r + col * 8 * d.width) (packElems d.width ((es.drop (64 * i)).take 64))
      if d.hasScale then s.xferPut t (d.rowScaleOff r + 2 * col) ((k.drop (2 * i)).take 2) else s
    let s :=
      if expand then
        if p.j0 ≤ n ∧ n ≤ p.j1 then (upto 0 h).foldl (fun s i => put s i (ch.blockRow * h + i) (n - p.j0)) s else s
      else
        let b := ch.ptr - ch.ptrBase
        let s := (upto 0 h).foldl (fun s i => put s i (h * b + i) 0) s
        s.xferPut t (p.list + 8 * b) ((toBytes (n + ch.blockRow % 65536 * 2 ^ 32) 8).map fun x => (x, (word 0).any (·.2)))
    s.sparseNext t c e (if expand then none else some (h * (ch.ptr + 1 - ch.ptrBase))) fun x =>
      { x with ptr := x.ptr + 1, prevCol := some n, stored := x.stored + 1 }

/-! ### The engine's step -/

/-- The local words that the present element reads or writes, as byte runs. -/
def XEntry.localRuns (e : XEntry) (ch : Channel) : List (Nat × Nat) :=
  let d := Desc.ofNat e.desc
  let p := e.sparse
  let row := fun (r : Nat) => [(d.rowOff r, d.rowBytes)] ++ (if d.hasScale then [(d.rowScaleOff r, d.rowScales)] else [])
  match e.op with
  | .packNm | .unpackNm =>
    let (pl, g) := e.nmAt ch.pos
    ((upto 0 4).flatMap fun k => row (pl * d.rows + 4 * g + k)) ++ (if g = 0 ∧ d.hasScale then [(d.rowScaleOff (pl * d.rows), d.rows * d.rowScales)] else [])
  | .packBcr => (upto 0 p.rows).flatMap fun k => row (ch.pos * p.rows + k)
  | .unpackExpand => if ch.pos = 0 then [] else (upto 0 p.rows).flatMap fun k => row (ch.blockRow * p.rows + k)
  | .unpackGather =>
    if ch.pos < 2 then [] else
    ((upto 0 p.rows).flatMap fun k => row (p.rows * (ch.ptr - ch.ptrBase) + k)) ++ [(p.list + 8 * (ch.ptr - ch.ptrBase), 8)]
  | _ => []

/-- Is every element performed? -/
def XEntry.sparseDone (e : XEntry) (ch : Channel) : Bool :=
  let d := Desc.ofNat e.desc
  let p := e.sparse
  match e.op with
  | .packNm | .unpackNm => decide (ch.pos ≥ d.planes * (d.rows / 4))
  | .packBcr => decide (ch.pos > p.i1 - p.i0)
  | _ => decide (ch.blockRow > p.i1 - p.i0)

/-- The next action of an XSPARSE: a far write left over, the end, a far read, or one element. -/
def State.sparseStep (s : State) (t c : Nat) (e : XEntry) : Bool × State :=
  let ch := s.chan t c
  let p := e.sparse
  match ch.outs with
  | o :: _ =>
    (s.farPart t c (Far.ofKind p.far o.1) o.2.1 o.2.2 0).take t c fun s _ => s.modChan t c fun x => { x with outs := x.outs.drop 1 }
  | [] =>
    if e.sparseDone ch then (true, s.xfinish t c 0 ch.stored [ch.pruned] (decide (ch.pruned > 0)))
    else if (e.op = .unpackGather ∨ e.op = .unpackExpand) ∧ ch.pos = 2 ∧ ch.ptr = ch.ptrEnd then
      let mark := if e.op = .unpackExpand then some (p.rows * (ch.blockRow + 1)) else none
      (true, s.sparseNext t c e mark fun x => { x with pos := 1, blockRow := x.blockRow + 1 })
    else if (e.localRuns ch).any fun r => (s.tile t).rangeBlocked (r.1 % 2 ^ 23) r.2 then (false, s)
    else
      let runs := match e.op with
        | .unpackNm => e.nmRuns ch.pos
        | .unpackGather | .unpackExpand => e.bcrRuns ch
        | _ => []
      match ch.missing p.far runs with
      | some (far, n) => (s.farRead t c far n (far.addr / 32) false).take t c fun s ws =>
          s.modChan t c fun x => { x with buf := x.buf ++ (ws.zip (upto (far.addr / 32) ws.length)).map fun w => (w.2, w.1.1, w.1.2) }
      | none => (true, match e.op with
          | .packNm => s.packNm t c e
          | .unpackNm => s.unpackNm t c e
          | .packBcr => s.packBcr t c e
          | _ => s.unpackBcr t c e)

end Sys2Proof.Machine
end

