-- ==== Sys2Proof/Machine/Disp.lean ====
section
/-! DEFINITION. The dispatch unit of a region: layer slots, selection, capacity, bundles, spill, returns and combine (R143-R158). -/
namespace Sys2Proof.Machine

/-! ### Slots and their descriptors -/

def State.slot (s : State) (r k : Nat) : LayerSlot := if k = 0 then (s.region r).slot0 else (s.region r).slot1
def State.modSlot (s : State) (r k : Nat) (f : LayerSlot → LayerSlot) : State :=
  s.modRegion r fun R => if k = 0 then { R with slot0 := f R.slot0 } else { R with slot1 := f R.slot1 }

/-- The layer descriptor (R143). -/
structure LDesc where
  e : Nat
  k : Nat
  ordered : Bool
  scoreFmt : Nat
  norm : Nat
  outFmt : Nat
  bundleMax : Nat
  rowBytes : Nat
  retBytes : Nat
  bundleWait : Nat
  retBase : Nat
  tableOff : Nat
  deriving DecidableEq, Repr

def LDesc.ofNat (n : Nat) : LDesc where
  e := fld n 0 11
  k := fld n 11 4
  ordered := bit n 15
  scoreFmt := fld n 16 4
  norm := fld n 20 2
  outFmt := fld n 22 4
  bundleMax := fld n 26 5
  rowBytes := fld n 32 16
  retBytes := fld n 48 16
  bundleWait := fld n 64 12
  retBase := fld n 96 23
  tableOff := fld n 128 23
def LayerSlot.d (L : LayerSlot) : LDesc := LDesc.ofNat L.desc

/-- A descriptor with a reserved bit set or a value out of range (R143, R256). -/
def ldescBad (n : Nat) : Bool :=
  let d := LDesc.ofNat n
  bit n 31 || fld n 76 20 != 0 || fld n 119 9 != 0 || decide (n ≥ 2 ^ 151) ||
  decide (d.e < 1 ∨ d.e > 1024 ∨ d.k < 1 ∨ d.k > 8 ∨ d.k > d.e) || !(d.scoreFmt == 0 || d.scoreFmt == 0xA) || d.norm == 3 ||
  !(d.outFmt == 0 || d.outFmt == 0xA) || decide (d.bundleMax < 1 ∨ d.bundleMax > 16) ||
  decide (d.rowBytes % 32 ≠ 0 ∨ d.rowBytes < 32 ∨ d.rowBytes > 16384 ∨ d.retBytes % 32 ≠ 0 ∨ d.retBytes > 16384) ||
  decide (d.retBase % 32 ≠ 0 ∨ d.tableOff % 32 ≠ 0 ∨ d.tableOff + 32 * d.e > 2 ^ 23)

/-- An entry of the expert table (R144). -/
def Expert.ofNat (n : Nat) : Expert where
  replicas := (upto 0 4).map fun i => fld n (16 * i) 16
  cap := fld n 64 16
  nrep := fld n 80 2
  policy := fld n 82 1
  nshard := fld n 83 4
  ringOff := fld n 96 23
  spillVa := fld n 128 56
  spillSlots := fld n 192 32

/-- The unit as a tile's network client reads the tile's scratchpad: bytes with their words' marks (R149). -/
def State.unitRead (s : State) (t off n : Nat) : List (Byte × Bool) × State :=
  (if n = 0 then [] else splitUnits 32 off n 0).foldl (fun (acc : List (Byte × Bool) × State) u =>
    let (r, s) := acc.2.spdRead t .net (u.addr / 32 % 2 ^ 18)
    (acc.1 ++ ((r.bytes.drop (u.addr % 32)).take u.len).map (fun b => (b, r.poison || r.again)), s)) ([], s)
def bytesNat (l : List (Byte × Bool)) : Nat := ofBytes (l.map (·.1))

/-- A record of the unit: region, layer slot and paddock (R161). -/
def State.slotEvent (s : State) (r k code : Nat) (detail : List Nat) : State :=
  s.raise { code := code, region := r, unit := k, paddock := ((s.slot r k).heldBy).getD 0, fn := s.paddockFn (((s.slot r k).heldBy).getD 0), detail := detail }

/-! ### The balancer (R150) -/

def repKey (x rep : Nat) : Nat := 4 * x + rep
/-- Weights of an expert's replicas in units of 2^-32: reciprocals of mean return latencies, uniform until every replica in
use has returned a bundle; a replica that lost one has the lowest of the others'. -/
def LayerSlot.weights (L : LayerSlot) (x n : Nat) : List Nat :=
  let ls := (upto 0 n).map fun i => tget L.latencies (repKey x i)
  if ls.any (·.isEmpty) then ls.map fun _ => 2 ^ 32
  else
    let w := ls.map fun l => max 1 (2 ^ 32 * l.length / max 1 (natSum l))
    (w.zip (upto 0 n)).map fun e =>
      if L.lowest.contains (repKey x e.2) then ((w.zip (upto 0 n)).filter fun o => o.2 != e.2).foldl (fun m o => min m o.1) e.1 else e.1
/-- The replica that smooth weighted round robin picks, and the credits after. -/
def LayerSlot.pickReplica (L : LayerSlot) (x : Nat) : Nat × LayerSlot :=
  let n := (tget L.experts x).nrep + 1
  if n = 1 then (0, L)
  else
    let w := L.weights x n
    let credit := (upto 0 n).map fun i => tget L.rrCredit (repKey x i) + (w.getD i 0 : Nat)
    let best := (upto 0 n).foldl (fun b i => if credit.getD i 0 > credit.getD b 0 then i else b) 0
    let total : Int := (natSum w : Nat)
    (best, { L with rrCredit := (upto 0 n).foldl (fun tb i => tput tb (repKey x i) (credit.getD i 0 - (if i = best then total else 0))) L.rrCredit })
/-- The weights of a slot become uniform (R150). -/
def LayerSlot.uniform (L : LayerSlot) : LayerSlot := { L with latencies := [], lowest := [], rrCredit := [] }

/-! ### Selection (R146) -/

/-- Order of FP32 scores: NaN below every number, the zeros equal. -/
def scoreKey (b : Nat) : Int :=
  if (fp32.decode b).isNan then -(2 ^ 40) else if bit b 31 then -(fld b 0 31 : Int) else (fld b 0 31 : Int)
/-- Inserts a candidate behind every one that ranks at or above it. -/
def rankIns (a : Nat × Nat) : List (Nat × Nat) → List (Nat × Nat)
  | [] => [a]
  | b :: t => if scoreKey a.2 > scoreKey b.2 then a :: b :: t else b :: rankIns a t
/-- The chosen experts with their scores, in rank order. -/
def chooseK (k : Nat) (scores : List Nat) : List (Nat × Nat) :=
  (scores.zip (upto 0 scores.length)).foldl (fun l e => (rankIns (e.2, e.1) l).take k) []
/-- The unit's exponential (R146): exact where the result is a number of the format. -/
def expUnit (a : Nat) : Nat :=
  match fp32.decode a with
  | .nan => fp32.nanBits
  | .inf n => if n then 0 else fp32.infBits
  | .fin _ m _ => if m = 0 then 0x3F800000 else special32 2 a
def sum32 (l : List Nat) : Nat := match l with | [] => 0 | a :: t => t.foldl (fun x y => (fp32.add .nearestEven x y).1) a
def div32 (a b : Nat) : Nat := (fp32.div .nearestEven a b).1
/-- NORM (R146). -/
def weightsOf (norm : Nat) (scores : List Nat) : List Nat :=
  match norm with
  | 1 =>
    let s0 := scores.headD 0
    let es := scores.map fun x => expUnit (fp32.add .nearestEven x (s0 ^^^ 2 ^ 31)).1
    es.map fun e => div32 e (sum32 es)
  | 2 => scores.map fun x => div32 x (sum32 scores)
  | _ => scores

/-! ### Tokens and routes -/

def LayerSlot.modToken (L : LayerSlot) (tok step : Nat) (f : Token → Token) : LayerSlot :=
  { L with tokens := L.tokens.map fun t => if t.token = tok ∧ t.step = step then f t else t }
def Token.modRoute (t : Token) (r : Nat) (f : Route → Route) : Token := { t with routes := t.routes.map fun x => if x.rank = r then f x else x }
def LayerSlot.route (L : LayerSlot) (tok step r : Nat) : Option Route :=
  (L.tokens.find? fun t => t.token == tok && t.step == step).bind fun t => t.routes.find? fun x => x.rank == r
def State.modRoute (s : State) (r k tok step rank : Nat) (f : Route → Route) : State :=
  s.modSlot r k fun L => L.modToken tok step fun t => t.modRoute rank f

/-- A return-area place: the start of a token's slot, and of one route's row (R152). -/
def LDesc.retSlot (d : LDesc) (slot : Nat) : Nat := (d.retBase + slot * (32 + d.k * d.retBytes)) % 2 ^ 23
def LDesc.retRow (d : LDesc) (slot r : Nat) : Nat := (d.retSlot slot + 32 + r * d.retBytes) % 2 ^ 23

/-- The combine of one token: each element, over the routes not dropped, in ascending rank (R154). -/
def combineElem (outFmt : Nat) (ys : List (Nat × Nat)) : Nat :=
  let up := fun (y : Nat) => if outFmt = 0 then y * 65536 else y
  let ps := ys.map fun e => (fp32.mul .nearestEven e.1 (up e.2)).1
  let y := sum32 ps
  if outFmt = 0 then (bf16.encode .nearestEven (fp32.decode y)).1 else y
/-- Every route of a token is resolved: its output row is written and its tracker entry freed. -/
def State.combine (s : State) (r k : Nat) (T : Token) : State :=
  let L := s.slot r k
  let d := L.d
  let s := match s.tileOf T.srcLid with
    | none => s
    | some t =>
      let w := if d.outFmt = 0 then 16 else 32
      let n := 8 * d.retBytes / w
      let (rows, s) := (T.routes.filter fun (x : Route) => !x.dropped).foldl (fun (acc : List (Nat × List (Nat × Bool)) × State) (x : Route) =>
        let (b, s) := acc.2.unitRead t (d.retRow T.retSlot x.rank) d.retBytes
        (acc.1 ++ [(x.weight, elemsOf w n b)], s)) ([], s)
      let bad : Bool := T.bad || (T.routes.any Route.lost) || rows.any fun (x : Nat × List (Nat × Bool)) => x.2.any (·.2)
      let out : List (Byte × Bool) := packElems w ((upto 0 n).map fun i =>
        (combineElem d.outFmt (rows.map fun (x : Nat × List (Nat × Bool)) => (x.1, (x.2.getD i (0, false)).1)), bad))
      (splitUnits 32 T.outOff d.retBytes 0).foldl (fun s (u : CAcc) => s.spdWrite t (u.addr / 32 % 2 ^ 18) (((out.drop u.pos).take 32).map (fun (b : Byte × Bool) => b.1)) bad) s
  let late := T.routes.any (·.spilled) && (L.stepDone || T.step != L.step)
  s.modSlot r k fun L => { L with
    tokens := L.tokens.filter fun x => !(x.token == T.token && x.step == T.step)
    combinedSpill := L.combinedSpill + b01 (late && T.step == L.flushedStep) }

/-- After routes have been resolved: tokens are combined, bundles all of whose routes are resolved leave the tracker with
their return latency, which the ticks between decide (R150, R154, R155). -/
def State.settleSlot (s : State) (r k : Nat) : State :=
  let L := s.slot r k
  let gone := L.bundles.filter fun b => b.sent && b.routes.all fun e => match L.route e.1 L.step e.2 with | some x => x.resolved | none => true
  let s := gone.foldl (fun s b =>
    let (v, s) := s.takeFree
    s.modSlot r k fun L => { L with
      bundles := L.bundles.filter fun x => x.no != b.no
      latencies := if b.lostRaised then L.latencies else tmod L.latencies (repKey b.expert b.replica) fun l => (l ++ [v % 2 ^ 32 + 1]).reverse.take 64 |>.reverse }) s
  ((s.slot r k).tokens.filter fun T => T.routes.all (·.resolved)).foldl (fun s T => s.combine r k T) s

/-- The routes of a bundle that are not yet resolved are lost; one event for the bundle (R157). -/
def State.loseBundle (s : State) (r k : Nat) (b : Bundle) : State :=
  let L := s.slot r k
  let open_ := b.routes.filter fun e => match L.route e.1 L.step e.2 with | some x => !x.resolved | none => false
  let s := open_.foldl (fun s e => s.modRoute r k e.1 L.step e.2 fun x => { x with resolved := true, lost := true }) s
  let s := s.modSlot r k fun L => { L with
    lost := L.lost + open_.length
    lowest := setIns L.lowest (repKey b.expert b.replica)
    bundles := L.bundles.map fun x => if x.no = b.no then { x with sent := true, lostRaised := true } else x }
  let s := if b.lostRaised || open_.isEmpty then s else s.slotEvent r k 0x1101 [b.expert, b.replica]
  s.settleSlot r k

/-- The packets of a bundle: each route's row, then its route word, into its ring slot (R148, R149). -/
def State.bundlePackets (s : State) (r k : Nat) (b : Bundle) : List Packet × State :=
  let L := s.slot r k
  let d := L.d
  let x := tget L.experts b.expert
  b.routes.foldl (fun (acc : List Packet × State) e =>
    match L.tokens.find? fun t => t.token == e.1 && t.step == L.step with
    | none => acc
    | some T => match T.routes.find? fun y => y.rank == e.2 with
      | none => acc
      | some y =>
        let (row, s) := match acc.2.tileOf T.srcLid with
          | some t => acc.2.unitRead t T.rowOff d.rowBytes
          | none => ([], acc.2)
        let at_ := x.ringOff + y.slotNo * (d.rowBytes + 32)
        let words := (upto 0 (d.rowBytes / 32)).map fun i => (row.drop (32 * i)).take 32
        let ps := (upto 0 (cdiv words.length 64)).map fun i =>
          let part := (words.drop (64 * i)).take 64
          let m := natSum ((part.zip (upto 0 part.length)).map fun w => b01 (w.1.any (·.2)) * 2 ^ w.2)
          let data := part.map fun w => wordOf (w.map (·.1))
          ({ addr := (at_ + 32 + 2048 * i) % 2 ^ 23, data := data, poison := m, zre := (zreWords data m).2 } : Packet)
        let rw := atBit T.token 0 16 + atBit T.srcLid 16 16 + atBit y.rank 32 3 + atBit k 35 1 + atBit L.step 40 16 + atBit y.weight 64 32 + atBit T.retSlot 96 14
        (acc.1 ++ ps ++ [{ addr := at_ % 2 ^ 23, data := [BitVec.ofNat 256 rw] }], s)) ([], s)

/-- A bundle leaves as one drove send from its first route's source tile (R149). -/
def State.sendBundle (s : State) (r k no : Nat) : State :=
  match (s.slot r k).bundles.find? fun b => b.no == no && !b.sent with
  | none => s
  | some b =>
    let L := s.slot r k
    let s := s.modSlot r k fun L => { L with bundles := L.bundles.map fun x => if x.no = no then { x with sent := true } else x }
    let s := b.routes.foldl (fun s e => s.modRoute r k e.1 L.step e.2 fun x => { x with sent := true, replica := b.replica }) s
    let (ps, s) := s.bundlePackets r k b
    let src := ((b.routes.head?.bind fun e => (L.tokens.find? fun t => t.token == e.1 && t.step == L.step)).bind fun T => s.tileOf T.srcLid).getD (tileInRegion r 0)
    match s.droveSend src (.dispatch r k no) ((tget L.experts b.expert).replicas.getD b.replica 0) ps with
    | some s => s
    | none => (s.lostRequest src 5 0xFFFF).loseBundle r k b

/-- A route takes its count of its expert and is sent, spilled or dropped (R147). -/
def State.countRoute (s : State) (r k tok rank : Nat) : State :=
  let L := s.slot r k
  match L.route tok L.step rank with
  | none => s
  | some y =>
    let x := tget L.experts y.expert
    let c := x.count
    let s := s.modSlot r k fun L => { L with experts := tmod L.experts y.expert fun x => { x with count := x.count + 1 } }
    if c < x.cap then
      let s := s.modRoute r k tok L.step rank fun y => { y with slotNo := c }
      let s := s.modSlot r k fun L =>
        let L := { L with sent := L.sent + 1 }
        if L.bundles.any fun b => b.expert == y.expert && !b.sent then
          { L with bundles := L.bundles.map fun b => if b.expert = y.expert ∧ !b.sent then { b with routes := b.routes ++ [(tok, rank)] } else b }
        else
          let (rep, L) := L.pickReplica y.expert
          { L with bundles := L.bundles ++ [{ no := L.bundleNo, expert := y.expert, replica := rep, routes := [(tok, rank)] }], bundleNo := L.bundleNo + 1 }
      let L := s.slot r k
      (L.bundles.filter fun b => !b.sent && decide (b.routes.length ≥ L.d.bundleMax)).foldl (fun s b => s.sendBundle r k b.no) s
    else if x.policy = 0 ∧ c - x.cap < x.spillSlots then
      let s := s.modRoute r k tok L.step rank fun y => { y with slotNo := c - x.cap, spilled := true }
      s.modSlot r k fun L => { L with spilled := L.spilled + 1, spillWrites := L.spillWrites ++ [(tok, rank)] }
    else
      (s.modRoute r k tok L.step rank fun y => { y with dropped := true, resolved := true }).modSlot r k fun L => { L with dropped := L.dropped + 1 }

/-! ### Gate records (R145, R146, R155) -/

/-- What becomes of one gate record. -/
inductive Gate where
  | admitted (s : State)
  | refused (s : State)
  | wait

/-- Ascending (TOKEN, rank) order. -/
def routeIns (a : Nat × Nat) : List (Nat × Nat) → List (Nat × Nat)
  | [] => [a]
  | b :: t => if a.1 < b.1 ∨ (a.1 = b.1 ∧ a.2 < b.2) then a :: b :: t else b :: routeIns a t

/-- Tokens and bundles in flight at a unit. -/
def State.unitTokens (s : State) (r : Nat) : Nat := (s.slot r 0).tokens.length + (s.slot r 1).tokens.length
def State.unitBundles (s : State) (r : Nat) : Nat := natSum ([0, 1].map fun k => ((s.slot r k).bundles.filter (·.sent)).length)

/-- One gate record of an open step. -/
def State.gate (s : State) (r k p : Nat) (g : Nat) : Gate :=
  let L := s.slot r k
  let d := L.d
  let tok := fld g 0 16
  let src := fld g 16 16
  let home := (s.tileOf src).filter fun t => decide (src < 540) && regionOf t == r && s.tag t == p
  let pre := bit g 142
  match home with
  | none => .refused s
  | some t =>
    if L.seen.contains tok || fld g 32 5 != 0 || fld g 64 5 != 0 || fld g 96 5 != 0 then .refused s
    else if s.unitTokens r ≥ 16384 || s.unitBundles r ≥ 4096 || (s.tile t).spd.fillRow.isSome then .wait
    else
      let w := if d.scoreFmt = 0 then 2 else 4
      let (b, s) := s.unitRead t (fld g 64 23) (if pre then 8 * d.k else w * d.e)
      let v := bytesNat b
      let pairs := (upto 0 d.k).map fun i => (fld v (64 * i) 32, fld v (64 * i + 32) 32)
      let badIds := pairs.any fun e => decide (e.1 ≥ d.e) || decide ((pairs.filter fun x => x.1 == e.1).length > 1)
      if pre && badIds then .refused s
      else
        let scores := (upto 0 d.e).map fun i => if w = 2 then fld v (16 * i) 16 * 65536 else fld v (32 * i) 32
        let chosen := if pre then pairs else
          let c := chooseK d.k scores
          (c.map (·.1)).zip (weightsOf d.norm (c.map (·.2)))
        let routes : List Route := (chosen.zip (upto 0 d.k)).map fun e => { token := tok, rank := e.2, expert := e.1.1, weight := e.1.2 }
        let T : Token := { token := tok, srcLid := src, rowOff := fld g 32 23, outOff := fld g 96 23, retSlot := fld g 128 14, step := L.step
                           bad := b.any (·.2), routes := routes }
        let ws := natSum (routes.map fun y => y.weight % 2 ^ 32 * 2 ^ (32 * y.rank))
        let s := s.spdWrite t (d.retSlot T.retSlot / 32 % 2 ^ 18) (toBytes ws 32) T.bad
        let s := s.modSlot r k fun L => { L with tokens := L.tokens ++ [T], seen := setIns L.seen tok }
        if d.ordered then
          .admitted (s.modSlot r k fun L => { L with held := routes.foldl (fun h y => routeIns (tok, y.rank) h) L.held })
        else .admitted ((routes.foldl (fun s y => s.countRoute r k tok y.rank) s).settleSlot r k)

/-! ### The queue of a slot (R143, R156, R251, R286) -/

/-- Is nothing of the slot's steps in flight? -/
def LayerSlot.idle (L : LayerSlot) : Bool := L.tokens.isEmpty && L.bundles.isEmpty && L.spillWrites.isEmpty && L.stepDone
/-- Has the flushed step completed (R156)? -/
def LayerSlot.stepOver (L : LayerSlot) : Bool :=
  L.spillWrites.isEmpty && L.tokens.all fun t => t.step != L.step || t.routes.all fun y => y.resolved || y.spilled

/-- A dispatch instruction completes and leaves its queue. -/
def State.dfinish (s : State) (r k : Nat) (e : DEntry) (code count : Nat) (words : List Nat) : State :=
  let s := s.modSlot r k fun L => { L with queue := L.queue.filter fun x => x != e }
  s.complete (mkCore e.tile e.core) (unitSlot k) e.seq e.stamp code count {} words
def State.setEntry (s : State) (r k : Nat) (e e' : DEntry) : State :=
  s.modSlot r k fun L => { L with queue := L.queue.map fun x => if x = e then e' else x }

/-- DLAYER loads its slot (R143, R144). -/
def State.loadLayer (s : State) (r k p : Nat) (e : DEntry) : State :=
  let (b, s) := s.unitRead e.tile e.ra 64
  let n := bytesNat b
  let d := LDesc.ofNat n
  if ldescBad n || b.any (·.2) then s.dfinish r k e 0x19 0 []
  else
    let (tb, s) := s.unitRead e.tile d.tableOff (32 * d.e)
    if tb.any (·.2) then s.dfinish r k e 0x19 0 []
    else
      let xs := (upto 0 d.e).foldl (fun t i => tput t i (Expert.ofNat (bytesNat ((tb.drop (32 * i)).take 32)))) []
      let s := s.modSlot r k fun L => { heldBy := some p, desc := n, experts := xs, queue := L.queue }
      s.dfinish r k e 0 d.e []

/-- The entry that the unit works on: the oldest of the holder's, or of any paddock's where the slot is free. -/
def State.dhead (s : State) (r k : Nat) : Option DEntry :=
  let L := s.slot r k
  L.queue.find? fun e => match L.heldBy with | none => true | some p => s.tag e.tile == p

/-- One action of a slot: whether anything was done. A paddock being pre-empted has no more records admitted (R158). -/
def State.dstep1 (s : State) (r k : Nat) : Bool × State :=
  match s.dhead r k with
  | none => (false, s)
  | some e =>
    let p := s.tag e.tile
    let L := s.slot r k
    if (s.paddock p).preempt || (s.paddock p).frozen then (false, s)
    else match e.op with
      | .dlayer =>
        -- reads of a sheet that is being swept wait
        let d := LDesc.ofNat (bytesNat (s.unitRead e.tile e.ra 64).1)
        if (L.heldBy.isSome && !L.idle) || (s.tile e.tile).rangeBlocked e.ra 64 || (s.tile e.tile).rangeBlocked d.tableOff (32 * d.e) then (false, s)
        else (true, s.loadLayer r k p e)
      | .drelease => (false, s)
      | .dstep =>
        if !L.stepDone then (false, s)
        else
          let s := s.modSlot r k fun L => { L with
            stepOpen := true, flushed := false, stepDone := false, step := e.ra % 65536, seen := [], held := [], sent := 0, spilled := 0, dropped := 0, lost := 0
            experts := tmap (fun (x : Expert) => { x with count := 0 }) L.experts }
          (true, s.dfinish r k e 0 (e.ra % 65536) [])
      | .dgate =>
        if e.pos = e.rb then (true, s.dfinish r k e 0 (e.rb - e.refused) [e.refused])
        else if (s.tile e.tile).spd.fillRow.isSome then (false, s)
        else
          let (b, s1) := s.unitRead e.tile (e.ra + 32 * e.pos) 32
          match (if b.any (·.2) then Gate.refused s1 else s1.gate r k p (bytesNat b)) with
          | .wait => (false, s)
          | .admitted s => (true, s.setEntry r k e { e with pos := e.pos + 1 })
          | .refused s => (true, (s.modRegion r fun R => { R with dspErr := R.dspErr ||| 1 }).setEntry r k e { e with pos := e.pos + 1, refused := e.refused + 1 })
      | .dflush =>
        if L.stepOpen then
          let s := s.modSlot r k fun L => { L with stepOpen := false, flushed := true, flushedStep := L.step, combinedSpill := 0, held := [] }
          let s := L.held.foldl (fun s h => s.countRoute r k h.1 h.2) s
          let s := ((s.slot r k).bundles.filter fun b => !b.sent).foldl (fun s b => s.sendBundle r k b.no) s
          (true, s.settleSlot r k)
        else if L.stepOver then
          let s := s.modSlot r k fun L => { L with stepDone := true }
          (true, s.dfinish r k e 0 L.sent [L.sent % 2 ^ 32 + L.spilled % 2 ^ 32 * 2 ^ 32, L.dropped % 2 ^ 32 + L.lost % 2 ^ 32 * 2 ^ 32])
        else (false, s)
      | .dspill =>
        -- the step now open is not the last one flushed
        if (!L.stepDone && L.step == L.flushedStep) || !(L.tokens.any fun t => t.step == L.flushedStep) then (true, s.dfinish r k e 0 L.combinedSpill [])
        else (false, s)

/-- A slot goes on as far as it can. -/
def State.dpump (s : State) (r k : Nat) : Nat → State
  | 0 => s
  | n + 1 => match s.dstep1 r k with
    | (true, s) => s.dpump r k n
    | (false, s) => s
/-- Both slots of a region go on. -/
def State.dispatch (s : State) (r : Nat) : State := (s.dpump r 0 100000).dpump r 1 100000

/-! ### What reaches the unit -/

/-- The report of a bundle's drove send: routes are lost where a shard's branch was pruned (R157). -/
def State.bundleReport (s : State) (r k no status pruned : Nat) : State :=
  match (s.slot r k).bundles.find? fun b => b.no == no with
  | none => s
  | some b => (if pruned > 0 || status ≠ 0 then s.loseBundle r k b else s).dispatch r

/-- A notice (R152): TOKEN [15:0], RANK [34:32], LAYER [35], shard [39:36], STEP [55:40], SLICE [79:64]. -/
def noticeWord (rw shard slice : Nat) : Nat :=
  atBit rw 0 16 + atBit (fld rw 32 4) 32 4 + atBit shard 36 4 + atBit (fld rw 40 16) 40 16 + atBit slice 64 16
/-- Is a return, named by a notice word, one that the unit tracks for the paddock (R153, R287)? -/
def State.noticeOk (s : State) (r p w : Nat) : Bool :=
  let L := s.slot r (fld w 35 1)
  let d := L.d
  L.heldBy == some p && match L.route (fld w 0 16) (fld w 40 16) (fld w 32 3) with
    | none => false
    | some y =>
      let x := tget L.experts y.expert
      (y.sent || y.spillDone) && !y.resolved && !y.shards.contains (fld w 36 4) && decide (fld w 36 4 ≤ x.nshard) && 32 * fld w 64 16 * (x.nshard + 1) == d.retBytes
/-- A notice reaches the unit: whether it is taken. -/
def State.notice (s : State) (r p w : Nat) : Bool × State :=
  let k := fld w 35 1
  if s.noticeOk r p w then
    let L := s.slot r k
    let s := s.modRoute r k (fld w 0 16) (fld w 40 16) (fld w 32 3) fun y =>
      let sh := setIns y.shards (fld w 36 4)
      { y with shards := sh, resolved := decide (sh.length > (tget L.experts y.expert).nshard) }
    (true, (s.settleSlot r k).dispatch r)
  else
    (false, (s.modRegion r fun R => { R with dspErr := R.dspErr ||| 2 }).raise { code := 0x1102, region := r, unit := k, paddock := p, fn := s.paddockFn p, detail := [w] })

/-- A shard tile was re-bound: the routes delivered to it and not returned are lost, and the balancers that use it start
uniform again (R150, R157). -/
def State.shardRebound (s : State) (lid : Nat) : State :=
  (upto 0 144).foldl (fun s r => (upto 0 2).foldl (fun s k =>
    let L := s.slot r k
    match L.heldBy with
    | none => s
    | some p =>
      let has := fun (drove : Nat) => s.tiles.any fun e => e.2.droves.any fun d => d.id == drove && d.tag == p && d.members.contains lid
      let s := if L.experts.any fun e => (e.2.replicas.take (e.2.nrep + 1)).any has then s.modSlot r k LayerSlot.uniform else s
      let hit := L.bundles.filter fun b => b.sent && has ((tget L.experts b.expert).replicas.getD b.replica 0)
      (hit.foldl (fun s b => s.loseBundle r k b) s).dpump r k 100000) s) s

end Sys2Proof.Machine
end

