-- ==== Sys2Proof/Machine/Engine.lean ====
section
/-! DEFINITION. The transfer engine at work: DRETURN, what the head of a channel does next, and what an answer does (R152, R287, R292, R305, R408). -/
namespace Sys2Proof.Machine

/-! ### DRETURN (R152, R287) -/

/-- The key that a return's notice carries. -/
def noticeKey : Nat := 2 ^ 30

/-- The next packet of a DRETURN: the route word is read first; a return that the source unit does not track sends its notice
only, any other its slice and then the notice. -/
def State.returnStep (s : State) (t c : Nat) (e : XEntry) : Bool × State :=
  let ch := s.chan t c
  match ch.buf with
  | [] =>
    if (s.tile t).rangeBlocked (fld e.rb 0 23) 32 then (false, s)
    else
      let (b, p, again, s) := s.xferRead t (fld e.rb 0 23) 32
      (true, s.modChan t c fun x => { x with buf := [(0, ofBytes b, p)], poisoned := x.poisoned || p, rerun := x.rerun || again })
  | w :: _ =>
    let rw := w.2.1
    let shard := fld e.rb 24 4
    let slice := fld e.rb 32 16
    let word := noticeWord rw shard slice
    match s.mapNode t (fld rw 16 16) with
    | none => (true, (s.lostRequest t 5 (fld rw 16 16)).xfinish t c 0x21 0 [0])
    | some src =>
      let r := regionOf src
      let L := s.slot r (fld rw 35 1)
      let d := L.d
      let left := slice - ch.pos
      if left = 0 || !s.noticeOk r (s.tag t) word then
        if !s.canRequest t then (false, s)
        else
          let (_, s) := s.request t (.channel c noticeKey 1) { typ := .notice, words := 1, dst := src, dstLid := fld rw 16 16, data := [BitVec.ofNat 256 word] }
          (false, s.modChan t c fun x => { x with busy := true })
      else
        let ns := match L.route (fld rw 0 16) (fld rw 40 16) (fld rw 32 3) with
          | some y => (tget L.experts y.expert).nshard + 1
          | none => 1
        let at_ := (d.retRow (fld rw 96 14) (fld rw 32 3) + shard * (d.retBytes / ns) + 32 * ch.pos) % 2 ^ 23
        let loc := (e.ra + 32 * ch.pos) % 2 ^ 23
        let n := min (min 64 left) ((2048 - at_ % 2048) / 32)
        if (s.tile t).rangeBlocked loc (32 * n) then (false, s)
        else
          let (ws, m, again, s) := s.readChunks t ((upto 0 n).map fun i => { loc := loc + 32 * i, len := 32, far := 0 })
          let s := s.modChan t c fun x => { x with rerun := x.rerun || again, poisoned := x.poisoned || decide (m ≠ 0) }
          (s.farWrite t c (.remote (fld rw 16 16) at_) ws m ch.pos false).take t c fun s _ => s

/-! ### The head of a channel -/

/-- The next action of a channel's head transfer: whether the channel may go on at once. A transfer stands still while its
element waits for an answer or a translation, and at its pre-emption point. -/
def State.xstep (s : State) (t c : Nat) : Bool × State :=
  let ch := s.chan t c
  match ch.queue with
  | [] => (false, s)
  | e :: _ =>
    let T := s.tile t
    match ch.wait with
    | some h => if h.resolved = some false then (true, s.xfinish t c 0x20 ch.bytes [ch.netBytes]) else (false, s)
    | none =>
      if ch.busy || T.preempting || T.atPoint || !s.ticking t then (false, s)
      else
        let s := if ch.active then s else s.modChan t c fun x => { x with active := true }
        match e.op with
        | .get | .put => s.copyStep t c e
        | .xput => s.putStep t c e
        | .xsend => s.sendStep t c e
        | .dreturn => s.returnStep t c e
        | _ => s.sparseStep t c e

/-- A channel goes on as far as it can. -/
def State.xpump (s : State) (t c : Nat) : Nat → State
  | 0 => s
  | n + 1 => match s.xstep t c with
    | (true, s) => s.xpump t c n
    | (false, s) => s
/-- Every channel of a tile goes on, and its region's dispatch unit. -/
def State.engine (s : State) (t : Nat) : State :=
  (((s.tile t).chans.map (·.1)).foldl (fun s c => s.xpump t c 1000000) s).dispatch (regionOf t)

/-- What an answer to a channel's request does (R305): the words it brings, or the element done. -/
def State.xanswer (s : State) (t c : Nat) (q : Request) (p : Packet) (pos n : Nat) : State :=
  let ch := s.chan t c
  match ch.queue with
  | [] => s
  | e :: _ =>
    let s := s.modChan t c fun x => { x with busy := false }
    let sent := max q.pkt.data.length p.data.length
    let net := if q.pkt.zre then (zreWords q.pkt.data q.pkt.poison).1 else if p.zre then (zreWords p.data p.poison).1 else sent
    let s :=
      if e.op = .dreturn ∧ pos = noticeKey then s.xfinish t c (if p.status = 0 then 0 else if p.status = 1 then 0x25 else 0x21) (32 * ch.pos) [ch.netBytes]
      else if p.status ≠ 0 then s.xfinish t c 0x21 ch.bytes [ch.netBytes]
      else match e.op with
        | .get => s.xferData t c e pos p.data p.poison net
        | .put => s.xadvance t c n net
        | .xput => s.modChan t c fun x => { x with pos := 1 }
        | .dreturn => s.modChan t c fun x => { x with pos := x.pos + n, netBytes := x.netBytes + 32 * net }
        | .xsend =>
          let w := ((p.data.map (·.toNat)) ++ [0, 0, 0])
          let r := w.getD 0 0
          let lids := w.getD 1 0 + w.getD 2 0 * 2 ^ 256
          let del := fld r 0 16
          let pr := fld r 16 16
          let s := s.modChan t c fun x => { x with poisoned := x.poisoned || bit r 32 }
          s.xfinish t c 0 del ((del + pr * 2 ^ 32) :: (upto 0 6).map fun i => fld lids (64 * i) 64) (decide (pr > 0))
        | _ =>
          if !ch.outs.isEmpty then s.modChan t c fun x => { x with outs := x.outs.drop 1 }
          else s.modChan t c fun x => { x with buf := x.buf ++ ((p.data.zip (upto pos p.data.length)).map fun w => (w.2, w.1.toNat, bit p.poison (w.2 - pos))) }
    s.engine t

end Sys2Proof.Machine
end

