-- ==== Sys2Proof/Machine/HostCmd.lean ====
section
/-! DEFINITION. Commands of the queues: queue pairs, allotments, contexts, paddocks and memory (R484-R491). -/
namespace Sys2Proof.Machine

/-- Bits `[lo + w - 1 : lo]` of an operand word. -/
def wf (w : BitVec 64) (lo n : Nat) : Nat := fld w.toNat lo n
/-- A mask of `w` bits at `lo`. -/
def msk (lo w : Nat) : Nat := (2 ^ w - 1) * 2 ^ lo
def maskAll : Nat := 2 ^ 64 - 1
/-- Session version of a function. -/
def State.ver (s : State) (fn : Nat) : Nat := (s.func fn).nver

/-! ### Admin commands (R484, R485) -/

def execCreateQueue (fn : FnIx) (q : BitVec 16) (c : SqEntry) (s : State) : Res :=
  let lq := wf c.w3 0 16
  let dev := bit c.w3.toNat 26
  let coal := wf c.w4 8 8 != 0 || wf c.w4 16 16 != 0
  .next (s.perform fn q.toNat 0x01 c true
    [(0x10, coal && decide (s.ver fn < 0x204)),
     (0x11, sqStray c [maskAll, maskAll, msk 0 27 + msk 32 12, msk 0 32, maskAll] || lq == 0 || decide (lq ≥ s.fnQueues fn) ||
            wf c.w3 16 5 == 0 || decide (wf c.w3 16 5 > 16) || wf c.w3 21 5 == 0 || decide (wf c.w3 21 5 > 16) ||
            wf c.w1 0 12 != 0 || wf c.w2 0 12 != 0 || decide (wf c.w3 32 11 ≥ fnVectors fn)),
     (0x15, dev && !s.ctxMine fn (wf c.w4 0 8)),
     (0x14, (s.queue fn lq).made)]
    fun _ s => ({}, s.setQueue fn lq {
      made := true, sqBase := c.w1.toNat, cqBase := c.w2.toNat, log2Sq := wf c.w3 16 5, log2Cq := wf c.w3 21 5, inDevice := dev,
      vector := wf c.w3 32 11, intEn := bit c.w3.toNat 43, ctx := wf c.w4 0 8, coalCount := wf c.w4 8 8, coalUs := wf c.w4 16 16,
      tailVa := c.w5.toNat }))

/-- DELETE_QUEUE stops fetching at once; the queue's jobs run on and their later completions are discarded (R484). -/
def execDeleteQueue (fn : FnIx) (q : BitVec 16) (c : SqEntry) (s : State) : Res :=
  let lq := wf c.w1 0 16
  .next (s.perform fn q.toNat 0x02 c true
    [(0x11, sqStray c [msk 0 16] || lq == 0 || decide (lq ≥ s.fnQueues fn)),
     (0x14, !(s.queue fn lq).made || (s.queue fn lq).deleting.isSome)]
    (fun o s =>
      let s := s.modQueue fn lq fun Q => { Q with deleting := some o }
      let mine := fun (x : Owed) => x.fn == fn.val && x.queue == lq
      ({ status := 0xFF }, { s with host := { s.host with
          jobs := s.host.jobs.foldl (fun tb (e : Nat × Job) => if e.2.owed.any mine then tput tb e.1 { e.2 with owed := e.2.owed.filter fun x => !mine x } else tb) s.host.jobs } }))
    fun _ s => s.deleteIfDone fn lq)

def execAllot (fn : FnIx) (q : BitVec 16) (c : SqEntry) (s : State) : Res :=
  let t := wf c.w1 0 8
  let (qs, cs, rs) := (wf c.w1 16 16, wf c.w1 32 8, wf c.w1 40 8)
  let isPf := decide (t < 4)
  let T := s.func t
  let vfSum := natSum ((vfsOf t).map fun v => (s.func v).quota)
  .next (s.perform fn q.toNat 0x03 c true
    [(0x11, sqStray c [msk 0 8 + msk 16 16 + msk 32 16] || decide (rs > 144) || (isPf && (qs != 0 || cs != 0))),
     (0x13, decide (fn.val ≥ 4) || (if isPf then fn.val != 0 else pfOf t != fn.val)),
     (0x14, if isPf then decide (rs < s.regionsUsed t + vfSum)
            else !T.vfOn || decide (qs < s.queuesUsed t) || decide (qs < 1) || decide (cs < s.contextsUsed t) || decide (rs < s.regionsUsed t)),
     (0x12, !isPf && (decide (qs > T.queues + s.fnQueues fn) || decide (cs > T.contexts + s.fnContexts fn) ||
                      decide (rs > T.quota + s.fnQuota fn) ||
                      decide (s.fnQueues fn + T.queues < qs + s.queuesUsed fn) || decide (s.fnContexts fn + T.contexts < cs + s.contextsUsed fn) ||
                      decide (s.fnQuota fn + T.quota < rs + s.regionsUsed fn)))]
    fun _ s => ({}, if isPf then s.modFunc t fun F => { F with quotaCut := 144 - rs }
                    else s.modFunc t fun F => { F with queues := qs, contexts := cs, quota := rs }))

/-- Lowest context number that is free. -/
def State.freeCtx (s : State) : Option Nat := (upto 0 256).find? fun c => !(s.ctx c).live

/-- CREATE_CONTEXT: the lowest free number, its fault queue, and for device-managed tables its root table (R485). -/
def execCreateContext (fn : FnIx) (q : BitVec 16) (c : SqEntry) (s : State) : Res :=
  let ht := bit c.w1.toNat 0
  let sva := bit c.w1.toNat 1
  let lg := wf c.w1 32 5
  let fq := s.findFrames 0xFF (cdiv (32 * 2 ^ lg) 4096) 1
  let F := s.func fn
  .next (s.perform fn q.toNat 0x04 c true
    [(0x11, sqStray c [msk 0 2 + msk 8 20 + msk 32 17, maskAll, maskAll] || decide (lg < 6) || decide (lg > 16) ||
            wf c.w2 0 12 != 0 || wf c.w3 0 12 != 0 || decide (wf c.w1 37 11 ≥ fnVectors fn)),
     (0x13, (ht && decide (fn.val ≥ 4)) || (sva && !(F.ats && F.pri))),
     (0x12, decide (s.contextsUsed fn ≥ s.fnContexts fn) || s.freeCtx.isNone || fq.isNone ||
            (!ht && ((s.setFrames (fq.getD []) (.faultQueue 0)).findFrames 0xFF 256 256).isNone))]
    fun _ s =>
      let n := s.freeCtx.getD 0
      let fs := fq.getD []
      let s := s.setFrames fs (.faultQueue n)
      let root := if ht then [] else (s.findFrames 0xFF 256 256).getD []
      let s := s.setFrames root (.table n)
      let s := s.setCtx n { live := true, fn := fn, hostTables := ht, fqFrames := fs, tables := root }
      let s := s.setMmuCtx n {
        live := true, fn := fn, sva := sva, pasid := wf c.w1 8 20, svaBase := c.w2.toNat, svaLimit := c.w3.toNat,
        root := if ht then 0 else frameAddr 0xFF (root.headD 0), fqBase := frameAddr 0xFF (fs.headD 0), log2 := lg,
        intEn := bit c.w1.toNat 48, vector := wf c.w1 37 11 }
      ({ r0 := n }, s))

/-- Does a context have a ring of a queue in its device memory? -/
def State.ctxRing (s : State) (c : Nat) : Bool := s.host.queues.any fun e => e.2.made && e.2.inDevice && e.2.ctx == c

def execDestroyContext (fn : FnIx) (q : BitVec 16) (c : SqEntry) (s : State) : Res :=
  let n := c.ctx.toNat
  .next (s.perform fn q.toNat 0x05 c true
    [(0x11, sqStray c []), (0x15, !s.ctxMine fn n),
     (0x14, s.ctxRing n || s.host.paddocks.any fun e => e.2.live && e.2.ctx == n)]
    fun _ s => ({}, s.destroyContext n))

/-! ### Paddocks (R486-R490, R725) -/

/-- The regions of the bitmap in W2 to W4. -/
def bitmapRegions (c : SqEntry) : List Nat :=
  let b := c.w2.toNat + c.w3.toNat * 2 ^ 64 + c.w4.toNat * 2 ^ 128
  (upto 0 144).filter (bit b)
def bitmapMasks : List Nat := [maskAll, maskAll, msk 0 16]
/-- May a region join a paddock (R35)? -/
def State.assignable (s : State) (r : Nat) : Bool := !s.org.dead.contains r && !s.org.clearing.contains r && !s.org.retest.contains r && s.owner r == 0
/-- Insertion by a measure, larger first, the lower field first at equal count. -/
def insField (x : Nat × Nat) : List (Nat × Nat) → List (Nat × Nat)
  | [] => [x]
  | y :: t => if x.2 > y.2 then x :: y :: t else y :: insField x t
/-- The regions that COUNT chooses: fields with the most free regions first, lowest regions first (R486). -/
def State.countRegions (s : State) (n : Nat) : List Nat :=
  let free := (upto 0 9).map fun f => (f, ((upto (16 * f) 16).filter s.assignable))
  let order := free.foldl (fun l f => insField (f.1, f.2.length) l) []
  (order.flatMap fun f => (free.getD f.1 (0, [])).2).take n
/-- The lowest paddock ID that no live paddock holds (R35). -/
def State.freePaddock (s : State) : Nat := ((upto 1 145).find? fun p => !(s.paddock p).live).getD 145
def State.padCount (s : State) : Nat := (s.host.paddocks.filter (·.2.live)).length
/-- Regions join a paddock: stranded IDs and the paddock's own lent tiles there become ordinary members (R37, R725). -/
def State.gainRegions (s : State) (p : Nat) (rs : List Nat) : State :=
  let ids := s.idsIn rs
  let s := { s with org := { s.org with
    stranded := ids.foldl (fun l i => if (tget s.org.lent i).isNone && !(s.tileOf i).any (s.org.clearingTiles.contains ·) then setDel l i else l) s.org.stranded
    lent := ids.foldl (fun tb i => if tget tb i = some p then tput tb i none else tb) s.org.lent } }
  (s.modPaddock p fun P => { P with regions := rs.foldl setIns P.regions }).geoUpdate ids
/-- Attribute words above the session's version (R475). -/
def attrsBeyond (ver w5 : Nat) : Bool := (bit w5 12 && decide (ver < 0x202)) || (fld w5 16 16 != 0 && decide (ver < 0x203))

def execCreatePaddock (fn : FnIx) (q : BitVec 16) (c : SqEntry) (s : State) : Res :=
  let n := c.ctx.toNat
  let named := bitmapRegions c
  let count := wf c.w5 0 8
  let rs := if named.isEmpty then s.countRegions count else named
  .next (s.perform fn q.toNat 0x10 c false
    [(0x10, attrsBeyond (s.ver fn) c.w5.toNat),
     (0x11, sqStray c (0 :: bitmapMasks ++ [msk 0 13 + msk 16 16]) || (named.isEmpty && count == 0) || (!named.isEmpty && count != 0) || decide (count > 144)),
     (0x15, !s.ctxMine fn n),
     (0x14, named.any fun r => !s.assignable r),
     (0x12, decide (s.regionsUsed fn + rs.length > s.fnQuota fn) || decide (s.padCount ≥ 144) || (named.isEmpty && decide (rs.length < count)))]
    fun _ s =>
      let p := s.freePaddock
      let s := s.setPaddock p { live := true, ctx := n, prio := wf c.w5 8 4, mixed := bit c.w5.toNat 12, slice := wf c.w5 16 16 }
      ({ r0 := p, r1 := rs.length }, s.gainRegions p rs))

/-- Is a job of the paddock in a state that forbids changing its regions (R487)? -/
def State.padBusy (s : State) (p : Nat) : Bool :=
  (s.paddock p).releasing || (s.paddock p).after.isSome || (s.paddock p).jobs.any fun j =>
    let st := (s.job j).state
    st == .running || st == .suspending || st == .resuming || st == .cancelling

def execGrowPaddock (fn : FnIx) (q : BitVec 16) (c : SqEntry) (s : State) : Res :=
  let n := c.ctx.toNat
  let p := wf c.w1 0 16
  let rs := bitmapRegions c
  -- save areas already held are resized for the larger paddock (R432, R487)
  let grown := s.gainRegions p rs
  let resized := ((s.paddock p).jobs.filter fun j => (s.job j).state == .queued && !(s.job j).area.frames.isEmpty).foldl
    (fun (o : Option State) j => o.bind fun s => s.takeArea j p) (some grown)
  .next (s.perform fn q.toNat 0x11 c false
    [(0x11, sqStray c (msk 0 16 :: bitmapMasks) || rs.isEmpty),
     (0x15, !s.padMine fn n p),
     (0x14, s.padBusy p || rs.any fun r => !s.assignable r),
     (0x12, decide (s.regionsUsed fn + rs.length > s.fnQuota fn) || resized.isNone)]
    fun _ s =>
      let g := s.gainRegions p rs
      let js := (s.paddock p).jobs.filter fun j => (s.job j).state == .queued && !(s.job j).area.frames.isEmpty
      ({}, js.foldl (fun s j => (s.takeArea j p).getD s) g))

/-- SHRINK_PADDOCK: a job suspended in place is saved before a region is removed; then the command completes (R487). -/
def execShrinkPaddock (fn : FnIx) (q : BitVec 16) (c : SqEntry) (s : State) : Res :=
  let n := c.ctx.toNat
  let p := wf c.w1 0 16
  let rs := bitmapRegions c
  let P := s.paddock p
  let mustSave := match P.resident with | some j => (s.job j).state == .suspended | none => false
  .next (s.perform fn q.toNat 0x12 c false
    [(0x11, sqStray c (msk 0 16 :: bitmapMasks) || rs.isEmpty || (s.padMine fn n p && ((rs.any fun r => !P.regions.contains r) || decide (rs.length = P.regions.length)))),
     (0x15, !s.padMine fn n p),
     (0x14, s.padBusy p),
     (0x12, mustSave && (match P.resident with | some j => (s.takeArea j p).isNone | none => false))]
    fun o s =>
      if mustSave then
        let s := s.modPaddock p fun P => { P with after := some (.shrink o rs) }
        ({ status := 0xFF }, if P.saving then s else s.startSave p)
      else ({}, s.doShrink p rs))

def execSetPaddock (fn : FnIx) (q : BitVec 16) (c : SqEntry) (s : State) : Res :=
  let p := wf c.w1 0 16
  let m := wf c.w5 32 3
  let P := s.paddock p
  let mixed := bit c.w5.toNat 12
  .next (s.perform fn q.toNat 0x13 c false
    [(0x10, attrsBeyond (s.ver fn) c.w5.toNat),
     (0x11, sqStray c [msk 0 16, 0, 0, 0, msk 8 5 + msk 16 16 + msk 32 3]),
     (0x15, !s.padMine fn c.ctx.toNat p),
     (0x14, bit m 1 && mixed != P.mixed && (P.jobs.any fun j => let st := (s.job j).state; st == .running || st == .suspending || st == .resuming))]
    fun _ s => ({}, s.modPaddock p fun P => { P with
      prio := if bit m 0 then wf c.w5 8 4 else P.prio
      mixed := if bit m 1 then mixed else P.mixed
      slice := if bit m 2 then wf c.w5 16 16 else P.slice }))

/-- The pairs of a REPLACE_PADDOCK: logical ID and target tile. -/
def replacePairs (c : SqEntry) : List (Nat × Nat × Nat) :=
  (([c.w2, c.w3, c.w4, c.w5, c.w6, c.w7] : List (BitVec 64)).flatMap fun w => [w.toNat % 2 ^ 32, w.toNat / 2 ^ 32]).filterMap fun v =>
    if fld v 0 16 = 0xFFFF then none else some (fld v 0 16, fld v 16 5, fld v 24 5)
/-- Reserved bits of a pair word: [23:21] and [31:29]. -/
def pairStray (c : SqEntry) : Bool :=
  (([c.w2, c.w3, c.w4, c.w5, c.w6, c.w7] : List (BitVec 64)).flatMap fun w => [w.toNat % 2 ^ 32, w.toNat / 2 ^ 32]).any fun v =>
    fld v 0 16 != 0xFFFF && (fld v 21 3 != 0 || fld v 29 3 != 0)

/-- REPLACE_PADDOCK: accepts the placement, or re-binds member IDs; a running job is pre-empted and saved, and restored
onto the new tiles (R488). -/
def execReplacePaddock (fn : FnIx) (q : BitVec 16) (c : SqEntry) (s : State) : Res :=
  let n := c.ctx.toNat
  let p := wf c.w1 0 16
  let rebind := bit c.w1.toNat 16
  let P := s.paddock p
  let ps := replacePairs c
  let moves := ps.map fun e => (e.1, tileAt e.2.1 e.2.2)
  let badTarget := fun (e : Nat × Nat × Nat) =>
    decide (e.2.1 ≥ 24) || decide (e.2.2 ≥ 24) || !s.freeTile (tileAt e.2.1 e.2.2) || fieldOf (tileAt e.2.1 e.2.2) != e.1 / 60
  let dup := decide (((moves.map (·.2)).foldl setIns []).length < moves.length) || decide (((moves.map (·.1)).foldl setIns []).length < moves.length)
  let mustSave := match P.resident with | some j => !(s.job j).saved | none => false
  .next (s.perform fn q.toNat 0x14 c false
    [(0x11, sqStray c [msk 0 17 + msk 32 32, maskAll, maskAll, maskAll, maskAll, maskAll, maskAll] ||
            (rebind && (pairStray c || dup || ps.any badTarget)) || (!rebind && !ps.isEmpty && ps.any fun e => e != (0, 0, 0))),
     (0x15, !s.padMine fn n p || (rebind && ps.any fun e => s.lidPaddock e.1 != p)),
     (0x14, s.org.geoGen != wf c.w1 32 32 || P.releasing || P.after.isSome || (match P.resident with | some j => (s.job j).state == .cancelling || (s.job j).state == .resuming || (s.job j).state == .suspending | none => false)),
     (0x12, rebind && mustSave && (match P.resident with | some j => (s.takeArea j p).isNone | none => false))]
    (fun _ s => ({ status := 1 }, s))
    fun o s =>
      if !rebind then (s.liftGeometry p).finish o 0 0 0 0
      else if mustSave then
        let s := s.modPaddock p fun P => { P with after := some (.replace o moves) }
        match P.resident with
        | some j => if (s.job j).state = .running then s.beginPreempt p else if P.saving then s else s.startSave p
        | none => s
      else
        let s := s.modPaddock p fun P => { P with after := some (.replace o moves) }
        s.doAfter p)

def execReleasePaddock (fn : FnIx) (q : BitVec 16) (c : SqEntry) (s : State) : Res :=
  let p := wf c.w1 0 16
  .next (s.perform fn q.toNat 0x15 c false
    [(0x11, sqStray c [msk 0 16]), (0x15, !s.padMine fn c.ctx.toNat p), (0x14, (s.paddock p).releasing)]
    (fun _ s => ({ status := 1 }, s)) fun o s => s.beginRelease p (some o))

/-! ### The geometry entry (R47, R490) -/

/-- Does an edge port have a block attached (R31)? -/
def portAttached (n : Nat) : Bool :=
  isFold n || (upto 0 20).any (fun k => (stackNodes k).contains n) || (upto 0 18).any (fun k => lampNode k == n) || (upto 0 4).any (fun k => hostNode k == n)
/-- One side of LINKS: verge code times 4 plus mesh code. -/
def State.geoSide (s : State) (t side : Nat) : Nat :=
  match neighbour t side with
  | none => match edgeNode t side with
    | some n => if portAttached n then 15 else 0
    | none => 0
  | some u => if s.org.dead.contains (regionOf u) then 0 else if seamsBetween t u = 0 then 10 else 5
/-- A neighbour field. -/
def State.geoNbr (s : State) (t side : Nat) : Nat :=
  match neighbour t side with
  | none => 0xFFFF
  | some u => if s.org.dead.contains (regionOf u) then 0xFFFF else s.lidOr u
/-- The eight words of the logical tile entry of `l`, owner coded for function `fn`. -/
def State.geoEntry (s : State) (fn l : Nat) : List Nat :=
  let bound := s.tileOf l
  let t := bound.getD (designated l)
  let st := if bound.isSome then 0 else if s.licensed l && !s.org.toBind.contains l && tget s.org.binds l == .hole then 1 else 2
  let loc := atBit st 30 2 + atBit (b01 (tget s.org.lent l).isSome) 29 1 + atBit (l / 60) 24 4 + atBit (regionOf t) 16 8 + atBit (ty t) 8 5 + tx t
  let side := fun k => if bound.isSome then s.geoSide t k else 0
  let nbr := fun k => if bound.isSome then s.geoNbr t k else 0xFFFF
  let p := s.lidPaddock l
  let owner := if p = 0 then 0 else if (s.ctx (s.paddock p).ctx).fn = fn then p else 0xFFFE
  [loc, atBit (side 0) 12 4 + atBit (side 1) 8 4 + atBit (side 2) 4 4 + side 3,
   nbr 0 * 2 ^ 16 + nbr 1, nbr 2 * 2 ^ 16 + nbr 3, owner, tget s.org.geoChanged l, 0, 0]

def execGetPlacement (fn : FnIx) (q : BitVec 16) (c : SqEntry) (s : State) : Res :=
  let p := wf c.w1 0 16
  let ms := s.members p
  let n := 32 * (ms.length + 1)
  .next (s.perform fn q.toNat 0x16 c false
    [(0x11, sqStray c [msk 0 16, maskAll, msk 0 16] || wf c.w2 0 12 != 0 || (s.padMine fn c.ctx.toNat p && decide (wf c.w3 0 16 < n))),
     (0x15, !s.padMine fn c.ctx.toNat p)]
    fun _ s =>
      let hdr := toBytes (s.org.geoGen + ms.length * 2 ^ 32 + p * 2 ^ 48) 32
      let bs := hdr ++ ms.flatMap fun l => (s.geoEntry fn l).flatMap fun w => toBytes w 4
      ({ r0 := s.org.geoGen, r1 := n }, s.emit (.hostWrite (portOfFn fn) c.w2.toNat bs false)))

/-! ### Memory (R491) -/

def execAlloc (fn : FnIx) (q : BitVec 16) (c : SqEntry) (s : State) : Res :=
  let n := c.ctx.toNat
  let w := wf c.w2 0 8
  let fs := s.findFrames w c.w1.toNat 1
  .next (s.perform fn q.toNat 0x20 c false
    [(0x11, sqStray c [maskAll, msk 0 8] || c.w1 == 0 || (decide (w ≥ 20) && w != 0xFF)), (0x15, !s.ctxMine fn n),
     (0x12, fs.isNone)]
    fun _ s => ({ r0 := frameAddr w ((fs.getD []).headD 0) }, s.setFrames (fs.getD []) (.ctx n)))

/-- Is a frame mapped by the context's device-managed tables? -/
def State.frameMapped (s : State) (c f : Nat) : Bool :=
  (s.ctx c).maps.any fun m => m.2.2.1 == 0 && (match frameOf m.2.2.2 with
    | some f0 => (framesOf m.2.2.2 m.2.1).contains f || f0 == f
    | none => false)
/-- Does a frame hold a byte of a ring, or the tail word, of a queue in device memory? -/
def State.frameRing (s : State) (c f : Nat) : Bool :=
  s.host.queues.any fun e => e.2.made && e.2.inDevice && e.2.ctx == c &&
    (pagePieces e.2.sqBase (64 * 2 ^ e.2.log2Sq) ++ pagePieces e.2.cqBase (32 * 2 ^ e.2.log2Cq) ++ pagePieces e.2.tailVa 8).any fun pc =>
      match s.ctxPlace c pc.1 false with
      | .ok (0, a) => frameOf a == some f
      | _ => false

def execFree (fn : FnIx) (q : BitVec 16) (c : SqEntry) (s : State) : Res :=
  let n := c.ctx.toNat
  let fs := framesOf c.w1.toNat (4096 * c.w2.toNat)
  let tables := fs.any fun f => s.frame f == .table n
  .next (s.perform fn q.toNat 0x21 c false
    [(0x11, sqStray c [maskAll, maskAll] || wf c.w1 0 12 != 0 || c.w2 == 0),
     (0x15, !s.ctxMine fn n || decide (fs.length < c.w2.toNat) || fs.any fun f => s.frame f != .ctx n && s.frame f != .table n),
     (0x14, tables || fs.any fun f => s.frameMapped n f || s.frameRing n f)]
    fun _ s => ({}, (s.freeFrames fs).setCtx n { s.ctx n with newFrames := (s.ctx n).newFrames.filter fun f => !fs.contains f }))

/-- The fault IDs outstanding in a context whose address lies in a range (R419, R491). -/
def State.faultsIn (s : State) (c va n : Nat) : List Nat :=
  (s.mmu.faults.filter fun f => f.ctx == c && decide (va ≤ f.va) && decide (f.va < va + n)).map (·.id)

/-- A resolution reaches the unit, or its saved record where the job's state has been saved (R431). -/
def State.resolve (s : State) (id : Nat) (retry : Bool) : Nat × State :=
  let upd := fun (h : Option CoreHold) => match h with
    | some h => if h.fault = some id then (if retry then none else some { h with fault := none, resolved := some false }) else some h
    | none => none
  let (a, s) := s.resolveFault id retry
  let j := id / 2 ^ 32
  if a ≠ 0 ∨ !(s.job j).saved then (a, s)
  else
    (a, s.modJob j fun J => { J with area := { J.area with
      tiles := listMod J.area.tiles (id / 2 ^ 22 % 1024) fun b => { b with tile := { b.tile with
        core0 := { b.tile.core0 with hold := upd b.tile.core0.hold }
        core1 := { b.tile.core1 with hold := upd b.tile.core1.hold }
        chans := b.tile.chans.map fun e => (e.1, { e.2 with wait := upd e.2.wait }) } }
      slots := J.area.slots.map fun e => (e.1, { e.2 with spillHold := upd e.2.spillHold }) } })

def execMap (fn : FnIx) (q : BitVec 16) (c : SqEntry) (s : State) : Res :=
  let n := c.ctx.toNat
  let (va, len) := (c.w1.toNat, c.w2.toNat)
  let (src, page, win) := (wf c.w3 0 2, wf c.w3 3 2, wf c.w3 8 8)
  let size := pageBytes page
  let count := len / size
  let fresh := s.findFrames win (len / 4096) (if win < 20 then size / 4096 else size / 4096)
  let out := if src = 0 then frameAddr win ((fresh.getD []).headD 0) else c.w4.toNat
  let tgt := if src = 2 then 1 else 0
  let withFrames := if src = 0 then s.setFrames (fresh.getD []) (.ctx n) else s
  let done := withFrames.mapPages n va out tgt (bit c.w3.toNat 2) page count
  let mine := (framesOf c.w4.toNat len)
  .next (s.perform fn q.toNat 0x22 c false
    [(0x11, sqStray c [maskAll, maskAll, msk 0 5 + msk 8 9, if src = 0 then 0 else maskAll] || src == 3 || len == 0 || va % size != 0 || len % size != 0 ||
            (src != 0 && c.w4.toNat % size != 0) || (src == 0 && decide (win ≥ 20) && win != 0xFF) || decide (va + len > 2 ^ 56)),
     (0x13, s.ctxMine fn n && (s.ctx n).hostTables),
     (0x15, !s.ctxMine fn n || (src == 1 && (decide (mine.length < len / 4096) || mine.any fun f => s.frame f != .ctx n))),
     (0x14, (s.ctx n).maps.any fun m => decide (m.1 < va + len) && decide (va < m.1 + m.2.1)),
     (0x12, (src == 0 && fresh.isNone) || done.isNone)]
    fun _ s =>
      let s := done.getD s
      let s := if src = 0 then s.setCtx n { s.ctx n with newFrames := (s.ctx n).newFrames ++ fresh.getD [] } else s
      let s := if bit c.w3.toNat 16 then (s.faultsIn n va len).foldl (fun s id => (s.resolve id true).2) s else s
      ({ r0 := if src = 0 then out else 0 }, s))

/-- Places that dropped entries of some contexts name, over every cache. -/
def State.droppedPlaces (s : State) (p : TlbEntry → Bool) : List (Nat × Nat × Nat) :=
  ((s.tiles.flatMap fun e => e.2.tlb.filter p) ++ (s.regions.flatMap fun e => e.2.stlb.filter p)).map fun e => (e.target, e.out, e.size)

/-- An invalidation begins: the entries are dropped at once, and it completes when accesses under them are performed (R398). -/
def State.startInval (s : State) (by_ : InvBy) (p : TlbEntry → Bool) (ctxs : List Nat) : State :=
  let places := s.droppedPlaces p
  let s := s.dropXlate p ctxs
  { s with mmu := { s.mmu with invs := s.mmu.invs ++ [{ by_ := by_, ctxs := ctxs, places := places }] } }

/-- UNMAP clears the entries and completes when the invalidation has; with FREE the frames that MAP allocated are freed. -/
def execUnmap (fn : FnIx) (q : BitVec 16) (c : SqEntry) (s : State) : Res :=
  let n := c.ctx.toNat
  let (va, len) := (c.w1.toNat, c.w2.toNat)
  let inside := fun (m : Nat × Nat × Nat × Nat) => decide (va ≤ m.1) && decide (m.1 + m.2.1 ≤ va + len)
  let meets := fun (m : Nat × Nat × Nat × Nat) => decide (m.1 < va + len) && decide (va < m.1 + m.2.1)
  let C := s.ctx n
  .next (s.perform fn q.toNat 0x23 c false
    [(0x11, sqStray c [maskAll, maskAll, msk 0 1] || wf c.w1 0 12 != 0 || wf c.w2 0 12 != 0 || len == 0 || (s.ctxMine fn n && C.maps.any fun m => meets m && !inside m)),
     (0x13, s.ctxMine fn n && C.hostTables), (0x15, !s.ctxMine fn n)]
    fun o s =>
      let gone := C.maps.filter inside
      let free := if bit c.w3.toNat 0 then (gone.flatMap fun m => if m.2.2.1 = 0 then framesOf m.2.2.2 m.2.1 else []).filter C.newFrames.contains else []
      let s := gone.foldl (fun s m => s.unmapPage n m.1 m.2.1) s
      let s := s.setCtx n { s.ctx n with maps := (s.ctx n).maps.filter fun m => !inside m, newFrames := (s.ctx n).newFrames.filter fun f => !free.contains f }
      ({ status := 0xFF }, s.startInval (.cmd o.fn o.queue o.no free) (fun e => e.within [n] false va len) [n]))

/-- The fault record that lies at an index of a context's queue, 32 bytes (R416). -/
def State.fqRecord (s : State) (c i : Nat) : List Byte := s.bytes (hbmAddrKey ((s.mmuCtx c).fqBase + 32 * i)) 32

/-- A context's fault queue head moves: there may be room again (R417). -/
def State.setFqHead (s : State) (c head : Nat) : State :=
  let m := s.mmuCtx c
  let h := head % 2 ^ m.log2
  s.setMmuCtx c { m with head := h, fqFull := m.fqFull && decide ((m.tail + 1) % 2 ^ m.log2 = h) }

def execGetFaults (fn : FnIx) (q : BitVec 16) (c : SqEntry) (s : State) : Res :=
  let n := c.ctx.toNat
  let m := s.mmuCtx n
  let size := 2 ^ m.log2
  let k := min (wf c.w2 0 16) ((m.tail + size - m.head) % size)
  .next (s.perform fn q.toNat 0x25 c false
    [(0x11, sqStray c [maskAll, msk 0 16] || wf c.w1 0 12 != 0), (0x15, !s.ctxMine fn n)]
    fun _ s =>
      let bs := (upto m.head k).flatMap fun i => s.fqRecord n (i % size)
      let s := if k = 0 then s else s.emit (.hostWrite (portOfFn fn) c.w1.toNat bs false)
      ({ r0 := k }, s.setFqHead n (m.head + k)))

def execResolve (fn : FnIx) (q : BitVec 16) (c : SqEntry) (s : State) : Res :=
  let n := c.ctx.toNat
  let id := c.w1.toNat
  let act := wf c.w2 0 2
  let open_ := s.mmu.faults.any fun f => f.id == id && f.ctx == n
  let was := s.mmu.resolvedIds.contains id && (s.job (id / 2 ^ 32)).ctx == n
  .next (s.perform fn q.toNat 0x26 c false
    [(0x11, sqStray c [maskAll, msk 0 2] || act == 0 || act == 3),
     (0x15, !s.ctxMine fn n || (!open_ && !was)), (0x14, was)]
    fun _ s => ({}, (s.resolve id (act == 1)).2))

end Sys2Proof.Machine
end

