-- ==== Sys2Proof/Machine/Hbm.lean ====
section
/-! DEFINITION. The HBM controllers: checked reads, repair, retirement, migration, scrubbing, self-refresh, training, tests,
reset and loss of a stack (R442-R470). -/
namespace Sys2Proof.Machine

/-! ### Places (R446) -/

/-- Lines of a stack, and of a pseudo-channel. -/
def stackLines : Nat := 260046848
def channelLines : Nat := 4063232
/-- Pseudo-channel of a stack offset. -/
def pcOfOff (o : Nat) : Nat := o / 256 % 64
/-- Row of a stack offset, with its pseudo-channel. -/
def rowOfOff (o : Nat) : Nat := pcOfOff o * 2 ^ 32 + Config.hbmRow (o / 256 / 64) % 2 ^ 32
def bankOfRow (row : Nat) : Nat := row / 2 ^ 32 * 2 ^ 16 + Config.hbmBank (row % 2 ^ 32) % 2 ^ 16
/-- A record that names a stack. -/
def State.stackEvent (s : State) (k code : Nat) (detail : List Nat) : State := s.raise { code := code, unit := k, detail := detail }
/-- A day in ns. -/
def dayNs : Nat := 86400000000000

/-! ### Retirement (R455-R458) -/

/-- A retirement's migration starts, where one waits and none is under way: the lower number first (R456, R458). -/
def State.startMigration (s : State) (k : Nat) : State :=
  let K := s.stack k
  match K.pendingRetire with
  | [] => s
  | p :: rest =>
    if K.migrating.isSome || K.testing == some p then s
    else (s.modStack k fun K => { K with migrating := some p, migPtr := 0, pendingRetire := rest, selfRefresh := false }).stackEvent k 0x5004 [p]

/-- A pseudo-channel is retired: recorded, and the event raised. -/
def State.retired (s : State) (k p : Nat) : State :=
  let s := (s.defect 0x07 0x5005 [k, p]).stackEvent k 0x5005 [p]
  (s.modStack k fun K => { K with retired := setIns K.retired p, pendingRetire := setDel K.pendingRetire p }).startMigration k

/-- A test step stops: a pseudo-channel that qualified under it is retired where the step put its lines (R458). -/
def State.stopTest (s : State) (k : Nat) : State :=
  let K := s.stack k
  match K.testing with
  | none => s
  | some p =>
    let s := s.modStack k fun K => { K with testing := none, testPart := 0 }
    if K.pendingRetire.contains p then s.retired k p else s.startMigration k

/-- A pseudo-channel qualifies for retirement (R455, R457, R458). -/
def State.qualify (s : State) (k p : Nat) : State :=
  let K := s.stack k
  let taken := K.retired.length + K.pendingRetire.length + b01 K.migrating.isSome
  if K.retired.contains p || K.pendingRetire.contains p || K.migrating == some p then s
  else if taken ≥ 2 then
    if K.noReserveRaised then s else (s.modStack k fun K => { K with noReserveRaised := true }).stackEvent k 0x5006 [p]
  else
    let s := s.modStack k fun K => { K with pendingRetire := setIns K.pendingRetire p }
    -- a test step of another pseudo-channel gives its reserve back
    let s := if taken = 1 ∧ K.testing.isSome ∧ K.testing ≠ some p ∧ K.testData then s.stopTest k else s
    s.startMigration k

/-! ### Errors and repair (R452-R454) -/

/-- A row is repaired while its bank has a spare; else its pseudo-channel qualifies. -/
def State.repairRow (s : State) (k row : Nat) : State :=
  let K := s.stack k
  let used := ((K.softRepairs ++ K.hardRepairs).filter fun r => bankOfRow r == bankOfRow row).length
  if used < Config.spareRows then
    let s := s.modStack k fun K => { K with softRepairs := K.softRepairs ++ [row], rowCe := tput K.rowCe row [] }
    (s.defect 0x06 0x5002 [k, row / 2 ^ 32, row % 2 ^ 32]).stackEvent k 0x5002 [row / 2 ^ 32, row % 2 ^ 32]
  else s.qualify k (row / 2 ^ 32)

/-- A corrected word: the fourth distinct one of a row within a day has the row repaired. -/
def State.hbmCe (s : State) (k o kind : Nat) : State :=
  let row := rowOfOff o
  let s := s.modStack k fun K => { K with
    ce := min (K.ce + 1) (2 ^ 32 - 1), errAddr := o / 32 * 32, errKind := kind
    rowCe := tmod K.rowCe row fun l => (o / 32, s.time) :: (l.filter fun e => e.1 != o / 32 && decide (s.time < e.2 + dayNs)) }
  let s := s.stackEvent k 0x5001 [pcOfOff o, o]
  if (tget (s.stack k).rowCe row).length ≥ 4 then s.repairRow k row else s

/-- An uncorrectable word: its row is repaired, and a second row within a day retires the pseudo-channel. -/
def State.hbmUe (s : State) (k o kind : Nat) : State :=
  let row := rowOfOff o
  let s := s.modStack k fun K => { K with
    ue := min (K.ue + 1) (2 ^ 32 - 1), errAddr := o / 32 * 32, errKind := kind
    ueRows := (row, s.time) :: (K.ueRows.filter fun e => e.1 != row && decide (s.time < e.2 + dayNs)) }
  let s := (s.stackEvent k 0x5003 [pcOfOff o, o]).repairRow k row
  if ((s.stack k).ueRows.filter fun e => e.1 / 2 ^ 32 == pcOfOff o).length ≥ 2 then s.qualify k (pcOfOff o) else s

/-- Wrong bits that a read meets; three or more stand for any that the code cannot correct. -/
def State.hbmPlant (s : State) (k : Nat) (upsets : List (Nat × Nat)) : State :=
  s.modStack k fun K => { K with upset := upsets.foldl (fun t e => tput t (e.1 % 2 ^ 31) (min 3 e.2)) K.upset }

/-- One word read by a controller: its bytes and mark after correction (R451, R452). `own` tells an error that the stack
reports through its on-die ECC. -/
def State.hbmWord (s : State) (k w : Nat) (own : Bool) : List Byte × Bool × State :=
  let key := hbmKey k (32 * w)
  let wrong := tget (s.stack k).upset w
  let bs := s.bytes key 32
  if wrong = 0 then (bs, s.marked key, s)
  else
    let s := s.modStack k fun K => { K with upset := tput K.upset w 0 }
    if wrong ≤ 2 then (bs, s.marked key, s.hbmCe k (32 * w) (if own then 3 else 1))
    else
      let s := (s.garble key 32).mark key true
      (s.bytes key 32, true, s.hbmUe k (32 * w) (if own then 3 else 2))
/-- Consecutive words read. -/
def State.hbmWords (s : State) (k w : Nat) (own : Bool) : Nat → List (List Byte × Bool) × State
  | 0 => ([], s)
  | n + 1 =>
    let (b, p, s) := s.hbmWord k w own
    let (l, s) := s.hbmWords k (w + 1) own n
    ((b, p) :: l, s)

/-- A whole word written: new check bits, and its mark as given. -/
def State.hbmPut (s : State) (k w : Nat) (bs : List Byte) (poison : Bool) : State :=
  (s.storeWord (hbmKey k (32 * w)) bs poison).modStack k fun K => { K with upset := tput K.upset w 0 }

/-- Does a controller take requests now: 0 yes, 3 it answers BUSY, 5 it answers nothing but UNREACHABLE. -/
def State.stackAnswer (s : State) (k : Nat) : Nat :=
  match (s.stack k).state with | .inReset => 3 | .out => 5 | _ => 0

/-! ### Patrol, migration, refresh (R453, R456, R459, R460) -/

/-- Is the controller at work? -/
def Stack.working (K : Stack) : Bool := K.state == .inService

def execHbmScrubStep (k : StackIx) (upsets : List (Nat × Nat)) (own : Bool) (s : State) : Res :=
  let K := s.stack k
  if !K.working || K.selfRefresh then .next s
  else
    let L := K.scrubLine
    let s := s.hbmPlant k upsets
    let skip := K.migrating == some (L % 64) || K.testing == some (L % 64)
    let s := if skip then s else (s.hbmWords k (8 * L) own 8).2
    .next (s.modStack k fun K => { K with scrubLine := if L + 1 = stackLines then 0 else L + 1 })

/-- MIGRATION_STEP: the next line is copied into the reserve; it keeps its address, and a word that is uncorrectable moves with
its mark. -/
def execMigrationStep (k : StackIx) (upsets : List (Nat × Nat)) (s : State) : Res :=
  let K := s.stack k
  match K.migrating with
  | none => .next s
  | some p =>
    if !K.working then .next s
    else
      let s := s.hbmPlant k upsets
      let s := (s.hbmWords k (8 * (64 * K.migPtr + p)) false 8).2
      if K.migPtr + 1 < channelLines then .next (s.modStack k fun K => { K with migPtr := K.migPtr + 1 })
      else .next ((s.modStack k fun K => { K with migrating := none, migPtr := 0 }).retired k p)

/-- HBM_REFRESH: the refresh of a bank, at the rate of the temperature that the stack reports. -/
def execHbmRefresh (k : StackIx) (temp : BitVec 8) (s : State) : Res :=
  .next (if (s.stack k).working then s.modStack k fun K => { K with temp := temp.toNat } else s)

def execSelfRefreshEntry (k : StackIx) (s : State) : Res :=
  let K := s.stack k
  let busy := K.migrating.isSome || K.testing.isSome
  .next (if K.working && !busy && (K.srIdle != 0 || K.srForced) then s.modStack k fun K => { K with selfRefresh := true } else s)
/-- SELF_REFRESH_EXIT: for a request that waits; not while the stack is held there. -/
def execSelfRefreshExit (k : StackIx) (s : State) : Res :=
  let K := s.stack k
  .next (if K.working && !K.srForced then s.modStack k fun K => { K with selfRefresh := false } else s)

/-! ### Reset, loss, training (R461, R465, R466) -/

/-- A stack reset begins: data, marks, repairs and retirements stay, soft repairs become hard, the registers are cleared. -/
def State.stackReset (s : State) (k : Nat) : State :=
  (s.dropShadows (2 ^ 40 + (stackNodes k).headD 0 * 2 ^ 16) 0x1000).modStack k fun K => { K with
    state := .inReset, selfRefresh := true, ce := 0, ue := 0, errAddr := 0, errKind := 0
    testing := none, testPart := 0, softRepairs := [], hardRepairs := K.hardRepairs ++ K.softRepairs }
/-- A stack goes out of service. -/
def State.stackOut (s : State) (k : Nat) (edge : Bool) : State :=
  let K := s.stack k
  let s := s.modStack k fun K => { K with edgeFailed := K.edgeFailed || edge }
  if K.state = .out then s
  else
    let s := if edge then s.defect 0x08 0x5007 [k] else s
    (s.modStack k fun K => { K with state := .out, lost := true, testing := none, testPart := 0, selfRefresh := false }).stackEvent k 0x5007 []
/-- What lies in a stack is zeros again. -/
def State.stackZero (s : State) (k : Nat) : State :=
  ({ s with
    mem := s.mem.filter fun e => e.1 / 2 ^ 36 != k || decide (e.1 ≥ 20 * 2 ^ 36)
    marks := s.marks.filter fun m => m / 2 ^ 36 != k || decide (m ≥ 20 * 2 ^ 36) }).modStack k fun K => { K with upset := [] }
/-- Training has ended at a rate: the stack serves, and a stack that lost its power meanwhile is empty. -/
def State.stackUp (s : State) (k rate : Nat) (failed : List Nat) : State :=
  let K := s.stack k
  let s := if K.lostPower then s.stackZero k else s
  let s := s.modStack k fun K => { K with
    state := .inService, rate := rate, selfRefresh := K.srForced, trainingSaved := true, lost := false, lostPower := false, internalUe := false }
  let s := if rate > 0 then s.stackEvent k 0x5008 [rate] else s
  let s := failed.foldl (fun s c => (s.qualify k (2 * c)).qualify k (2 * c + 1)) s
  s.startMigration k

/-- Is the coolant within the limits of a start's seventh phase (R709)? -/
def State.coolantOk (s : State) : Bool :=
  let lo := fun (p : Option Nat × Option Nat) => match p with | (some a, some b) => some (min a b) | (some a, none) => some a | (none, b) => b
  let hi := fun (p : Option Nat × Option Nat) => match p with | (some a, some b) => some (max a b) | (some a, none) => some a | (none, b) => b
  (match lo s.power.flows with | some f => decide (240 ≤ f) | none => false) && (match hi s.power.inlets with | some i => decide (i ≤ 450) | none => false)
/-- With every stack trained or out of service the sixth phase of a start is over: the waves follow, or the start waits for its
coolant (R596, R709). -/
def State.afterTraining (s : State) : State :=
  if s.start.phase = 6 ∧ (upto 0 20).all fun k => (s.stack k).state != .inReset then
    { s with start := { s.start with phase := if s.coolantOk then 7 else 6, coolantWait := !s.coolantOk } }
  else s

/-- HBM_TRAINING_DONE: a check of saved training (`saved`) or a full training ends at a rate, or fails; a check that fails is
followed by a full training, a full training that fails takes the stack out of service. -/
def execHbmTrainingDone (k : StackIx) (saved : Bool) (rate : Option (Fin 3)) (failed : List (Fin 32)) (s : State) : Res :=
  if (s.stack k).state ≠ .inReset then .next s
  else match rate with
    | some r => .next (s.stackUp k r (failed.map (·.val))).afterTraining
    | none => .next (if saved then s.modStack k fun K => { K with trainingSaved := false } else (s.stackOut k false).afterTraining)

/-- STACK_RESET, made by Fufin; also what may bring a stack back whose edge domain works. -/
def execStackReset (k : StackIx) (s : State) : Res :=
  -- one that meets a migration waits for its end (R695)
  .next (if (s.stack k).edgeFailed || ((s.stack k).working && (s.stack k).migrating.isSome) then s else s.stackReset k)
/-- HBM_CONTROLLER_ERROR: `cleared` tells whether the stack reset that follows clears it. -/
def execHbmControllerError (k : StackIx) (cleared : Bool) (s : State) : Res :=
  let K := s.stack k
  if !K.working then .next s
  else
    let s := s.modStack k fun K => { K with internalUe := true }
    .next (if cleared then (if K.migrating.isSome then s else s.stackReset k) else s.stackOut k false)

/-! ### Test steps (R463, R464) -/

/-- A test step of a pseudo-channel begins; with data in its frames, at part 1. -/
def State.startTest (s : State) (k p bg : Nat) (data : Bool) : State :=
  s.modStack k fun K => { K with testing := some p, testBg := bg, testData := data, testPart := if data then 1 else 2, selfRefresh := false }

/-- The next step of a start's memory test; one that showed an error is made once more (R464). -/
def State.nextTest (s : State) (k p bg : Nat) (error : Bool) : State :=
  let K := s.stack k
  if s.start.phase ≠ 10 ∨ K.state == .out then s.modStack k fun K => { K with testPlan := [], testAgain := false }
  else if error && !K.testAgain && s.start.cold then (s.startTest k p bg false).modStack k fun K => { K with testAgain := true }
  else match K.testPlan with
    | [] => s.modStack k fun K => { K with testAgain := false }
    | e :: rest => (s.startTest k e.1 e.2 false).modStack k fun K => { K with testPlan := rest, testAgain := false }
/-- TEST_STEP_PART: a part ends and the next begins; an error found qualifies the pseudo-channel once the step stops. A stack
whose frames hold no data is left with the test's words, and zero-fill follows before a frame is handed out (R445). -/
def execTestStepPart (k : StackIx) (error : Bool) (s : State) : Res :=
  let K := s.stack k
  match K.testing with
  | none => .next s
  | some p =>
    let s := if error && (K.testPart == 4 || K.testPart == 5) then
        (if K.retired.contains p || K.pendingRetire.contains p then s
         else if K.retired.length + K.pendingRetire.length + b01 K.migrating.isSome ≥ 2 then s.qualify k p
         else s.modStack k fun K => { K with pendingRetire := setIns K.pendingRetire p })
      else s
    let last := if K.testData then 6 else 5
    let bad := K.testErr || (error && (K.testPart == 4 || K.testPart == 5))
    .next (if K.testPart ≥ last then ((s.stopTest k).modStack k fun K => { K with testErr := false }).nextTest k p K.testBg bad
           else s.modStack k fun K => { K with testPart := K.testPart + 1, testErr := bad })

/-! ### Counters (R469) -/

/-- Who reads a controller's registers: Fufin, over the control network. -/
def readerStack (k : Nat) : Nat := 0x10000 + k
def execHbmCeRead (k : StackIx) (s : State) : Res := .next ((s.emit (.regRead (readerStack k) 0x003 (s.stack k).ce)).modStack k fun K => { K with ce := 0 })
def execHbmUeRead (k : StackIx) (s : State) : Res := .next ((s.emit (.regRead (readerStack k) 0x004 (s.stack k).ue)).modStack k fun K => { K with ue := 0 })

end Sys2Proof.Machine
end

