-- ==== Sys2Proof/Machine/LampOps.lean ====
section
/-! DEFINITION. Lamug ports: states, control messages, routes, endpoint completions, links that go down, ports that go out of
service (R4, R511-R516, R523-R545). -/
namespace Sys2Proof.Machine

def State.lamp (s : State) (n : Nat) : Lamp := tget s.fabric.ports n
def State.modLamp (s : State) (n : Nat) (f : Lamp → Lamp) : State := { s with fabric := { s.fabric with ports := tmod s.fabric.ports n f } }
def State.endpoint (s : State) (e : Nat) : Endpoint := tget s.fabric.eps e
def State.modEp (s : State) (e : Nat) (f : Endpoint → Endpoint) : State := { s with fabric := { s.fabric with eps := tmod s.fabric.eps e f } }

/-! ### Ports -/

/-- Is a port enabled by the licence (R4)? -/
def State.lampLicensed (s : State) (n : Nat) : Bool :=
  match s.org.variant with
  | .f => decide (n < 18)
  | .p => decide (n < 6) || (decide (9 ≤ n) && decide (n < 15))
  | .e => decide (n < 4) || (decide (9 ≤ n) && decide (n < 13))
/-- Does a link carry traffic (UP, LOW_POWER, DEGRADED)? -/
def Lamp.carries (L : Lamp) : Bool := L.state == .up || L.state == .lowPower || L.state == .degraded
/-- Lanes that carry data: eight, or four where the port is held to four (R516, R567, R581). -/
def State.lampLanes (s : State) (n : Nat) : Nat :=
  let L := s.lamp n
  match L.state with
  | .up => if s.power.linksCut || s.power.hotEdges.contains (24 + n) then 4 else 8
  | .lowPower | .degraded => 4
  | _ => 0
def State.lampEvent (s : State) (n code : Nat) (detail : List Nat) : State :=
  let L := s.lamp n
  s.raise { code := code, unit := n, detail := [L.peer.1, L.peer.2] ++ detail }
def State.lampErr (s : State) (n bit_ : Nat) : State := s.modLamp n fun L => { L with perr := L.perr ||| 2 ^ bit_ }

/-! ### Sending (R521, R530) -/

/-- Something for the peer: kinds 0-15 are fabric packet types, 16 REPLAY_REQ, 17 LANE_CMD, 18 a swap marker, 0x100 and more
control messages by kind. A packet or message takes flits of 304 bytes of its own; DATA and CONTROL flits are numbered and
kept until acknowledged. -/
def State.lampSend (s : State) (n vl bytes kind : Nat) (body : List Nat) : State :=
  let k := cdiv bytes 304
  let L := s.lamp n
  let seqs := (upto 0 k).map fun i => ((L.txSeq + i) % 4096, 0)
  (s.modLamp n fun L => { L with txSeq := (L.txSeq + k) % 4096, unacked := L.unacked ++ seqs, txFrames := L.txFrames + k
                                 credits := listMod L.credits vl (· - k) }).emit (.lamug n kind body)
/-- A control message over one link. -/
def State.lampControl (s : State) (n kind : Nat) (body : List Nat) : State :=
  if (s.lamp n).carries then s.lampSend n 2 304 (0x100 + kind) body else s
/-- The port that the routing tables give for a module (R531, R532); `table` is the port of arrival, 18 for packets of this module. -/
def State.fabricRoute (s : State) (table dst : Nat) : Option Nat :=
  let e := tget s.fabric.routes (4096 * table + dst)
  if !bit e 15 then none
  else
    let p := fld e 9 5
    let a := fld e 4 5
    if p < 18 ∧ (s.lamp p).carries then some p
    else if bit e 14 ∧ a < 18 ∧ (s.lamp a).carries then some a else none
/-- A control message for a module: routed, or lost where no route leads there. -/
def State.controlTo (s : State) (table dst kind : Nat) (body : List Nat) : State :=
  match s.fabricRoute table dst with
  | some p => s.lampControl p kind body
  | none => s
/-- LINK_STATE for the fabric manager: module, port, state, lanes (R530). -/
def lampCode : LampState → Nat
  | .disabled => 0 | .down => 1 | .training => 2 | .authenticating => 3 | .up => 4 | .lowPower => 5 | .degraded => 6 | .outOfService => 7 | .notLicensed => 8
def State.linkState (s : State) (n : Nat) : State :=
  if s.fabric.fmgrOn && s.fabric.moduleId != 0xFFF then
    s.controlTo 18 s.fabric.fmgr 3 [s.fabric.moduleId, s.fabric.fmgr, n, lampCode (s.lamp n).state, s.lampLanes n]
  else s

/-- A fabric packet as it leaves, for the log. -/
def fabricNumbers (p : FPacket) : List Nat :=
  [p.typ, p.vl, p.status, p.words, p.srcMod, p.dstMod, p.hops, p.srcEp, p.dstEp, p.txn, p.offset, p.poison] ++ p.data.map (·.toNat)
/-- A fabric packet leaves by a port. -/
def State.fabricOut (s : State) (n : Nat) (p : FPacket) : State := s.lampSend n p.vl (32 + 32 * p.data.length) p.typ (fabricNumbers p)

/-! ### Completions of endpoints (R541, R542) -/

/-- An endpoint is closed: descriptors not yet started complete CLOSED as they are polled no more (R538, R542). -/
def State.ringFault (s : State) (e : Nat) : State :=
  let E := s.endpoint e
  (s.modEp e fun _ => {}).raise { code := 0x700C, unit := e, detail := [E.home] }
/-- A 16-byte entry is written to the completion ring; a ring access that faults closes the endpoint. -/
def State.epComplete (s : State) (e user status moved : Nat) : State :=
  let E := s.endpoint e
  if !E.open_ then s
  else
    let port := portOfFn (s.ctx E.ctx).fn
    let bs := toBytes user 8 ++ [BitVec.ofNat 8 status] ++ toBytes moved 6 ++ [if E.phase then 0x80 else 0]
    let (ok, s') := s.ctxWrite E.ctx port (pagePieces (E.cqVa + 16 * E.cqTail) 16) bs
    if !ok then s.ringFault e
    else
      let n := (E.cqTail + 1) % 2 ^ E.log2
      s'.modEp e fun E => { E with cqTail := n, phase := if n = 0 then !E.phase else E.phase }
/-- A close ends once nothing is in flight. -/
def State.epSettle (s : State) (e : Nat) : State :=
  let E := s.endpoint e
  if E.closing ∧ E.descs.isEmpty then s.modEp e fun _ => {} else s
/-- A descriptor ends. -/
def State.descDone (s : State) (e : Nat) (d : FDesc) (status moved : Nat) : State :=
  let s := s.modEp e fun E => { E with descs := E.descs.filter fun x => x.no != d.no }
  (s.epComplete e d.user status moved).epSettle e

/-! ### Fabric hurdles that break (R528, R545) -/

def State.gentry (s : State) (g : Nat) : GEntry := tget s.fabric.groups g
/-- The ports of a mask. -/
def portsOf (mask : Nat) : List Nat := (upto 0 18).filter fun n => bit mask n
/-- A generation in progress at this module completes BROKEN: at its own endpoint, and word of it goes to the ports of the
tree that still carry. -/
def State.breakGroup (s : State) (g : Nat) : State :=
  let H := tget s.fabric.ghurdles g
  let G := s.gentry g
  let mine := (s.endpoint G.localEp).descs.find? fun d => d.op == 4 && d.target == g
  if H.count = 0 ∧ !H.passedUp ∧ mine.isNone then s
  else
    let s := { s with fabric := { s.fabric with ghurdles := tput s.fabric.ghurdles g {} } }
    let s := s.raise { code := 0x700D, unit := G.localEp, detail := [g] }
    let s := match mine with | some d => s.descDone G.localEp d 0x26 0 | none => s
    let note : FPacket := { typ := 7, vl := 1, status := 3, srcMod := s.fabric.moduleId, dstEp := g }
    (portsOf G.down ++ (if G.up < 18 then [G.up] else [])).foldl (fun s n =>
      if (s.lamp n).carries then s.fabricOut n (if n = G.up then { note with typ := 6, vl := 0 } else note) else s) s

/-! ### Links down, ports lost (R534, R535) -/

/-- The link of a port goes down: its buffers and keys are gone, hurdles on trees through it break. -/
def State.lampDown (s : State) (n : Nat) (to_ : LampState) : State :=
  let was := (s.lamp n).carries
  let s := s.endSessions fun x => x.place == 261 + n
  let s := s.modLamp n fun L => { L with
    state := to_, step := 0, encrypted := false, ver := 0, peer := (0xFFF, 0xFF), rxBypass := 0xF, txBypass := 0xF
    rxFailed := [], txFailed := [], swapping := none, rxSeq := 0, txSeq := 0, asked := false, unacked := [], replaysMs := 0
    credits := [1024, 1024, 32], txKey := 0, rxKey := 0, txFrames := 0, tagFails := [], gbuf := [] }
  if !was then s
  else
    let trees := s.fabric.groups.filter fun e => e.2.valid && (bit e.2.down n || e.2.up == n)
    (trees.foldl (fun s e => s.breakGroup e.1) s).linkState n
/-- A link that fails goes DOWN, with the event. -/
def State.lampFail (s : State) (n : Nat) (cause : Nat) : State := ((s.lampEvent n 0x7004 [cause]).lampErr n 2).lampDown n .down
/-- A port goes out of service. -/
def State.portOut (s : State) (n : Nat) : State :=
  if (s.lamp n).state = .outOfService then s else (s.lampEvent n 0x7009 []).lampDown n .outOfService
/-- A host port goes out of service: its link is down and its functions are reset (R505, R585). -/
def State.hostPortOut (s : State) (p : Nat) : State :=
  (s.setPort p { s.port p with out := true, up := false, reads := [] }).resetFunction p

/-! ### Resets and retraining (R517, R648, R692) -/

/-- A port reset: link down, block reset, training from step 1; saved equalisation stays. -/
def State.lampReset (s : State) (n : Nat) : State :=
  let L := s.lamp n
  let s := s.lampDown n .down
  -- ENABLE's reset value is 1
  s.modLamp n fun _ => {
    state := if s.lampLicensed n then .training else .down, step := if s.lampLicensed n then 1 else 0
    saved := L.saved, fromPreset := false, hello := L.hello, runBank := L.runBank, pendingBank := L.pendingBank, offer := L.offer, offerPrev := L.offerPrev }
/-- A retraining of a link: down, and training from step 1, its controls kept. -/
def State.lampRetrain (s : State) (n : Nat) (preset : Bool) : State :=
  (s.lampDown n .training).modLamp n fun L => { L with step := 1, fromPreset := preset, waitRetry := false }

end Sys2Proof.Machine
end

