-- ==== Sys2Proof/Machine/MaintOps.lean ====
section
/-! DEFINITION. Maintenance jobs: conflicts, the deferral queue, starts and ends (R502, R648-R652). -/
namespace Sys2Proof.Machine

/-- The regions that a TILE activation takes in: the region, its paddock's regions, and those that hold its lent tiles (R647). -/
def State.actGroup (s : State) (r : Nat) : List Nat :=
  let p := s.owner r
  if p = 0 then [r] else ((s.memberTiles p).map regionOf).foldl setIns (s.paddock p).regions

/-- One reading of the table of R649: may job `a` not overlap with job `b`? -/
def State.conflict1 (s : State) (a b : Job) : Bool :=
  let same := a.target == b.target
  let comp := b.w2 % 16
  match a.activity with
  | 1 | 2 => ((b.activity == 1 || b.activity == 2) && same) || (b.activity == 7 && comp == 3 && same)
  | 3 => (b.activity == 3 && same) || (b.activity == 7 && comp == 4 && same)
  | 4 | 5 => ((b.activity == 4 || b.activity == 5) && brickOfRegion a.target == brickOfRegion b.target) ||
             (b.activity == 7 && b.tkind == 1 && (s.actGroup b.target).contains a.target)
  | 6 => b.activity == 6 || b.activity == 7 || b.activity == 8 || b.activity == 9
  | 7 => b.activity == 7 || b.activity == 6
  | 8 => b.activity == 8 || b.activity == 6 || b.activity == 9
  | 9 => b.activity == 9 || b.activity == 6 || b.activity == 8
  | _ => false
/-- The relation is symmetric. -/
def State.conflicts (s : State) (a b : Job) : Bool := s.conflict1 a b || s.conflict1 b a

/-- Maintenance jobs that are not terminal: outside the deferral queue, and in it in request order. -/
def State.maintActive (s : State) : List (Nat × Job) :=
  s.host.jobs.filter fun e => e.2.live && e.2.kind == JobKind.maintenance && !e.2.terminal && e.2.state != JobState.deferred
/-- Insertion in order of request. -/
def insOrder (x : Nat × Job) : List (Nat × Job) → List (Nat × Job)
  | [] => [x]
  | y :: t => if x.2.order < y.2.order then x :: y :: t else y :: insOrder x t
def State.maintQueue (s : State) : List (Nat × Job) :=
  (s.host.jobs.filter fun e => e.2.live && e.2.kind == JobKind.maintenance && e.2.state == JobState.deferred).foldl (fun l e => insOrder e l) []

/-- The steps of a STACK_TEST: the pseudo-channels of its mask under the backgrounds of its mask (R648). -/
def Job.testList (J : Job) : List (Nat × Nat) :=
  ((upto 0 64).filter (bit J.w2)).flatMap fun p => ((upto 0 8).filter (bit J.w3)).map fun b => (p, b)
/-- What the next step of a job sets going: a memory test step, a retraining, the reset and retest of a region (R608, R693), the
staging of a bank (R643), the restart of the standby pair from another bank (R646). -/
def State.stepStart (s : State) (j : Nat) : State :=
  let J := s.job j
  let k := J.target
  match J.activity with
  | 1 => match J.testList[J.step]? with
    | some (p, b) =>
      let K := s.stack k
      if K.working && !K.retired.contains p && K.migrating != some p then s.startTest k p b (s.host.frames.any fun e => e.1 % 20 == k) else s
    | none => s
  | 3 => s.lampRetrain k (bit J.w2 0)
  | 4 =>
    if J.step = 0 then
      let s := ({ s with org := { s.org with retest := setIns s.org.retest k } }).resetRegion k
      let s := (regionTiles k).foldl (fun s t => s.modTile t fun T => T.setField 0xA08 0 1 1) s
      if (s.region k).power == .off || (s.region k).power == .nap then s.wantWake k else s
    else s
  | 6 =>
    -- the bank that staging writes is marked invalid before its first write (R643)
    if J.step = 0 then s.modFold fun F => let b := if s.bankUsed 0 then 1 else 0; F.setBank b { F.bank b with valid := false } else s
  | 7 =>
    if J.w2 % 16 = 1 ∧ J.step = 0 then
      s.modFold fun F => match F.activePair with
        | some b => if (F.pair (!b)).st = .standby then F.setPair (!b) { F.pair (!b) with st := .held } else F
        | none => F
    else s
  | _ => s
/-- A maintenance job starts running, with its first step. -/
def State.maintStart (s : State) (j : Nat) : State := (s.jobTo j .running).stepStart j

/-- Entries leave the deferral queue once nothing outside it and no entry ahead of them conflicts (R650); a held one
waits. -/
def State.releaseDeferred (s : State) : State :=
  (s.maintQueue.foldl (fun (acc : State × List Job) e =>
    let (s, ahead) := acc
    if e.2.holdHost || (s.maintActive.any fun a => s.conflicts a.2 e.2) || (ahead.any fun a => s.conflicts a e.2) then (s, ahead ++ [e.2])
    else (s.maintStart e.1, ahead)) (s, [])).1

/-- A maintenance job ends: event 0xA008, with 0xA009 if it FAILED, and entries behind it are reconsidered (R650, R652). -/
def State.maintEnd (s : State) (j : Nat) (st : JobState) (status : Nat) : State :=
  let J := s.job j
  let began := J.state != .deferred
  if J.terminal then s
  else
    -- the tiles of a retest leave it without DETECT_ONLY and zero-filled (R610)
    let s := if began && J.activity == 4 && s.org.retest.contains J.target then
        let s := (regionTiles J.target).foldl (fun s t =>
          if s.start.tested.contains t then s else (s.clearTile t).modTile t fun T => T.setField 0xA08 0 1 0) s
        { s with
          org := { s.org with retest := setDel s.org.retest J.target }
          start := { s.start with tested := s.start.tested.filter fun t => regionOf t != J.target } }
      else s
    -- a standby whose activation is given up restarts from its former bank (R646)
    let s := if began && J.activity == 7 && J.w2 % 16 == 1 && decide (J.step < 5) then
        s.modFold fun F => match F.activePair with
          | some b => if (F.pair (!b)).st = .held then F.setPair (!b) { F.pair (!b) with st := .standby } else F
          | none => F
      else s
    let s := if began && J.activity == 1 then s.stopTest J.target else s
    let s := s.endJob j st status
    let rec_ : EventRec := { code := 0xA008, job := j, unit := J.target, detail := [J.activity, J.target, j, jobCode st] }
    let s := s.raise rec_
    let s := if st = .failed then s.raise { rec_ with code := 0xA009 } else s
    s.releaseDeferred

end Sys2Proof.Machine
end

