-- ==== Sys2Proof/Machine/JobCmd.lean ====
section
/-! DEFINITION. Commands of images and jobs, the transfers of COPY, host-memory completions, and the events that move jobs:
starts, pre-emption points, saves, restores, slices, the end of CLEARING (R423-R435, R491-R500, R504). -/
namespace Sys2Proof.Machine

/-! ### HBM words written by engines (R450, R451) -/

/-- Bytes stored in HBM: a whole word takes the write's mark and new check bits; a word written in part keeps a mark it had. -/
def State.hbmStore (s : State) (key : Nat) (bs : List Byte) (poison : Bool) : State :=
  let n := bs.length
  let ws := if n = 0 then [] else upto (key / 32) ((key + n - 1) / 32 + 1 - key / 32)
  let s := s.store key bs
  ws.foldl (fun s w =>
    let whole := decide (key ≤ 32 * w) && decide (32 * w + 32 ≤ key + n)
    let s := if whole then (s.mark (32 * w) poison).modStack (w / 2 ^ 31) fun K => { K with upset := tput K.upset (w % 2 ^ 31) 0 } else if poison then s.mark (32 * w) true else s
    s) s

/-! ### COPY (R492) -/

/-- Posted writes of at most 512 bytes; a word with a mark travels alone, with EP set (R471, R504). -/
def State.hostWrites (s : State) (port a : Nat) (bs : List Byte) (bad : Nat → Bool) : State :=
  if (upto 0 (cdiv bs.length 32)).any bad then
    (upto 0 (cdiv bs.length 32)).foldl (fun s i => s.emit (.hostWrite port (a + 32 * i) ((bs.drop (32 * i)).take 32) (bad i))) s
  else (upto 0 (cdiv bs.length 512)).foldl (fun s i => s.emit (.hostWrite port (a + 512 * i) ((bs.drop (512 * i)).take 512) false)) s

/-- A read of host memory is sent, waiting for its completion under a fresh tag. -/
def State.hostRead (s : State) (p : Nat) (r : HostRead) : State :=
  let P := s.port p
  let used := P.reads.map (·.tag)
  let tag := freeTxn used P.nextTag 4096
  let s := s.setPort p { P with reads := P.reads ++ [{ r with tag := tag }], nextTag := (tag + 1) % 4096 }
  s.emit (.hostRead p tag r.addr r.n)

/-- Region number of the host interface's own walks. -/
def hostWalker : Nat := 255

/-- One piece of a COPY: up to a page of either side; it ends the job, moves bytes, or waits. -/
def State.copyPiece (s : State) (j : Nat) : Bool × State :=
  let J := s.job j
  let port := portOfFn J.fn
  if J.state ≠ .running ∨ J.copyRead then (false, s)
  else if J.copyDone ≥ J.copyLen then (false, if J.copyBad then s.endJob j .failed 0x21 else s.endJob j .done 0)
  else
    let h := J.copyHost + J.copyDone
    let d := J.copyDev + J.copyDone
    let n := min (min (4096 - h % 4096) (4096 - d % 4096)) (J.copyLen - J.copyDone)
    let place : Option Nat := if !J.copySva then some h else match J.copyPage with
      | some (v, o) => if v = h / 4096 * 4096 then some (o + h % 4096) else none
      | none => none
    match place with
    | none => (false, s.wantWalk hostWalker J.ctx h J.copyOut)
    | some ha =>
      match s.ctxPlace J.ctx d (!J.copyOut) with
      | .error _ => (false, s.endJob j .failed 0x20)
      | .ok (tg, da) =>
        if J.copyOut && tg == 0 then
          let key := hbmAddrKey da
          let bad := fun i => s.hbmBad (key + 32 * i) 1
          let s' := s.hostWrites port ha (s.bytes key n) bad
          (true, s'.modJob j fun J => { J with copyDone := J.copyDone + n, copyBad := J.copyBad || (upto 0 (cdiv n 32)).any bad })
        else
          -- the bytes come from host memory: read them, and go on when they arrive
          let from_ := if J.copyOut then da else ha
          (false, (s.hostRead port { job := j, addr := from_, n := n }).modJob j fun J => { J with copyRead := true })

/-- Pieces are moved until the job waits or ends. -/
def State.copyRun (s : State) (j : Nat) : Nat → State
  | 0 => s
  | k + 1 => let (go, s) := s.copyPiece j; if go then s.copyRun j k else s
/-- A COPY goes on from where it stands. -/
def State.copyGo (s : State) (j : Nat) : State :=
  let J := s.job j
  s.copyRun j (2 * (J.copyLen - J.copyDone) / 4096 + 4)

/-- Bytes that a COPY waited for have arrived. -/
def State.copyData (s : State) (j : Nat) (bs : List Byte) (poison : Bool) : State :=
  let J := s.job j
  let n := bs.length
  let s := s.modJob j fun J => { J with copyRead := false }
  let d := J.copyDev + J.copyDone
  if J.state = .cancelling then s.endJob j .cancelled 0
  else
    let s := if J.copyOut then
        let ha := if J.copySva then (J.copyPage.getD (0, 0)).2 + (J.copyHost + J.copyDone) % 4096 else J.copyHost + J.copyDone
        s.hostWrites (portOfFn J.fn) ha bs (fun _ => poison)
      else match s.ctxPlace J.ctx d true with
        | .ok (0, da) => s.hbmStore (hbmAddrKey da) bs poison
        | .ok (_, da) => s.hostWrites (portOfFn J.fn) da bs (fun _ => poison)
        | .error _ => s
    let s := s.modJob j fun J => { J with copyDone := J.copyDone + n }
    if J.state = .suspending then (s.jobTo j .suspended).answerOwed j (fun o => o.kind == 1) 0 else s.copyGo j

/-- A new job handle (R494). -/
def State.newHandle (s : State) : Nat := (((upto s.host.nextJob 65536).map fun h => if h > 0xFFFFFFFF then h - 0xFFFFFFFF else h).find? fun h => !(s.job h).live).getD s.host.nextJob
/-- A job is created under a new handle. -/
def State.newJob (s : State) (J : Job) : Nat × State :=
  let h := s.newHandle
  let s := s.setJob h { J with live := true, order := s.host.orderNo }
  (h, { s with host := { s.host with nextJob := if h = 0xFFFFFFFF then 1 else h + 1, orderNo := s.host.orderNo + 1 } })

def execCopy (fn : FnIx) (q : BitVec 16) (c : SqEntry) (s : State) : Res :=
  let n := c.ctx.toNat
  let sva := bit c.w3.toNat 1
  let h := s.newHandle
  .next (s.perform fn q.toNat 0x24 c false
    [(0x11, sqStray c [maskAll, maskAll, msk 0 2, maskAll] || c.w4 == 0 || decide (c.w4.toNat > 2 ^ 40)),
     (0x13, s.ctxMine fn n && sva && !(s.mmuCtx n).sva), (0x15, !s.ctxMine fn n)]
    (fun o s =>
      let (h, s) := s.newJob { kind := .copy, fn := fn, ctx := n, state := .queued, owed := [o], copyHost := c.w1.toNat, copyDev := c.w2.toNat,
                               copyLen := c.w4.toNat, copyOut := bit c.w3.toNat 0, copySva := sva }
      ({ status := 1, job := h, isJob := true }, s.jobTo h .running))
    fun _ s => s.copyGo h)

/-! ### Images (R238-R240, R493) -/

/-- The header and segment table of an image, or the status that refuses it. -/
def State.parseImage (s : State) (c va : Nat) (host : HostMem) : Except Nat Image :=
  match s.ctxRead c host (pagePieces va 64) with
  | .error e => .error e
  | .ok hb =>
    let h := ofBytes hb
    let at_ := fun (off n : Nat) => fld h (8 * off) (8 * n)
    let segN := at_ 0x16 2
    let bytes := at_ 0x18 8
    let flags := at_ 8 4
    if at_ 0 4 ≠ 0x4D495856 ∨ at_ 4 1 ≠ 0 ∨ at_ 5 1 ≠ 2 ∨ at_ 7 1 ≠ 2 ∨ at_ 6 1 > 2 then .error 0x10
    else if flags ≥ 4 ∨ at_ 0x13 1 ≠ 0 ∨ at_ 0x20 32 ≠ 0 ∨ at_ 0xC 4 % 4 ≠ 0 ∨ segN = 0 ∨ segN > 4096 then .error 0x11
    else match s.ctxRead c host (pagePieces (va + 64) (32 * segN)) with
      | .error e => .error e
      | .ok tb =>
        let seg := fun i =>
          let e := ofBytes ((tb.drop (32 * i)).take 32)
          let f := fun (off n : Nat) => fld e (8 * off) (8 * n)
          ([f 0 8, f 8 4, f 0xC 4, f 0x10 4, f 0x14 1, f 0x16 2, f 0x18 2], f 0x15 1 != 0 || f 0x1A 6 != 0)
        let segs := (upto 0 segN).map seg
        let bad := segs.any fun e =>
          let g := fun i => e.1.getD i 0
          e.2 || decide (g 0 + g 1 > bytes) || decide (g 2 < g 1) || decide (g 4 > 3) || decide (g 3 + g 2 > (if g 4 = 3 then 0x800000 else 0x20000))
        let core := at_ 0x12 1
        let faultCore := bit flags 1
        if bad ∨ (faultCore ∧ (at_ 0x10 2 ≥ at_ 0x14 2 ∨ core > 1)) then .error 0x11
        else .ok {
          live := true, lvlMajor := at_ 7 1, lvlMinor := at_ 6 1, supervisor := bit flags 0, faultCore := faultCore, evec := at_ 0xC 4
          handlerRank := at_ 0x10 2, handlerCore := core, minMembers := at_ 0x14 2, segments := segs.map (·.1), base := va, bytes := bytes }

def State.freeImage (s : State) (c : Nat) : Option Nat := (upto 0 256).find? fun i => !(tget (s.ctx c).images i).live

def execLoadImage (fn : FnIx) (q : BitVec 16) (c : SqEntry) (host : HostMem) (s : State) : Res :=
  let n := c.ctx.toNat
  let img := if s.ctxMine fn n then s.parseImage n c.w1.toNat host else .error 0
  let err := match img with | .error e => e | .ok _ => 0
  .next (s.perform fn q.toNat 0x28 c false
    [(0x10, err == 0x10), (0x11, sqStray c [maskAll] || err == 0x11), (0x15, !s.ctxMine fn n),
     (0x12, s.ctxMine fn n && (s.freeImage n).isNone)]
    fun _ s => match img with
      | .error e => ({ status := e }, s)
      | .ok im =>
        let i := (s.freeImage n).getD 0
        ({ r0 := i }, s.setCtx n { s.ctx n with images := tput (s.ctx n).images i im }))

def execUnloadImage (fn : FnIx) (q : BitVec 16) (c : SqEntry) (s : State) : Res :=
  let n := c.ctx.toNat
  let i := wf c.w1 0 8
  .next (s.perform fn q.toNat 0x29 c false
    [(0x11, sqStray c [msk 0 8]), (0x15, !s.ctxMine fn n || !(tget (s.ctx n).images i).live),
     (0x14, s.host.jobs.any fun e => e.2.live && e.2.kind == JobKind.compute && e.2.ctx == n && e.2.image == i && e.2.state == JobState.queued)]
    fun _ s => ({}, s.setCtx n { s.ctx n with images := tput (s.ctx n).images i {} }))

/-! ### Job requests (R493, R498, R499) -/

def execSubmit (fn : FnIx) (q : BitVec 16) (c : SqEntry) (s : State) : Res :=
  let n := c.ctx.toNat
  let p := wf c.w1 0 16
  let i := wf c.w1 16 8
  let tbl := bit c.w1.toNat 24
  let img := tget (s.ctx n).images i
  let P := s.paddock p
  let active := (s.host.jobs.filter fun e => e.2.live && e.2.fn == fn.val && !e.2.terminal).length
  let mkJob : Job := {
    kind := .compute, fn := fn, ctx := n, paddock := p, image := i, img := img, entry := c.w2.toNat, entryTable := tbl, arg := c.w3.toNat, state := .queued }
  let withArea : Option State := if P.slice = 0 then some s else ((s.newJob mkJob).2.takeArea (s.newJob mkJob).1 p)
  .next (s.perform fn q.toNat 0x30 c false
    [(0x11, sqStray c [msk 0 25, maskAll, maskAll] || (!tbl && (decide (c.w2.toNat ≥ 2 ^ 17) || c.w2.toNat % 4 != 0))),
     (0x15, !s.padMine fn n p || !img.live), (0x14, P.releasing),
     (0x12, decide ((s.members p).length < img.minMembers) || decide (active ≥ 4096) || withArea.isNone)]
    fun o s =>
      let (h, s) := s.newJob { mkJob with owed := [o] }
      let s := if P.slice = 0 then s else (s.takeArea h p).getD s
      let s := s.modPaddock p fun P => { P with jobs := P.jobs ++ [h] }
      ({ status := 1, job := h, isJob := true }, s))

/-- The answer of a request to a job, by the table of R498: kind 1 SUSPEND, 2 RESUME, 3 CANCEL. -/
def State.jobAnswer (s : State) (j kind : Nat) (save : Bool) : Nat :=
  let J := s.job j
  let comp := J.kind == JobKind.compute
  let noRoom := comp && save && (s.takeArea j J.paddock).isNone
  match kind, J.state with
  | 1, .queued | 1, .deferred => 0
  | 1, .running | 1, .suspending => if noRoom then 0x12 else 1
  | 1, .suspended => if comp && save && !J.saved then (if noRoom then 0x12 else 1) else 0
  | 1, .resuming => if noRoom then 0x12 else 1
  | 2, .queued | 2, .deferred | 2, .running | 2, .resuming => 0
  | 2, .suspending => 1
  | 2, .suspended => if J.holdGeo || (J.saved && !s.restorable j) then 0x14 else 1
  | 3, .queued | 3, .deferred => 0
  | 3, .running | 3, .suspending | 3, .resuming | 3, .cancelling => 1
  | 3, .suspended => if J.saved || !comp then 0 else 1
  | 3, _ => 0
  | _, _ => 0x14

/-- What an accepted request does to a compute job. -/
def State.jobActCompute (s : State) (j kind : Nat) (save : Bool) : State :=
  let J := s.job j
  match kind with
  | 1 =>
    let s := if save then (s.takeArea j J.paddock).getD s else s
    let s := s.modJob j fun J => { J with saveAsked := J.saveAsked || (save && !J.saved && J.state != .queued) }
    match J.state with
    | .suspended =>
      let s := s.modJob j fun J => { J with holdHost := true }
      if save && !J.saved && !(s.paddock J.paddock).saving then s.startSave J.paddock else s
    | .suspending => s.modJob j fun J => { J with holdHost := true, resumeNext := false }
    | .running =>
      if J.descheduled then (s.holdJob j fun J => { J with holdHost := true, saveAsked := false }).answerOwed j (fun o => o.kind == 1) 0
      else s.holdJob j fun J => { J with holdHost := true }
    | _ => s.holdJob j fun J => { J with holdHost := true }
  | 2 => match J.state with
    | .suspending => s.modJob j fun J => { J with resumeNext := true }
    | .suspended => (s.modJob j fun J => { J with holdHost := false }).tryResume j
    | _ => s.modJob j fun J => { J with holdHost := false }
  | _ => match J.state with
    | .cancelling | .done | .failed | .cancelled => s
    | _ => ((s.cancelJob j).settle J.paddock)

/-- What an accepted request does to a COPY or a maintenance job; those act at a piece or step boundary (R492, R651). -/
def State.jobActOther (s : State) (j kind : Nat) : State :=
  let J := s.job j
  let maint := J.kind == JobKind.maintenance
  let end_ := fun (s : State) => if maint then s.maintEnd j .cancelled 0 else s.endJob j .cancelled 0
  match kind, J.state with
  | 1, .running =>
    let s := (s.modJob j fun J => { J with holdHost := true }).jobTo j .suspending
    if maint || J.copyRead then s else (s.jobTo j .suspended).answerOwed j (fun o => o.kind == 1) 0
  | 1, _ => s.modJob j fun J => { J with holdHost := true, resumeNext := false }
  | 2, .suspending => s.modJob j fun J => { J with resumeNext := true }
  | 2, .suspended =>
    let s := ((s.modJob j fun J => { J with holdHost := false }).jobTo j .running).answerOwed j (fun o => o.kind == 2) 0
    if maint then s.stepStart j else s.copyGo j
  | 2, .deferred => (s.modJob j fun J => { J with holdHost := false }).releaseDeferred
  | 2, _ => s.modJob j fun J => { J with holdHost := false }
  | _, .running | _, .suspending => if maint || J.copyRead then s.jobTo j .cancelling else end_ s
  | _, .queued | _, .deferred | _, .suspended => end_ s
  | _, _ => s

def State.jobAct (s : State) (j kind : Nat) (save : Bool) : State :=
  if (s.job j).kind = JobKind.compute then s.jobActCompute j kind save else s.jobActOther j kind

/-- One request of a queue's command. The request's own completion is owed where it is ACCEPTED. -/
def State.jobRequest (s : State) (fn q op : Nat) (c : SqEntry) (kind : Nat) : State :=
  let j := wf c.w1 0 32
  let save := kind == 1 && bit c.w2.toNat 0
  let a := s.jobAnswer j kind save
  s.perform fn q op c false
    [(0x11, sqStray c [msk 0 32, if kind = 1 then 1 else 0]), (0x15, !s.jobMine fn j), (0x14, a == 0x14), (0x12, a == 0x12)]
    (fun o s =>
      let s := if a = 1 then s.modJob j fun J => { J with owed := J.owed ++ [{ o with kind := kind, save := save }] } else s
      -- an OK request acts at once and its answer carries the state that follows
      if a = 1 then ({ status := 1, job := j }, s) else ({ status := a, job := j }, s.jobAct j kind save))
    fun _ s => (s.jobAct j kind save).resetSettle

def execSuspend (fn : FnIx) (q : BitVec 16) (c : SqEntry) (s : State) : Res := .next (s.jobRequest fn q.toNat 0x31 c 1)
def execResume (fn : FnIx) (q : BitVec 16) (c : SqEntry) (s : State) : Res := .next (s.jobRequest fn q.toNat 0x32 c 2)
def execCancel (fn : FnIx) (q : BitVec 16) (c : SqEntry) (s : State) : Res := .next (s.jobRequest fn q.toNat 0x33 c 3)

/-- RESULT0 of QUERY. -/
def Job.queryWord (J : Job) : Nat :=
  jobCode J.state + atBit J.holds 4 4 + atBit (b01 J.saved) 8 1 + atBit (b01 (J.kind == .maintenance)) 9 1 + atBit J.status 16 8 + atBit J.paddock 32 16

def execQuery (fn : FnIx) (q : BitVec 16) (c : SqEntry) (s : State) : Res :=
  let j := wf c.w1 0 32
  .next (s.perform fn q.toNat 0x34 c false [(0x11, sqStray c [msk 0 32]), (0x15, !s.jobMine fn j)]
    fun _ s =>
      let J := s.job j
      let ran := J.runNs + (match J.runFrom with | some f => s.time - f | none => 0)
      ({ r0 := J.queryWord, r1 := ran / 1000, job := j }, s))

/-- A request through the JOB block (R499): its answer appears in JOB_CTLSTAT; a write with more than one of SUSPEND,
RESUME and CANCEL set is ignored, which is no row of its own. -/
def State.jobCtl (s : State) (fn kind : Nat) (save : Bool) : State :=
  let j := (s.func fn).jobSel
  if (s.func fn).resetting then s
  else if !s.jobMine fn j then s.modFunc fn fun F => { F with ctlStat := 0x15 }
  else
    let a := s.jobAnswer j kind save
    let s := s.modFunc fn fun F => { F with ctlStat := a }
    if a = 0x14 ∨ a = 0x12 then s else (s.jobAct j kind save).resetSettle

def execJobCtlSuspend (fn : FnIx) (save : Bool) (s : State) : Res := .next (s.jobCtl fn 1 save)
def execJobCtlResume (fn : FnIx) (s : State) : Res := .next (s.jobCtl fn 2 false)
def execJobCtlCancel (fn : FnIx) (s : State) : Res := .next (s.jobCtl fn 3 false)

/-! ### Starting jobs (R241, R493, R496, R497) -/

/-- Jobs of a paddock that may take a turn: held ones do not; with SLICE, the first sixteen that are not terminal (R429). -/
def State.turnJobs (s : State) (p : Nat) : List Nat :=
  let P := s.paddock p
  let live := P.jobs.filter fun j => !(s.job j).terminal
  let rot := if P.slice = 0 then live else live.take 16
  rot.filter fun j =>
    let J := s.job j
    J.holds == 0 && (J.state == .queued || (J.state == .resuming && J.saved) || (J.state == .running && J.descheduled))

/-- The job whose turn it is on a free paddock: in order of submission; with SLICE, the next after the one that ran last. -/
def State.nextJob (s : State) (p : Nat) : Option Nat :=
  let js := s.turnJobs p
  let last := js.filter fun j => (s.job j).descheduled
  match last.head? with
  | some l => ((js.filter fun j => decide ((s.job j).order > (s.job l).order)) ++ js).head?
  | none => js.head?

/-- One core of a member tile at the start of a job (R241). -/
def startCore (img : Image) (arg entry : Nat) (c : Core) : Core :=
  { c.wiped with
    running := true
    g := tput [] 1 (BitVec.ofNat 64 arg)
    p := tput [] 0 (BitVec.allOnes 64)
    pc := BitVec.ofNat 64 (0xFF00000000000000 + entry)
    evec := if img.supervisor then BitVec.ofNat 64 (0xFF00000000000000 + img.evec) else 0
    privWritten := [], privUpset := [] }

/-- A segment put into a destination: contents, then zeros. -/
def State.putSegment (s : State) (t : Nat) (seg : List Nat) (bs : List Byte) : State :=
  let g := fun i => seg.getD i 0
  let full := bs ++ List.replicate (g 2 - g 1) 0
  match g 4 with
  | 3 => s.store (spdKey t (g 3)) full
  | 2 => (s.store (privKey t 0 (g 3)) full).store (privKey t 1 (g 3)) full
  | k => s.store (privKey t k (g 3)) full

/-- A job starts on a member tile: private memory is zero but for its segments, and both cores begin (R239, R241). -/
def State.startTile (s : State) (t rank members : Nat) (J : Job) (entry : Nat) (segs : List (List Nat × List Byte)) : State :=
  let s := s.zeroPriv t
  let s := segs.foldl (fun s e =>
    let g := fun i => e.1.getD i 0
    let last := if g 6 = 0xFFFF then members - 1 else g 6
    if g 5 ≤ rank ∧ rank ≤ last then s.putSegment t e.1 e.2 else s) s
  -- scratchpad words that segments cover carry no mark (R179)
  let s := segs.foldl (fun s e => if e.1.getD 4 0 = 3 then { s with marks := s.marks.filter fun k => !(decide (spdKey t (e.1.getD 3 0) ≤ k) && decide (k + 32 ≤ spdKey t (e.1.getD 3 0) + e.1.getD 2 0)) } else s) s
  s.modTile t fun T => { T with
    core0 := startCore J.img J.arg entry T.core0, core1 := startCore J.img J.arg entry T.core1, held := [], notes := [],
    net := { T.net with drvBusy := false } }

/-- The contents of every segment, or the status of a read that failed. -/
def State.readSegments (s : State) (J : Job) (host : HostMem) : List (List Nat) → Except Nat (List (List Nat × List Byte))
  | [] => .ok []
  | g :: t => match s.ctxRead J.ctx host (pagePieces (J.img.base + g.getD 0 0) (g.getD 1 0)) with
    | .error e => .error e
    | .ok bs => match s.readSegments J host t with
      | .error e => .error e
      | .ok r => .ok ((g, bs) :: r)

/-- A queued job begins on its free paddock. With SLICE, tiles that held another job are zero-filled first (R429). -/
def State.startJob (s : State) (j : Nat) (host : HostMem) : State :=
  let J := s.job j
  let p := J.paddock
  let ts := s.memberTiles p
  if ts.length < J.img.minMembers then (s.endJob j .failed 0x12).jobEvent 0x9104 j [0x12]
  else
    let entries : Except Nat (List Nat) := if !J.entryTable then .ok (ts.map fun _ => J.entry)
      else match s.ctxRead J.ctx host (pagePieces J.entry (4 * ts.length)) with
        | .error e => .error e
        | .ok bs => .ok ((upto 0 ts.length).map fun i => ofBytes ((bs.drop (4 * i)).take 4) % 2 ^ 17)
    match entries, s.readSegments J host J.img.segments with
    | .error e, _ | _, .error e => s.endJob j .failed e
    | .ok es, .ok segs =>
      let sliced := decide ((s.paddock p).slice ≠ 0)
      let s := if sliced then ts.foldl (fun s t => ((s.zeroKeys (spdKey t 0) (2 ^ 23)).modTile t fun T => { T.resetState with spd := { T.spd with cb := [], upset := [], checkBack := [] } })) s else s
      let s := (ts.zip (upto 0 ts.length)).foldl (fun s e => s.startTile e.1 e.2 ts.length J (es.getD e.2 0) segs) s
      let s := s.modPaddock p fun P => { P with resident := some j }
      (s.jobTo j .running).modJob j fun J => { J with started := true, exits := [], descheduled := false }

/-- A paddock's regions are woken for its job: with all of them awake and filled, idle ones have their clock again (R558, R559). -/
def State.awake (s : State) (p : Nat) : Bool × State :=
  let ts := s.memberTiles p
  let rs := (ts.map regionOf).foldl setIns []
  let asleep := rs.filter fun r => let R := s.region r; (R.power == .nap || R.power == .off || R.tripped) && !s.org.dead.contains r
  if asleep.isEmpty ∧ !(ts.any s.org.toFill.contains) then
    (true, rs.foldl (fun s r => s.modRegion r fun R => if R.power == .idle then { R with power := .on } else R) s)
  else (false, asleep.foldl (fun s r => s.wantWake r) s)

/-- JOB_START: the job whose turn it is starts, or its restore begins; a job suspended in place is saved first, where HBM
has room (R428, R429, R432, R496, R497). -/
def execJobStart (job : BitVec 32) (host : HostMem) (s : State) : Res :=
  let j := job.toNat
  let J := s.job j
  let p := J.paddock
  let P := s.paddock p
  if !J.live || J.kind != JobKind.compute || P.releasing || !s.foldUp || s.nextJob p != some j then .next s
  else match P.resident with
    | some r =>
      if (s.job r).state = .suspended ∧ P.frozen ∧ !P.saving ∧ !P.restoring then .next (s.startSave p) else .next s
    | none =>
      let (ready, s) := s.awake p
      if !s.padFree p || !ready then .next s
      else if J.state = .queued then .next ((s.startJob j host).resetSettle)
      else .next (s.startRestore j p)

/-! ### Pre-emption, saves, restores, slices (R424-R432) -/

/-- SLICE_END: the resident job of a time-sliced paddock is pre-empted, if another of the rotation waits (R429). -/
def execSliceEnd (p : BitVec 16) (s : State) : Res :=
  let p := p.toNat
  let P := s.paddock p
  match P.resident with
  | none => .next s
  | some j =>
    if !s.foldUp ∨ P.slice = 0 ∨ (s.job j).state ≠ .running ∨ P.preempt ∨ P.after.isSome ∨ (s.turnJobs p).isEmpty then .next s
    else .next ((s.modPaddock p fun P => { P with after := some .slice }).beginPreempt p)

/-- SAVE_COMPLETE: the frozen paddock's state is in its save area (R428). -/
def execSaveComplete (p : BitVec 16) (s : State) : Res :=
  if (s.paddock p.toNat).saving then .next ((s.onSaved p.toNat).resetSettle) else .next s

/-- SAVE_AREA_ROOM: a save that lacked room starts once HBM has it (R432). -/
def execSaveAreaRoom (p : BitVec 16) (s : State) : Res :=
  let P := s.paddock p.toNat
  match P.resident with
  | none => .next s
  | some j =>
    if P.frozen && !P.saving && (s.job j).state == .suspended && !(s.turnJobs p.toNat).isEmpty then .next (s.startSave p.toNat) else .next s

/-- RESTORE_COMPLETE: the member tiles are released. Errors met in the save area: `control` in a section other than the
scratchpads, and the scratchpad words (rank, word) that come back poisoned (R430, R435). -/
def execRestoreComplete (p : BitVec 16) (control : Bool) (words : List (Nat × Nat)) (s : State) : Res :=
  let p := p.toNat
  let P := s.paddock p
  match P.resident with
  | none => .next s
  | some j =>
    let (ready, s) := s.awake p
    if !P.restoring || !ready then .next s
    else
      let was := (s.job j).saved
      if was && control then .next (((s.endJob j .failed 0x21).jobEvent 0x4005 j []).releaseIfReady p).resetSettle
      else if was && !s.restorable j then .next (((s.endJob j .failed 0x15).jobEvent 0x9104 j [0x15]).releaseIfReady p).resetSettle
      else
        let s := s.onRestored j p
        let ts := s.memberTiles p
        let s := if was then words.foldl (fun s e => match ts[e.1]? with
            | some t => (s.mark (spdKey t (32 * (e.2 % 2 ^ 18))) true).tileEvent t 0x4007 0xFFFF [e.2]
            | none => s) s
          else s
        .next s.resetSettle

/-! ### The end of CLEARING (R39, R622, R675, R676, R725) -/

/-- Tiles of a region, or a lent tile, that are still to be zero-filled. -/
def State.stillFilling (s : State) (ts : List Nat) : Bool := ts.any s.org.toFill.contains

/-- CLEARING_END: a region, or a tile cleared singly, whose tiles are all zero-filled leaves CLEARING. -/
def execClearingEnd (region : Option RegionIx) (tile : Option TileIx) (s : State) : Res :=
  let s := match region with
    | some r =>
      if s.org.clearing.contains r && !s.stillFilling (s.clearedTiles r) then
        let s := { s with org := { s.org with clearing := setDel s.org.clearing r } }
        (s.geoUpdate (s.idsIn [r.val])).bindWaiting
      else s
    | none => s
  let s := match tile with
    | some t =>
      if s.org.clearingTiles.contains t && !s.stillFilling [t.val] then
        let s := { s with org := { s.org with clearingTiles := setDel s.org.clearingTiles t } }
        match s.lidOf t with
        | some l => s.geoUpdate [l]
        | none => s
      else s
    | none => s
  let pads := (s.host.paddocks.filter (·.2.live)).map (·.1)
  .next (pads.foldl (fun s p => s.settle p) s).resetSettle

/-! ### Completions from host memory (R504) -/

/-- An outstanding read ends: its words go to the packet's sender or to the COPY; with `bad`, every word marked. -/
def State.endHostRead (s : State) (p : Nat) (r : HostRead) (bs : List Byte) (bad : Bool) : State :=
  let s := s.setPort p { s.port p with reads := (s.port p).reads.filter fun x => x.tag != r.tag }
  let bs := (bs ++ List.replicate r.n 0).take r.n
  match r.pkt with
  | some k =>
    let ws := (upto 0 k.words).map fun i => wordOf ((bs.drop (32 * i)).take 32)
    s.answer k .memData (hostNode p) 0 ws (if bad then 2 ^ k.words - 1 else 0)
  | none => if (s.job r.job).live && (s.job r.job).copyRead then s.copyData r.job bs bad else s

/-- The function a read was made for. -/
def State.readFn (s : State) (p : Nat) (r : HostRead) : Nat := match r.pkt with | some k => (s.ctx k.context).fn | none => if (s.job r.job).live then (s.job r.job).fn else p

/-- HOST_COMPLETION_RECEIVED: status 0 success, else UR or CA; `ep` poisoned. -/
def execHostCompletionReceived (p : HostIx) (tag : BitVec 14) (ok ep : Bool) (data : List (BitVec 8)) (s : State) : Res :=
  match (s.port p).reads.find? fun r => r.tag == tag.toNat with
  | none => .next s
  | some r =>
    let fn := s.readFn p r
    let s := if !ok then s.hostEvent 0x6002 fn [r.addr]
      else if ep then (s.hostEvent 0x6003 fn [r.addr]).modFunc fn fun F => { F with aer := F.aer ||| 1 } else s
    .next (s.endHostRead p r data (!ok || ep))

/-- COMPLETION_TIMEOUT. -/
def execCompletionTimeout (p : HostIx) (tag : BitVec 14) (s : State) : Res :=
  match (s.port p).reads.find? fun r => r.tag == tag.toNat with
  | none => .next s
  | some r =>
    let fn := s.readFn p r
    let s := (s.hostEvent 0x6002 fn [r.addr]).modFunc fn fun F => { F with aer := F.aer ||| 2 }
    .next (s.endHostRead p r [] true)

/-! ### FNC_ENABLE (R474) -/

end Sys2Proof.Machine
end

