-- ==== Sys2Proof/Machine/Routing.lean ====
section
/-! DEFINITION. The bulk routers: live links, the routing tables that Fufin computes, forwarding, arbitration, cut-offs and link
errors (R32, R299-R323, R380). -/
namespace Sys2Proof.Machine

/-! ### The live graph (R313) -/

/-- The link of a side of a tile works, as far as it alone goes: a mesh link with both its regions alive, or an edge port. -/
def State.linkLive (s : State) (t side : Nat) : Bool :=
  !s.org.dead.contains (regionOf t) && !s.net.failedLinks.contains (4 * t + side) &&
  match neighbour t side with
  | some u => !s.org.dead.contains (regionOf u)
  | none => (edgeNode t side).isSome

/-- The tile whose router a packet for a node leaves the mesh at, and the port code it leaves by: 4 local, or an edge port's
side. -/
def nodeExit (n : Nat) : Nat × Nat :=
  if n < 576 then (n, 4) else if n < 600 then (n - 576, 0) else if n < 624 then (tileAt 23 (n - 600), 1)
  else if n < 648 then (tileAt (n - 624) 23, 2) else (tileAt 0 (n - 648), 3)

/-- The next side of the normal route from a tile to another: x first, then y. -/
def normalSide (t d : Nat) : Nat := if tx t < tx d then 1 else if tx d < tx t then 3 else if ty t < ty d then 2 else 0
/-- The tiles of the normal route from `t` to `d`, at most `n` of them. -/
def normalPath (t d : Nat) : Nat → List Nat
  | 0 => []
  | n + 1 => if t = d then [t] else t :: (match neighbour t (normalSide t d) with | some u => normalPath u d n | none => [])
/-- The leading tiles of a route that live links join. -/
def State.livePart (s : State) (d : Nat) : List Nat → List Nat
  | [] => []
  | t :: r => t :: (if t = d || !s.linkLive t (normalSide t d) then [] else s.livePart d r)
/-- Is the whole normal route from a tile to another live? -/
def State.normalLive (s : State) (t d : Nat) : Bool := (s.livePart d (normalPath t d 47)).contains d && !s.org.dead.contains (regionOf t)

/-! ### Escape routes: up*/down* over a breadth-first tree (R313) -/

/-- Grid hops from tile (11, 11). -/
def hopsRoot (t : Nat) : Nat := (max (tx t) 11 - min (tx t) 11) + (max (ty t) 11 - min (ty t) 11)
/-- The root of the tree: the live router nearest (11, 11), the lower y and then the lower x among equals. -/
def State.treeRoot (s : State) : Option Nat :=
  (upto 0 576).foldl (fun (best : Option Nat) t =>
    if s.org.dead.contains (regionOf t) then best
    else match best with
      | none => some t
      | some b => if hopsRoot t < hopsRoot b then some t else best) none
/-- Live neighbours of a tile, by side. -/
def State.liveNbrs (s : State) (t : Nat) : List (Nat × Nat) :=
  (upto 0 4).filterMap fun d => match neighbour t d with | some u => if s.linkLive t d then some (d, u) else none | none => none
/-- Depths spread breadth-first from a frontier: each entry is a depth plus one. -/
def State.spreadDepth (s : State) : Nat → Nat → List Nat → Tab Nat → Tab Nat
  | 0, _, _, tb => tb
  | n + 1, d, front, tb =>
    let r := front.foldl (fun (acc : List Nat × Tab Nat) t =>
      (s.liveNbrs t).foldl (fun acc e => if tget acc.2 e.2 = 0 then (acc.1 ++ [e.2], tput acc.2 e.2 (d + 2)) else acc) acc) ([], tb)
    if r.1.isEmpty then r.2 else s.spreadDepth n (d + 1) r.1 r.2
/-- Depth plus one of every router in the tree. -/
def State.depths (s : State) : Tab Nat :=
  match s.treeRoot with
  | none => []
  | some r => s.spreadDepth 576 0 [r] (tput [] r 1)
/-- Is the link from `a` to `b` an up link? -/
def upLink (dep : Tab Nat) (a b : Nat) : Bool := decide (tget dep b < tget dep a) || (tget dep b == tget dep a && decide (b < a))

/-- Lengths plus one of the shortest legal routes to `d`: by down links only at 2t, any at 2t+1; spread backwards. A route
that begins with an up link goes on by any legal route, one that begins with a down link by down links only. -/
def State.spreadEscape (s : State) (dep : Tab Nat) : Nat → Nat → List Nat → Tab Nat → Tab Nat
  | 0, _, _, tb => tb
  | n + 1, k, front, tb =>
    let add := fun (acc : List Nat × Tab Nat) (key : Nat) => if tget acc.2 key = 0 then (acc.1 ++ [key], tput acc.2 key (k + 2)) else acc
    let r := front.foldl (fun (acc : List Nat × Tab Nat) key =>
      let v := key / 2
      (s.liveNbrs v).foldl (fun acc e =>
        let u := e.2
        if upLink dep u v then (if key % 2 = 1 then add acc (2 * u + 1) else acc)
        else if key % 2 = 0 then add (add acc (2 * u)) (2 * u + 1) else acc) acc) ([], tb)
    if r.1.isEmpty then r.2 else s.spreadEscape dep n (k + 1) r.1 r.2
/-- The first side of the shortest legal escape route from `t` to `d`: the first of north, east, south and west that begins one. -/
def State.escapeSide (s : State) (t d : Nat) : Option Nat :=
  let dep := s.depths
  if tget dep t = 0 ∨ tget dep d = 0 then none
  else
    let tb := s.spreadEscape dep 1200 0 [2 * d, 2 * d + 1] (tput (tput [] (2 * d) 1) (2 * d + 1) 1)
    let mine := tget tb (2 * t + 1)
    ((s.liveNbrs t).find? fun e =>
      let k := tget tb (2 * e.2 + b01 (upLink dep t e.2))
      decide (k ≠ 0) && k + 1 == mine).map (·.1)

/-! ### Table entries (R312, R313) -/

def noRoute : Nat := 0x3F
def routeEntry (detour : Bool) (esc port : Nat) : Nat := 128 + 64 * b01 detour + 8 * esc + port
/-- The entry that Fufin computes for a router and a destination node; a control table uses the escape rule throughout. -/
def State.computedRoute (s : State) (control : Bool) (t n : Nat) : Nat :=
  let (d, out) := nodeExit n
  let outLive := out == 4 || s.linkLive d out
  if n ≥ 672 ∨ s.org.dead.contains (regionOf t) ∨ s.org.dead.contains (regionOf d) ∨ !outLive then noRoute
  else if t = d then routeEntry false out out
  else match s.escapeSide t d with
    | none => noRoute
    | some e => if control then routeEntry false e e else routeEntry (!s.normalLive t d) e (normalSide t d)
/-- A router's active entry for a destination node. -/
def State.route (s : State) (t n : Nat) : Nat :=
  let R := s.router t
  match tget R.table (R.bank * 672 + n) with
  | some e => e
  | none => if s.net.routed then s.computedRoute false t n else noRoute

/-! ### Packets leaving the network -/

/-- The packet leaves what is in flight. -/
def State.landed (s : State) (p : Packet) : State := { s with net := { s.net with flight := s.net.flight.erase p } }
/-- A packet in flight changes. -/
def State.reflight (s : State) (p q : Packet) : State :=
  if s.net.flight.contains p then { s with net := { s.net with flight := s.net.flight.map fun x => if x = p then q else x } } else s.launch q
/-- The type of a request's answer; none for a packet that is itself an answer (R304). -/
def answerType : PType → Option PType
  | .write => some .writeAck
  | .read => some .readData
  | .droveData => some .droveAck
  | .notice => some .writeAck
  | .memWrite => some .memAck
  | .memRead => some .memData
  | _ => none
/-- A packet is turned away with a status by a node: a drove packet on its way to its bellwether with a report, a copy on its
way to a member with a refused acknowledgement (R305, R331). -/
def State.turnAway (s : State) (p : Packet) (from_ status : Nat) : State :=
  let s := s.landed p
  match answerType p.typ with
  | none => s
  | some .droveAck =>
    let lid := if from_ < 576 then s.lidOr from_ else 0xFFFF
    let copy := decide (p.left ≠ 0) || p.vc == 2
    let word : Word256 := BitVec.ofNat 256 (if copy then p.dstLid % 2 ^ 16 + 2 ^ 16 else 0)
    let a : Packet := {
      typ := .droveAck, vc := (if p.vc = 3 then 3 else 1), words := 1, tag := p.tag, src := from_, dst := p.src, status := status, context := p.context
      srcLid := lid, dstLid := p.srcLid, drove := p.drove, txn := p.txn, last := !copy, data := [word] }
    if from_ < 576 then s.tileSend from_ a else s.launch a
  | some a => s.answer p a from_ status [] 0
/-- A packet or flit is discarded (R304, R336, R344). -/
def State.discarded (s : State) (t : Nat) (detail : List Nat) : State := s.tileEvent t 0x3005 0xFFFF detail

/-! ### Failed links (R32, R307, R320, R380) -/

/-- A job of a scheduled-mode paddock is suspended for a change of its geometry (R380). -/
def State.geometrySuspend (s : State) (p : Nat) : State :=
  let P := s.paddock p
  if !P.mixed then s
  else (P.jobs.filter fun j => (s.job j).state == .running).foldl (fun s j => (s.jobEvent 0x3104 j [p]).holdJob j fun J => { J with holdGeo := true }) s
/-- A stack whose every edge port is lost goes out of service; other edge blocks go on with what they have (R32). -/
def State.edgeCheck (s : State) (n : Nat) : State :=
  (upto 0 20).foldl (fun s k => if (stackNodes k).contains n && (stackNodes k).all (fun x => !s.edgeLive x) then s.stackOut k true else s) s
/-- The blocks at an edge node that has been lost: a stack with no port left, a Lamug port, a host port (R32, R34, R511). -/
def State.edgeLost (s : State) (n : Nat) : State :=
  let s := s.edgeCheck n
  let s := match (upto 0 18).find? fun k => lampNode k == n with | some k => s.portOut k | none => s
  match hostOfNode n with | some k => s.hostPortOut k | none => s

/-- Is a side of a tile enabled for scheduled use by the tile (SCH_CTL.LINKS, R381)? -/
def Tile.vergeOn (T : Tile) (side : Nat) : Bool := bit (T.reg 0xC20) (4 + side)
/-- A link is declared failed: both ends remember it, routes are rebuilt, event 0x3002 names it. -/
def State.failLink (s : State) (t side : Nat) : State :=
  if s.net.failedLinks.contains (4 * t + side) then s
  else
    let s := { s with net := { s.net with failedLinks := setIns s.net.failedLinks (4 * t + side) } }
    let s := match neighbour t side with
      | some u => { s with net := { s.net with failedLinks := setIns s.net.failedLinks (4 * u + opposite side) } }
      | none => s
    let s := s.tileEvent t 0x3002 0xFFFF [side]
    match neighbour t side with
    | some u =>
      let p := s.tag t
      if p ≠ 0 ∧ s.tag u = p ∧ ((s.tile t).vergeOn side || (s.tile u).vergeOn (opposite side)) then s.geometrySuspend p else s
    | none => match edgeNode t side with
      | some n => s.edgeLost n
      | none => s

/-! ### Forwarding (R304, R310, R314, R318, R344) -/

/-- Does a port code of a router name a live output? -/
def State.outLive (s : State) (t port : Nat) : Bool := port == 4 || (decide (port < 4) && s.linkLive t port)

/-- ROUTER_FORWARD: a packet at a router is discarded, turned away, or has its output chosen and its request raised at it
with the age it has. Drove packets beyond their bellwether go by fork entries instead. Sides without a neighbour are edge ports. -/
def execRouterForward (t : TileIx) (input : Fin 5) (age : BitVec 12) (p : Packet) (s : State) : Res :=
  if p.typ == .reserved || (p.tag == 0xFFFF && !isFold p.src) then .next ((s.landed p).discarded t [p.tag, p.src])
  else if p.vc = 2 then .next s
  else
    let e := s.route t p.dst
    let port := fld e 0 3
    let esc := fld e 3 3
    let moves := p.vc == 3 || bit e 6 || !s.outLive t port
    let out := if moves then esc else port
    if !bit e 7 || !s.outLive t out then .next (s.turnAway p t 5)
    else
      let q := { p with vc := if moves then 3 else p.vc }
      let R := s.router t
      .next ((s.reflight p q).setRouter t { R with raised := R.raised ++ [(out, input.val, q.vc, age.toNat)] })

/-! ### Arbitration (R321, R322) -/

/-- Rank of a channel among requests of one age: BV1, BV3, BV2, BV0. -/
def vcRank (vc : Nat) : Nat := match vc with | 1 => 0 | 3 => 1 | 2 => 2 | _ => 3
/-- The inputs of a router in the order of rotation: mesh ports, local, edge ports. -/
def inputOrder (t : Nat) : List Nat := (upto 0 4).filter (fun d => (neighbour t d).isSome) ++ [4] ++ (upto 0 4).filter fun d => (neighbour t d).isNone
/-- How far an input stands after the one that won last (stored plus one; 0 for none yet). -/
def turnOf (order : List Nat) (last input : Nat) : Nat :=
  let n := order.length
  let i := order.idxOf input
  if last = 0 then i else (i + n - 1 - order.idxOf (last - 1)) % n
/-- Does request `a` win over `b`? -/
def winsOver (order : List Nat) (last : Nat) (a b : Nat × Nat × Nat × Nat) : Bool :=
  let ((_, ia, va, ga), (_, ib, vb, gb)) := (a, b)
  if ga ≠ gb then decide (gb < ga)
  else if vcRank va ≠ vcRank vb then decide (vcRank va < vcRank vb)
  else decide (turnOf order last ia < turnOf order last ib)

/-- ROUTER_ARBITRATION: `elapsed` transit ticks after the ages were last brought up to date, an output grants the oldest raised
request; its holder stands until the next grant. -/
def execRouterArbitration (t : TileIx) (out : Fin 5) (elapsed : BitVec 12) (s : State) : Res :=
  let R := s.router t
  let aged := R.raised.map fun q => if q.1 = out.val then (q.1, q.2.1, q.2.2.1, min 4095 (q.2.2.2 + elapsed.toNat)) else q
  let order := inputOrder t
  let last := tget R.lastWin out
  match aged.filter fun q => q.1 == out.val with
  | [] => .next (s.setRouter t { R with raised := aged })
  | q :: qs =>
    let w := qs.foldl (fun best x => if winsOver order last x best then x else best) q
    .next (s.setRouter t { R with raised := aged.erase w, holder := tput R.holder out (some (4 * w.2.1 + w.2.2.1, 0)), lastWin := tput R.lastWin out (w.2.1 + 1) })

/-! ### Cut-offs and link errors (R307, R323) -/

/-- An interface is fenced. -/
def State.fence (s : State) (t : Nat) : State :=
  (s.modTile t fun T => { T.orReg 0xC05 2 with net := { T.net with fenced := true } }).tileEvent t 0x3003 0xFFFF []

/-- OVERHOLD_CUTOFF: the grant at an output has not delivered its tail within OVERHOLD of its `ticks`; `p` is the packet. -/
def execOverholdCutoff (t : TileIx) (out : Fin 5) (ticks : BitVec 16) (p : Packet) (s : State) : Res :=
  let R := s.router t
  match tget R.holder out with
  | none => .next s
  | some h =>
    if ticks.toNat < R.overhold then .next s
    else
      let s := s.reflight p { p with cut := true }
      let s := s.setRouter t { R with holder := tput R.holder out none }
      .next (if h.1 / 4 = 4 then s.fence t else s.failLink t (h.1 / 4))

/-- LINK_BEAT_RECEIVE: the receiving end of a link checks a beat: 0 no error, 1 corrected, 2 uncorrectable, in a new
millisecond or the present one. `p` is the packet whose grant the link has. -/
def execLinkBeatReceive (t : TileIx) (side : Side) (result : Fin 3) (newMs : Bool) (p : Option Packet) (s : State) : Res :=
  let R := s.router t
  let R := { R with replaysMs := if newMs then tput R.replaysMs side 0 else R.replaysMs }
  match result with
  | 0 => .next (s.setRouter t { R with replays := tput R.replays side 0 })
  | 1 => .next (((s.setRouter t { R with replays := tput R.replays side 0 }).modTile t fun T => T.orReg 0xC05 1).tileEvent t 0x3001 0xFFFF [side.val])
  | _ =>
    let n := tget R.replays side + 1
    let m := tget R.replaysMs side + 1
    -- the beat itself and four replays have failed, or this is the seventeenth replay of the millisecond
    if n ≥ 5 ∨ m > 16 then
      let s := s.setRouter t { R with replays := tput R.replays side 0, replaysMs := tput R.replaysMs side 0 }
      let s := match p with
        | some p => s.reflight p { p with cut := true }
        | none => s
      .next (s.failLink t side)
    else
      let s := s.setRouter t { R with replays := tput R.replays side n, replaysMs := tput R.replaysMs side m }
      .next (s.tileEvent t 0x3001 0xFFFF [side.val])

end Sys2Proof.Machine
end

