-- ==== Sys2Proof/Machine/Spore.lean ====
section
/-! DEFINITION. The spore agents: staging, checks, gleaning, verification (R601-R606, R610, R623). -/
namespace Sys2Proof.Machine

/-- Offset of a spore's staging slot (R602). -/
def stagingOff (n : Nat) : Nat := 0x600000 + 2048 * n
def State.modSpore (s : State) (t : Nat) (f : Spore → Spore) : State := s.modTile t fun T => { T with spore := f T.spore }
/-- Is the agent of a tile in RECEIVE, GLEAN, VERIFY or SELFTEST (R605)? -/
def State.agentAtWork (s : State) (t : Nat) : Bool := let n := (s.tile t).spore.state; decide (1 ≤ n ∧ n ≤ 4)
/-- SPR_DIGEST0-11, word 0 most significant. -/
def Tile.sporeDigest (T : Tile) : Nat := (upto 0 12).foldl (fun a i => a * 2 ^ 32 + T.reg (0xC48 + i)) 0

/-- Staging becomes zeros. -/
def State.zeroStaging (s : State) (t : Nat) : State := s.zeroKeys (spdKey t 0x600000) 0x200000
/-- Every bit of the bitmap is set: the image is verified, and loaded where it matches (R606). -/
def State.sporeVerify (s : State) (t : Nat) : State :=
  let T := s.tile t
  let image := (upto 0 T.spore.count).flatMap fun n => s.bytes (spdKey t (stagingOff n + 32)) 2016
  if ofBytesBE (sha384 image) = T.sporeDigest then
    s.modSpore t fun p => { p with state := 4, verified := true, loaded := true }
  else if T.spore.mismatch = 0 then
    (s.zeroStaging t).modSpore t fun p => { p with state := 1, received := [], mismatch := 1 }
  else ((s.modSpore t fun p => { p with state := 5, mismatch := 2 }).tileEvent t 0x9005 0xFFFF []).declareUnfit t 0x9005

/-- A spore's 64 words reach an agent in RECEIVE or GLEAN: whether it is accepted, and staged. A word with a mark fails the
check. -/
def State.sporeTake (s : State) (t : Nat) (ws : List Word256) (poison : Nat) : Bool × State :=
  let T := s.tile t
  let h := (ws.getD 0 0).toNat
  let n := fld h 0 16
  let count := fld h 16 16
  let bytes := ws.flatMap fun w => toBytes w.toNat 32
  let good := (T.spore.state == 1 || T.spore.state == 2) && ws.length == 64 && poison == 0 && fld h 32 32 == T.reg 0xC42
    && decide (n < count) && decide (count ≤ 1024) && fld h 64 32 == crc32 (bytes.drop 32)
  if !good then (false, s)
  else
    let s := (upto 0 64).foldl (fun s i => s.spdWrite t ((stagingOff n + 32 * i) / 32) (toBytes (ws.getD i 0).toNat 32) false) s
    let s := s.modSpore t fun p => { p with received := setIns p.received n, count := count }
    (true, if (s.tile t).spore.received.length = count then s.sporeVerify t else s)

/-- A round of gleaning goes on from spore `n`, side `side`: the next missing spore is asked for at the next fit neighbour
(R604); with none left the round ends. -/
def State.gleanFrom (s : State) (t n side : Nat) : State :=
  let T := s.tile t
  if T.spore.state ≠ 2 then s
  else
    let missing := (upto n (T.spore.count - n)).filter fun i => !T.spore.received.contains i
    let tries := missing.flatMap fun i => (upto 0 4).filterMap fun d =>
      if i = n ∧ d < side then none else match neighbour t d with | some u => if s.fit u then some (i, d, u) else none | none => none
    match tries with
    | [] => s.modSpore t fun p => { p with round := false }
    | (i, d, u) :: _ => (s.request t (.glean i d) { typ := .read, words := 64, dst := u, dstLid := s.lidOr u, addr := stagingOff i }).2
/-- The answer of a neighbour: its words are taken or the next neighbour is tried. -/
def State.gleanAnswer (s : State) (t n side status : Nat) (ws : List Word256) (poison : Nat) : State :=
  let (ok, s) := if status = 0 then s.sporeTake t ws poison else (false, s)
  if ok then (s.modSpore t fun p => { p with gleaned := min (p.gleaned + 1) 65535 }).gleanFrom t (n + 1) 0 else s.gleanFrom t n (side + 1)

end Sys2Proof.Machine
end

