-- ==== Sys2Proof/Machine/Packets.lean ====
section
/-! DEFINITION. Packets at their destinations: scratchpad accesses and notices at tiles, responses at senders, requests at HBM
controllers and host ports (R184, R185, R305, R306, R311, R316, R344, R345, R448-R451, R504). -/
namespace Sys2Proof.Machine

/-! ### At a tile (R184, R185, R306, R311, R316, R344, R345, R605) -/

/-- Does a tile accept scratchpad packets of a packet's tag? -/
def State.tagOk (s : State) (t : Nat) (p : Packet) : Bool :=
  let m := s.tag t
  if m ≠ 0 then p.tag == m
  else s.agentAtWork t && ((p.tag == 0xFFFF && isFold p.src) || (p.tag == 0 && decide (p.src < 576) && s.agentAtWork p.src))

/-- Scratchpad words a packet names. -/
def spdWords (p : Packet) : List Nat := if bit p.addr 48 then [p.addr / 32 % 2 ^ 18] else (upto 0 p.words).map fun i => (p.addr / 32 + i) % 2 ^ 18

/-- A refusal is counted and recorded (R185). -/
def State.noteRefusal (s : State) (t : Nat) (p : Packet) : State :=
  let T := s.tile t
  let n := min (fld (T.reg 0xA0B) 0 16 + 1) 0xFFFF
  (s.modTile t fun T => T.setReg 0xA0B (p.srcLid % 2 ^ 16 * 2 ^ 16 + n)).tileEvent t 0x2006 0xFFFF [p.tag, s.tag t, p.addr % 2 ^ 23]

/-- What stands between a packet and what it asks of a tile. -/
inductive Arrival where
  /-- it stays in the network -/
  | stays
  /-- it waits in the interface for the region's wake -/
  | wakes
  /-- it is turned away with a status -/
  | away (status : Nat)
  /-- the words it names wait for a fill or a sweep -/
  | blocked
  | taken
  deriving DecidableEq, Repr

/-- A packet's arrival at its tile; `words` are those it reads or writes there. -/
def State.arrival (s : State) (p : Packet) (words : List Nat) : Arrival :=
  let t := p.dst
  let T := s.tile t
  let R := s.region (regionOf t)
  if t ≥ 576 || T.net.fenced then .stays
  else if R.power == .nap || R.power == .off then .wakes
  else if p.tag ≠ 0xFFFF ∧ p.dstLid ≠ s.lidOr t then .away 2
  else if !s.tagOk t p then .away 1
  else if p.cut then .away 4
  else if words.any T.spdBlocked then .blocked
  else .taken

/-- Byte runs of a mask: offset and length of each, from bit `i` on. -/
def maskRuns (mask i : Nat) : Nat → List (Nat × Nat)
  | 0 => []
  | n + 1 =>
    let rest := maskRuns mask (i + 1) n
    if !bit mask i then rest
    else match rest with
      | (o, l) :: r => if o = i + 1 then (i, l + 1) :: r else (i, 1) :: rest
      | [] => [(i, 1)]

/-- The words of a write are performed at a tile; a masked one as narrow writes (R170, R184, R306). -/
def State.netWrite (s : State) (t : Nat) (p : Packet) : State :=
  if bit p.addr 48 then
    let mask := fld (p.data.getD 0 0).toNat 0 32
    let bs := Word256.bytes (p.data.getD 1 0)
    let base := p.addr / 32 % 2 ^ 18 * 32
    (maskRuns mask 0 32).foldl (fun s r => s.narrowWrite t .net (base + r.1) ((bs.drop r.1).take r.2) (bit p.poison 1)) s
  else (p.data.zip (upto 0 p.data.length)).foldl (fun s w => s.spdWrite t ((p.addr / 32 + w.2) % 2 ^ 18) (Word256.bytes w.1) (bit p.poison w.2)) s

/-- A packet performed at a tile is counted (R350). -/
def State.countRx (s : State) (t : Nat) : State := s.modTile t fun T => { T with net := { T.net with rx := (T.net.rx + 1) % 2 ^ 64 } }

/-- A spore that Fufin sends, or the words of a write: to the agent or to the scratchpad (R602). -/
def State.performWords (s : State) (t : Nat) (p : Packet) : State :=
  if p.tag = 0xFFFF ∧ p.words = 64 ∧ p.addr ≥ 0x600000 then
    let (ok, s) := s.sporeTake t p.data p.poison
    if ok ∧ p.typ = .write then s.modSpore t fun x => { x with fromFold := min (x.fromFold + 1) 65535 } else s
  else s.netWrite t p

/-- What a packet that a tile has taken does, and its answer. -/
def State.performAt (s : State) (p : Packet) : State :=
  let t := p.dst
  match p.typ with
  | .write => ((s.performWords t p).countRx t).answer p .writeAck t 0 [] 0
  | .read =>
    let (rs, s) := s.spdReads t .net (spdWords p)
    let data := rs.map fun r => wordOf r.bytes
    let m := natSum ((rs.zip (upto 0 rs.length)).map fun r => b01 (r.1.poison || r.1.again) * 2 ^ r.2)
    let s := s.countRx t
    let lid := s.lidOr t
    s.tileSend t { typ := .readData, vc := (if p.vc = 3 then 3 else 1), words := p.words, tag := p.tag, src := t, dst := p.src, context := p.context
                   srcLid := lid, dstLid := p.srcLid, txn := p.txn, addr := p.addr, poison := m, data := data, zre := p.zre && (zreWords data m).2 }
  | .droveData =>
    let s := (s.performWords t p).countRx t
    let key := (p.tag, p.drove, p.txn)
    let N := (s.tile t).net
    let bad := decide (p.poison ≠ 0) || N.drovePoison.contains key
    let keep := N.drovePoison.filter fun k => k != key
    let s := s.modTile t fun T => { T with net := { T.net with drovePoison := if p.last || !bad then keep else key :: keep } }
    if p.last then
      let word : Word256 := BitVec.ofNat 256 (s.lidOr t + 2 ^ 17 * b01 bad)
      s.tileSend t { typ := .droveAck, vc := (if p.vc = 3 then 3 else 1), words := 1, tag := p.tag, src := t, dst := p.src, context := p.context
                     srcLid := s.lidOr t, dstLid := p.srcLid, drove := p.drove, txn := p.txn, data := [word] }
    else s
  | _ => s

/-- A scratchpad packet at its tile. One that meets blocked words waits in the network, or on BV3 in the escape answer buffer
of 32 entries. -/
def State.arrive (s : State) (p : Packet) : State :=
  let t := p.dst
  match s.arrival p (spdWords p) with
  | .stays => s
  | .wakes => ((s.landed p).modTile t fun T => { T with net := { T.net with waiting := T.net.waiting ++ [p] } }).wantWake (regionOf t)
  | .away st => s.turnAway p t st |> fun s' => if st = 1 then s'.noteRefusal t p else s'
  | .blocked =>
    if p.vc ≠ 3 then s
    else if (s.tile t).net.escape.length ≥ 32 then s.turnAway p t 3
    else (s.landed p).modTile t fun T => { T with net := { T.net with escape := T.net.escape ++ [p] } }
  | .taken => (s.landed p).performAt p

/-- Entries of the escape answer buffer whose words are free are performed, oldest first. -/
def State.drainEscape (s : State) (t : Nat) : State :=
  (s.tile t).net.escape.foldl (fun s p =>
    if (spdWords p).any (s.tile t).spdBlocked then s
    else (s.modTile t fun T => { T with net := { T.net with escape := T.net.escape.erase p } }).performAt p) s

def execWrite (p : Packet) (s : State) : Res := .next (if p.typ = .write then s.arrive p else s)
def execRead (p : Packet) (s : State) : Res := .next (if p.typ = .read then s.arrive p else s)

/-- A return notice at its source unit; it waits while the paddock is frozen, and a refused one is answered REFUSED (R152, R153). -/
def State.noticeArrive (s : State) (p : Packet) : State :=
  let t := p.dst
  match s.arrival p [] with
  | .stays | .blocked => s
  | .wakes => ((s.landed p).modTile t fun T => { T with net := { T.net with waiting := T.net.waiting ++ [p] } }).wantWake (regionOf t)
  | .away st => s.turnAway p t st |> fun s' => if st = 1 then s'.noteRefusal t p else s'
  | .taken =>
    if (s.paddock p.tag).frozen then s
    else
      let (ok, s) := ((s.landed p).countRx t).notice (regionOf t) p.tag (p.data.getD 0 0).toNat
      s.answer p .writeAck t (if ok then 0 else 1) [] 0
def execNotice (p : Packet) (s : State) : Res := .next (if p.typ = .notice then s.noticeArrive p else s)

/-! ### Responses at a tile (R305, R309) -/

/-- A tile's request is over, with the answer or with a status of its own: its sender is told (R204, R287, R292, R305). A load
that failed delivers a word whose value the spec leaves open, poisoned. -/
def State.deliver (s : State) (t : Nat) (q : Request) (p : Packet) : State :=
  let s := s.modTile t fun T => { T with net := { T.net with requests := T.net.requests.filter fun x => x.pkt.txn != q.pkt.txn } }
  match q.for_ with
  | .channel c pos n => s.xanswer t c q p pos n
  | .coreLoad k =>
    if p.status = 0 then s.loadArrive (mkCore t k) q.pkt.txn (p.data.getD 0 0).toNat (bit p.poison 0)
    else
      let (v, s) := s.takeFree
      s.loadArrive (mkCore t k) q.pkt.txn (v % 2 ^ 256) true
  | .coreStore k => s.storeArrive (mkCore t k) q.pkt.txn
  | .dispatch r k no => s.bundleReport r k no p.status (fld (p.data.getD 0 0).toNat 16 16)
  | .save => s
  | .glean n side => s.gleanAnswer t n side p.status p.data p.poison

def State.modRequest (s : State) (t txn : Nat) (f : Request → Request) : State :=
  s.modTile t fun T => { T with net := { T.net with requests := T.net.requests.map fun q => if q.pkt.txn = txn then f q else q } }

/-- Where a request goes when it is resolved again: its tile by logical ID, a drove's bellwether, a live port of its edge
block (R305, R315, R316). -/
def State.reResolve (s : State) (t : Nat) (p : Packet) : Option Nat :=
  match p.typ with
  | .droveData => s.bellwether p.tag p.drove
  | .memRead | .memWrite =>
    if (upto 0 4).any fun k => hostNode k == p.dst then (if s.edgeLive p.dst then some p.dst else none)
    else match hbmAddr (p.addr % 2 ^ 42) with
      | some (k, _) => pickPort (s.stackPorts k) (p.addr % 2 ^ 42)
      | none => none
  | _ => if p.dstLid < 540 then s.mapNode t p.dstLid else some p.dst

/-- A request is over REFUSED for a cause other than its tag. -/
def State.giveUp (s : State) (t : Nat) (q : Request) (cause : Nat) : State :=
  (s.lostRequest t cause q.pkt.dstLid).deliver t q { typ := .writeAck, status := 5 }

/-- A request's packets are sent again under its transaction number. -/
def State.resend (s : State) (t : Nat) (q : Request) (cause : Nat) : State :=
  match s.reResolve t q.pkt with
  | none => s.giveUp t q cause
  | some n =>
    let fresh := fun (p : Packet) => { p with dst := n, vc := 0, cut := false, dstLid := if p.typ = .droveData ∧ n < 576 then s.lidOr n else p.dstLid }
    let q' := { q with pkt := fresh q.pkt, more := q.more.map fresh, busy := false }
    let s := s.modRequest t q.pkt.txn fun _ => q'
    (q'.pkt :: q'.more).foldl (fun s p => s.tileSend t p) s

/-- A response at its sender, acted on by its status (R305). Responses to blocks at the edge are their own affair. -/
def State.response (s : State) (p : Packet) : State :=
  let t := p.dst
  if t ≥ 576 then s.landed p
  else if (s.tile t).net.fenced then s
  else
    let s := s.landed p
    match (s.tile t).net.requests.find? fun q => q.pkt.txn == p.txn && !q.busy with
    | none => s
    | some q =>
      if p.cut then s
      else match p.status with
        | 0 => s.deliver t q p
        | 1 => (s.modTile t fun T => T.orReg 0xC05 8).deliver t q p
        | 2 => if q.moved then s.giveUp t q 2 else (s.modRequest t p.txn fun q => { q with moved := true }).resend t { q with moved := true } 2
        | 3 => s.modRequest t p.txn fun q => { q with busy := true }
        | 4 => if q.cut then s.giveUp t q 4 else (s.modRequest t p.txn fun q => { q with cut := true }).resend t { q with cut := true } 4
        | n => s.giveUp t q n

def execWriteAck (p : Packet) (s : State) : Res := .next (if p.typ = .writeAck then s.response p else s)
def execReadData (p : Packet) (s : State) : Res := .next (if p.typ = .readData then s.response p else s)
def execMemData (p : Packet) (s : State) : Res := .next (if p.typ = .memData then s.response p else s)
def execMemAck (p : Packet) (s : State) : Res := .next (if p.typ = .memAck then s.response p else s)

/-- REQUEST_TIMEOUT: the first time the request is resolved again and sent again, the second time it is lost. -/
def execRequestTimeout (t : TileIx) (txn : BitVec 12) (s : State) : Res :=
  match (s.tile t).net.requests.find? fun q => q.pkt.txn == txn.toNat && !q.busy with
  | none => .next s
  | some q => .next (if q.timedOut then s.giveUp t q 6 else (s.modRequest t txn.toNat fun q => { q with timedOut := true }).resend t { q with timedOut := true } 6)

/-- BUSY_RESEND. -/
def execBusyResend (t : TileIx) (txn : BitVec 12) (s : State) : Res :=
  match (s.tile t).net.requests.find? fun q => q.pkt.txn == txn.toNat && q.busy with
  | none => .next s
  | some q => .next ((s.modTile t fun T => T.orReg 0xC05 0x20).resend t q 3)

/-! ### At an edge block (R344, R448-R451, R504) -/

/-- The stack that an edge node belongs to. -/
def stackOfNode (n : Nat) : Option Nat := (upto 0 20).find? fun k => (stackNodes k).contains n

/-- Is a request's address one that the stack holds, its other bits zero (R444, R450)? -/
def hbmRequestOk (k : Nat) (p : Packet) : Bool :=
  let a := p.addr % 2 ^ 42
  let n := if bit p.addr 48 then 1 else max 1 p.words
  p.addr / 2 ^ 42 % 2 ^ 6 == 0 && decide (p.addr < 2 ^ 49) && (hbmAddr a).map (·.1) == some k && (hbmAddr (a + 32 * n - 1)).map (·.1) == some k

/-- The first status that turns a request away from a stack, 0 for none; none where it waits for the stack to leave
self-refresh. -/
def State.hbmGate (s : State) (k : Nat) (p : Packet) : Option Nat :=
  if p.tag = 0 then some 1
  else if p.cut then some 4
  else if s.stackAnswer k ≠ 0 then some (s.stackAnswer k)
  else if !hbmRequestOk k p then some 5
  else if (s.stack k).selfRefresh then none
  else some 0

/-- A masked write merges its bytes with the word read (R450). -/
def State.hbmMerge (s : State) (k w : Nat) (p : Packet) : State :=
  let mask := fld (p.data.getD 0 0).toNat 0 32
  let (old, bad, s) := s.hbmWord k w false
  s.hbmPut k w (mergeBytes old (p.data.getD 1 0).toNat mask 0) (bad || bit p.poison 1)

/-- MEM_WRITE and MEM_READ at an edge node; `upsets` are the wrong bits that the read meets. -/
def State.memRequest (s : State) (p : Packet) (upsets : List (Nat × Nat)) : State :=
  let write := p.typ == .memWrite
  match stackOfNode p.dst, hostOfNode p.dst with
  | some k, _ =>
    match s.hbmGate k p with
    | none => s
    | some 0 =>
      let s := (s.landed p).hbmPlant k upsets
      let w := ((hbmAddr (p.addr % 2 ^ 42)).map fun x => x.2 / 32).getD 0
      if write then
        let s := if bit p.addr 48 then s.hbmMerge k w p
                 else (p.data.zip (upto 0 p.data.length)).foldl (fun s x => s.hbmPut k (w + x.2) (Word256.bytes x.1) (bit p.poison x.2)) s
        s.answer p .memAck p.dst 0 [] 0
      else
        let (l, s) := s.hbmWords k w false p.words
        s.answer p .memData p.dst 0 (l.map fun x => wordOf x.1) (natSum ((l.zip (upto 0 l.length)).map fun x => b01 x.1.2 * 2 ^ x.2))
    | some st =>
      let s := if st = 5 ∧ s.stackAnswer k = 0 then s.stackEvent k 0x5009 [p.addr % 2 ^ 42] else s
      s.turnAway p p.dst st
  | none, some h =>
    if p.tag = 0 then s.turnAway p p.dst 1
    else if p.cut then s.turnAway p p.dst 4
    else
      let s := s.landed p
      let a := p.addr % 2 ^ 63
      if write then
        let up := (s.port h).up
        let s := if !up then s
          else if bit p.addr 63 then
            let mask := fld (p.data.getD 0 0).toNat 0 32
            let bs := Word256.bytes (p.data.getD 1 0)
            (maskRuns mask 0 32).foldl (fun s r => s.emit (.hostWrite h (a + r.1) ((bs.drop r.1).take r.2) (bit p.poison 1))) s
          else s.hostWrites h a (p.data.flatMap Word256.bytes) (fun i => bit p.poison i)
        s.answer p .memAck p.dst 0 [] 0
      else
        let r : HostRead := { pkt := some p, addr := a, n := 32 * p.words }
        if (s.port h).up then s.hostRead h r else (s.hostEvent 0x6002 ((s.ctx p.context).fn) [a]).endHostRead h { r with tag := 2 ^ 14 } [] true
  | none, none => s

def execMemWrite (p : Packet) (upsets : List (Nat × Nat)) (s : State) : Res := .next (if p.typ = .memWrite then s.memRequest p upsets else s)
def execMemRead (p : Packet) (upsets : List (Nat × Nat)) (s : State) : Res := .next (if p.typ = .memRead then s.memRequest p upsets else s)

end Sys2Proof.Machine
end

