-- ==== Sys2Proof/Machine/Verge.lean ====
section
/-! DEFINITION. Scheduled mode: calibration, schedule memory, segments, schedule ticks, boundaries, aborts (R362-R388). -/
namespace Sys2Proof.Machine

def State.modSched (s : State) (t : Nat) (f : Sched → Sched) : State := s.modTile t fun T => { T with sched := f T.sched }

/-! ### Links (R362, R363, R366) -/

/-- Is the verge link on a side of a tile in scheduled mode? -/
def State.vergeSched (s : State) (t side : Nat) : Bool :=
  match neighbour t side with
  | none => false
  | some u =>
    let p := s.tag t
    decide (p ≠ 0) && s.tag u == p && (s.paddock p).mixed && (s.tile t).vergeOn side && (s.tile u).vergeOn (opposite side) && s.linkLive t side
      && (tget (s.tile t).sched.cal side).calibrated && (tget (s.tile u).sched.cal (opposite side)).calibrated
/-- Is a side's link half width? -/
def halfLink (t side : Nat) : Bool := match neighbour t side with | some u => decide (seamsBetween t u ≠ 0) | none => false

/-- CALIBRATION_DONE: the crossing into a tile from a side has been measured; `lam` is the largest latency in half periods.
A link whose segment runs keeps its pad until the boundary. -/
def execCalibrationDone (t : TileIx) (side : Side) (lam : BitVec 8) (s : State) : Res :=
  match neighbour t side with
  | none => .next s
  | some u =>
    if (s.tile t).sched.state = .running then .next s
    else
      let l := linkL t side
      if lam.toNat ≤ 2 * l - 1 then
        .next (s.modSched t fun d => { d with cal := tput d.cal side { pad := 2 * l - 1 - lam.toNat, calibrated := true } })
      else
        let s := (s.modSched t fun d => { d with cal := tput d.cal side { failed := true } }).modTile t fun T => T.orReg 0xC2C 8
        let s := s.tileEvent t 0x3101 0xFFFF [side.val]
        let p := s.tag t
        .next (if p ≠ 0 ∧ s.tag u = p ∧ ((s.tile t).vergeOn side || (s.tile u).vergeOn (opposite side)) then s.geometrySuspend p else s)

/-! ### Entries and segments (R368, R369) -/

/-- A schedule entry's fields. -/
structure SchEntry where
  kind : Nat
  link : Nat
  words : Nat
  start : Nat
  last : Nat
  offset : Nat
  step : Int
  bad : Bool
def schEntry (w : BitVec 128) : SchEntry :=
  let n := w.toNat
  let kind := fld n 0 4
  { kind := kind, link := fld n 4 2, words := fld n 6 5, start := fld n 12 20, last := fld n 12 20 + fld n 32 20, offset := fld n 64 23, step := sext 24 (fld n 88 24)
    bad := if kind = 2 then n != 2 + atBit (fld n 12 20) 12 20
           else decide (kind ≥ 2) || bit n 11 || fld n 52 12 != 0 || fld n 64 5 != 0 || bit n 87 || fld n 88 5 != 0 || fld n 112 16 != 0 || fld n 6 5 == 0 || decide (fld n 6 5 > 16) }
/-- Scratchpad offset of an entry's first word at a tick. -/
def SchEntry.place (e : SchEntry) (tick : Nat) : Nat := wrap 23 ((e.offset : Int) + (tick - e.start : Int) * e.step)
def SchEntry.covers (e : SchEntry) (kind link tick : Nat) : Bool := e.kind == kind && e.link == link && decide (e.start ≤ tick) && decide (tick ≤ e.last)
/-- The entries from one on up to its BOUNDARY; none without one in the memory. -/
def schRun (mem : Tab (BitVec 128)) (i : Nat) : Nat → List SchEntry × Option SchEntry
  | 0 => ([], none)
  | n + 1 =>
    let e := schEntry (tget mem i)
    if e.kind = 2 then ([], some e) else let (l, b) := schRun mem (i + 1) n; (e :: l, b)
/-- Do two entries of one kind and link overlap in time? -/
def anyOverlap : List SchEntry → Bool
  | [] => false
  | e :: r => (r.any fun x => x.kind == e.kind && x.link == e.link && decide (x.start ≤ e.last) && decide (e.start ≤ x.last)) || anyOverlap r
/-- FAULT_CAUSE of a segment, the lowest that holds; 0 for a sound one. -/
def State.segmentCause (s : State) (t : Nat) (l : List SchEntry) (b : Option SchEntry) : Nat :=
  let sr := l.filter fun e => decide (e.kind < 2)
  let n := (b.map (·.start)).getD (2 ^ 20)
  if l.any (·.bad) || (match b with | some e => e.bad | none => false) then 1
  else if anyOverlap sr then 2
  else if sr.any fun e => halfLink t e.link && decide (e.words > 8) then 3
  else if sr.any fun e => !s.vergeSched t e.link then 4
  else if b.isSome && sr.any fun e => e.kind == 0 && decide (e.last + linkL t e.link ≥ n) then 5
  else if sr.any fun e => e.kind == 1 && decide (e.start < linkL t e.link) then 6
  else if b.isSome && sr.any fun e => decide (e.last ≥ n) then 7
  else if b.isNone then 8 else 0

/-- The segment's end: STATE, the count of segments, and SCH_PC past the BOUNDARY (R370, R383, R384). -/
def State.schBoundary (s : State) (t next : Nat) : State :=
  (s.modSched t fun d => { d with state := .boundary, segs := (d.segs + 1) % 4096, stalled := false }).modTile t fun T => T.setReg 0xC22 (next % 2048)

/-- A write of GO. -/
def State.schGo (s : State) (t : Nat) : State :=
  let T := s.tile t
  if T.sched.state ≠ .idle ∧ T.sched.state ≠ .boundary then s
  else
    let pc := T.reg 0xC22 % 2048
    let (l, b) := schRun T.sched.mem pc (2048 - pc)
    let cause := s.segmentCause t l b
    if cause ≠ 0 then
      (s.modSched t fun d => { d with state := .fault }).modTile t fun T => (T.setField 0xC2C 4 4 cause).orReg 0xC2C 1
    else
      let n := (b.map (·.start)).getD 0
      let s := s.modSched t fun d => { d with
        state := .running, sigma := 0, first := pc, length := n, stalled := false, countErr := false
        delivery := d.delivery.map fun e => (0, e.2)
        credits := (upto 0 4).foldl (fun tb k => tput tb k (if s.vergeSched t k then 16 else 0)) d.credits }
      if n = 0 then s.schBoundary t (pc + l.length + 1) else s
def execSchGo (t : TileIx) (s : State) : Res := .next (s.schGo t)

/-! ### Schedule ticks (R370-R374, R377) -/

/-- Is the word that an incoming link expects at a tick present at the head of its FIFO? -/
def Sched.wordThere (d : Sched) (side l tick : Nat) : Bool :=
  match tget d.fifo side with
  | w :: _ => w.present && w.index == (tick - l) % 16
  | [] => false
/-- Ticks that the delivery buffer holds words of. -/
def Sched.bufferTicks (d : Sched) : List Nat := (d.delivery.map (·.1)).foldl setIns []

/-- One outgoing link at a tick: a scheduled word is on its way to the neighbour. -/
def State.schSend (s : State) (t side tick : Nat) (l : List SchEntry) : State :=
  match neighbour t side with
  | none => s
  | some u =>
    let (w, s) : SWord × State := match l.find? fun e => e.covers 0 side tick with
      | none => ({ index := tick % 16 }, s)
      | some e =>
        let (rs, s) := s.spdReads t .net ((upto (e.place tick / 32) e.words).map (· % 2 ^ 18))
        ({ index := tick % 16, count := e.words, poison := natSum ((rs.zip (upto 0 rs.length)).map fun r => b01 (r.1.poison || r.1.again) * 2 ^ r.2)
           data := rs.map fun r => wordOf r.bytes }, s)
    let s := s.modSched t fun d => { d with credits := tmod d.credits side (· - 1) }
    s.modSched u fun d => { d with fifo := tmod d.fifo (opposite side) (· ++ [w]) }

/-- A credit returns to the sender on a side. -/
def State.schCredit (s : State) (t side : Nat) : State :=
  match neighbour t side with
  | none => s
  | some u => s.modSched u fun d => { d with credits := tmod d.credits (opposite side) (· + 1) }

/-- One incoming link at a tick: the head word is taken into the delivery buffer. A COUNT other than the entry's WORDS, or
words where no entry covers the tick, set SCH_ERR.COUNT. -/
def State.schTake (s : State) (t side tick : Nat) (l : List SchEntry) : State :=
  let d := (s.tile t).sched
  match tget d.fifo side with
  | [] => s
  | w :: _ =>
    let e := l.find? fun e => e.covers 1 side tick
    let want := match e with | some e => e.words | none => 0
    let put := (upto 0 want).map fun i =>
      let off := ((e.map fun e => e.place tick).getD 0 + 32 * i) % 2 ^ 23
      let there := decide (i < w.count)
      (tick, ({ off := off, bytes := Word256.bytes (if there then w.data.getD i 0 else 0), poison := if there then bit w.poison i else true } : SpdWrite))
    let s := s.modSched t fun d => { d with fifo := tmod d.fifo side (·.drop 1), delivery := d.delivery ++ put }
    let s := s.schCredit t side
    if w.count = want then s
    else
      let s := s.modTile t fun T => T.orReg 0xC2C 2
      if (s.tile t).sched.countErr then s
      else (s.modSched t fun d => { d with countErr := true }).tileEvent t 0x3102 0xFFFF [side, tick]

/-- The write port takes the oldest `n` words of the delivery buffer. -/
def State.schWrite (s : State) (t : Nat) : Nat → State
  | 0 => s
  | n + 1 => match (s.tile t).sched.delivery with
    | [] => s
    | e :: r =>
      if (s.tile t).spdBlocked (e.2.off / 32) then s
      else ((s.spdWrite t (e.2.off / 32) e.2.bytes e.2.poison).modSched t fun d => { d with delivery := r }).schWrite t n

/-- SCHEDULE_TICK: the write port takes `written` words; then schedule tick σ is performed, or σ is held. `ready` tells whether
the words that σ sends have been read ahead. -/
def execScheduleTick (t : TileIx) (ready : Bool) (written : Fin 33) (s : State) : Res :=
  if !s.ticking t then .next s
  else
    let s := s.schWrite t written
    let T := s.tile t
    let d := T.sched
    if d.state ≠ .running ∨ T.preempting then .next s
    else
      let (l, _) := schRun d.mem d.first (2048 - d.first)
      let n := d.length
      let tick := d.sigma
      let sides := (upto 0 4).filter fun k => s.vergeSched t k
      let comes := sides.filter fun k => decide (linkL t k ≤ tick) && decide (tick < n)
      let goes := sides.filter fun k => decide (tick + linkL t k < n)
      let absent := comes.any fun k => !d.wordThere k (linkL t k) tick
      let limit := T.reg 0xC27
      let room := decide (d.bufferTicks.length < 4) || !(comes.any fun k => (l.any fun e => e.covers 1 k tick))
      let others := goes.any (fun k => tget d.credits k == 0) || (!ready && goes.any fun k => (l.any fun e => e.covers 0 k tick)) || !room || (bit limit 31 && decide (fld limit 0 20 < tick))
      if others then .next (s.modSched t fun d => { d with holds := (d.holds + 1) % 2 ^ 64 })
      else if absent then .next (s.modSched t fun d => { d with slips := (d.slips + 1) % 2 ^ 64 })
      else
        let s := goes.foldl (fun s k => s.schSend t k tick l) s
        let s := comes.foldl (fun s k => s.schTake t k tick l) s
        let s := s.modSched t fun d => { d with sigma := tick + 1, stalled := false }
        .next (if tick + 1 = n then s.schBoundary t (d.first + l.length + 1) else s)

/-- SCHEDULED_WORD_ARRIVE: the oldest word still crossing becomes present; an aborting scheduler discards it and returns its
credit. -/
def execScheduledWordArrive (t : TileIx) (side : Side) (s : State) : Res :=
  let d := (s.tile t).sched
  let q := tget d.fifo side
  match q.find? fun w => !w.present with
  | none => .next s
  | some w =>
    if d.state = .aborting then .next ((s.modSched t fun d => { d with fifo := tput d.fifo side (q.erase w) }).schCredit t side)
    else .next (s.modSched t fun d => { d with fifo := tput d.fifo side ((q.takeWhile (·.present)) ++ { w with present := true } :: (q.dropWhile (·.present)).drop 1) })

/-- SCH_DONE (R377, R384): the highest tick of the segment up to which every delivered write has been performed. -/
def Sched.done (d : Sched) : Nat :=
  let top := match d.bufferTicks with | k :: _ => k | [] => d.sigma
  if top = 0 then 0 else 2 ^ 31 + (top - 1) % 2 ^ 20

/-! ### Aborts, stalls, loads (R369, R376, R377, R383) -/

/-- A write of ABORT: words in the incoming FIFOs are discarded and their credits returned. -/
def State.schAbort (s : State) (t : Nat) : State :=
  let d := (s.tile t).sched
  match d.state with
  | .running | .fault =>
    let s := (upto 0 4).foldl (fun s k =>
      ((tget d.fifo k).filter (·.present)).foldl (fun s _ => s.schCredit t k) (s.modSched t fun d => { d with fifo := tmod d.fifo k fun q => q.filter fun w => !w.present })) s
    s.modSched t fun d => { d with state := .aborting, stalled := false }
  | _ => s
def execSchAbort (t : TileIx) (s : State) : Res := .next (s.schAbort t)

/-- ABORT_DRAINED: nothing of the segment is in flight to or from the tile any more. -/
def execAbortDrained (t : TileIx) (s : State) : Res :=
  let d := (s.tile t).sched
  let to_ := (upto 0 4).any fun k => !(tget d.fifo k).isEmpty
  let from_ := (upto 0 4).any fun k => match neighbour t k with
    | some u => (tget (s.tile u).sched.fifo (opposite k)).any fun w => !w.present
    | none => false
  .next (if d.state == .aborting && !to_ && !from_ then s.modSched t fun d => { d with state := .idle } else s)

/-- SCH_STALL. -/
def execSchStall (t : TileIx) (s : State) : Res :=
  let d := (s.tile t).sched
  if d.state ≠ .running ∨ d.stalled then .next s
  else .next (((s.modSched t fun d => { d with stalled := true }).modTile t fun T => T.orReg 0xC2C 4).tileEvent t 0x3103 0xFFFF [d.sigma])

/-- A write of SCH_LOAD_CMD. -/
def State.schLoad (s : State) (t v : Nat) : State :=
  let d := (s.tile t).sched
  if d.loadBusy || d.state == .running then s
  else (s.modSched t fun d => { d with loadBusy := true }).modTile t fun T => T.setReg 0xC24 (atBit (fld v 16 11) 16 11 + fld v 0 12)
def execSchLoad (t : TileIx) (cmd : BitVec 32) (s : State) : Res := .next (s.schLoad t cmd.toNat)

/-- SCH_LOAD_DONE: the entries are read and copied; those beyond the memory are not. -/
def execSchLoadDone (t : TileIx) (s : State) : Res :=
  let T := s.tile t
  if !T.sched.loadBusy then .next s
  else
    let src := fld (T.reg 0xC23) 4 19
    let dest := fld (T.reg 0xC24) 16 11
    let n := min (fld (T.reg 0xC24) 0 12 + 1) (2048 - dest)
    let (rs, s) := s.spdReads t .net ((upto (src / 2) ((src + n - 1) / 2 + 1 - src / 2)).map (· % 2 ^ 18))
    let bs := (rs.flatMap (·.bytes)).drop (16 * (src % 2))
    .next (s.modSched t fun d => { d with
      loadBusy := false
      mem := (upto 0 n).foldl (fun tb i => tput tb (dest + i) (BitVec.ofNat 128 (ofBytes ((bs.drop (16 * i)).take 16)))) d.mem })

/-- A write of SCH_LIMIT: every earlier local access of the core has been performed already, each in its own step. -/
def State.schLimit (s : State) (t v : Nat) : State := s.modTile t fun T => T.setReg 0xC27 (atBit (fld v 31 1) 31 1 + fld v 0 20)
def execSchLimitWrite (t : TileIx) (v : BitVec 32) (s : State) : Res := .next (s.schLimit t v.toNat)

/-- Who reads a register through a core of a tile. -/
def readerCore (u : CoreId) : Nat := 2 * u.tile.val + u.core.val
def execSchDoneRead (u : CoreId) (s : State) : Res := .next (s.emit (.regRead (readerCore u) 0xC26 (s.tile u.tile).sched.done))

end Sys2Proof.Machine
end

