-- ==== Sys2Proof/Machine/Faults.lean ====
section
/-! DEFINITION. Walks, ATS and PRI, invalidations, fault records and their handlers, pre-emption points (R397-R440, R672, R694). -/
namespace Sys2Proof.Machine

/-! ### Walks (R405, R406, R672) -/

/-- The table entries a walk reads from a level on, as HBM addresses. -/
def State.walkReads (s : State) (va : Nat) : Nat → Nat → List Nat
  | 0, table => if (match s.ptRead (table + 8 * fld va 12 9) with | .ok e => bit e 0 && bit e 3 && !entryReserved e | .error _ => false)
      then (upto 0 16).map fun i => table + 8 * (fld va 12 9 / 16 * 16 + i) else [table + 8 * fld va 12 9]
  | lvl + 1, table =>
    let a := table + 8 * (if lvl = 2 then fld va 39 17 else fld va (12 + 9 * (lvl + 1)) 9)
    match s.ptRead a with
    | .ok e => if bit e 0 && !bit e 1 && !entryReserved e then a :: s.walkReads va lvl (fld e 12 40 * 4096) else [a]
    | .error _ => [a]
/-- Is the frame of an HBM address owned by a context, for its data or its tables (R445, R672)? -/
def State.ownsFrame (s : State) (ctx a : Nat) : Bool :=
  match frameOf a with
  | some f => s.frame f == .ctx ctx || s.frame f == .table ctx
  | none => false
/-- A walk of a context's tables: its translation, or the fault it meets; every frame must be the context's. -/
def State.walk (s : State) (r ctx va : Nat) : Except Nat TlbEntry × State :=
  let (lvl, table) := s.walkStart r ctx va
  let foreign := fun (s : State) => (Except.error 4, s.ctxEvent 0xB007 ctx [])
  let reads := s.walkReads va lvl table
  if reads.any fun a => (hbmAddr a).isSome && !s.ownsFrame ctx a then foreign s
  else match s.walkFrom ctx va lvl table with
    | .error k => (.error k, s)
    | .ok e =>
      if e.target = 0 ∧ (upto 0 (e.size / 4096)).any (fun i => !s.ownsFrame ctx (e.out + 4096 * i)) then foreign s
      else (.ok e, s.modRegion r fun R => { R with wcache := (s.walkFill ctx va lvl table ++ R.wcache).eraseDups.take 64 })

/-- The COPY jobs that waited for a host page go on with it, or fail FAULTED (R492). -/
def State.copyPageDone (s : State) (ctx page : Nat) (res : Except Nat TlbEntry) : State :=
  let mine := s.host.jobs.filter fun e => e.2.live && e.2.kind == JobKind.copy && e.2.ctx == ctx && e.2.copySva && !e.2.terminal && (e.2.copyHost + e.2.copyDone) / 4096 * 4096 == page
  mine.foldl (fun s e =>
    match res with
    | .ok x => if e.2.copyOut && !x.w then s.endJob e.1 .failed 0x20
               else (s.modJob e.1 fun J => { J with copyPage := some (page, x.out + (page - x.va)) }).copyGo e.1
    | .error _ => s.endJob e.1 .failed 0x20) s
/-- A walk ends. -/
def State.walkEnd (s : State) (r ctx page : Nat) (res : Except Nat TlbEntry) : State :=
  if r = hostWalker then
    { s with mmu := { s.mmu with walks := s.mmu.walks.filter fun w => !(w.region == r && w.ctx == ctx && w.va == page) } }.copyPageDone ctx page res
  else s.walkDone r ctx page res
def State.findWalk (s : State) (r ctx page : Nat) : Option Walk :=
  (((s.mmu.walks.filter fun w => w.region == r).take 16).find? fun w => w.ctx == ctx && w.va == page)

/-- WALK_COMPLETE: one of the region's sixteen walks in flight ends. A walk on the SVA route of a function whose ATS or PRI is
off ends in HOST_ERROR. -/
def execWalkComplete (r : BitVec 8) (ctx : CtxIx) (page : BitVec 56) (s : State) : Res :=
  match s.findWalk r.toNat ctx page.toNat with
  | none => .next s
  | some w =>
    let F := s.func (s.ctx ctx).fn
    if w.ats then .next (if F.ats && F.pri then s else s.walkEnd w.region w.ctx w.va (.error 7))
    else
      let (res, s) := s.walk w.region w.ctx w.va
      .next (s.walkEnd w.region w.ctx w.va res)

/-! ### ATS and PRI (R399-R403) -/

def State.modWalks (s : State) (f : Walk → Walk) : State := { s with mmu := { s.mmu with walks := s.mmu.walks.map f } }
/-- Page requests outstanding at a physical function. -/
def State.pageReqs (s : State) (pf : Nat) : Nat := (s.mmu.walks.filter fun w => w.pageReq && portOfFn (s.ctx w.ctx).fn == pf).length

/-- ATS_TRANSLATION_COMPLETION: an error, or a range of `bytes` bytes at `out` with the access it grants. Without the access that
is needed one Page Request is sent, unless the function's are refused. -/
def execAtsTranslationCompletion (r : BitVec 8) (ctx : CtxIx) (page : BitVec 56) (error : Bool) (bytes out : BitVec 64) (read write : Bool) (s : State) : Res :=
  match s.findWalk r.toNat ctx page.toNat with
  | none => .next s
  | some w =>
    if !w.ats || w.pageReq then .next s
    else if error then .next (s.walkEnd w.region w.ctx w.va (.error 7))
    else if !read || (w.write && !write) then
      let fn := (s.ctx ctx).fn
      if s.mmu.priBlocked.contains fn then .next (s.walkEnd w.region w.ctx w.va (.error 6))
      else if s.pageReqs (portOfFn fn) ≥ 512 then .next s
      else .next ((s.modWalks fun x => if x = w then { x with pageReq := true } else x).emit (.ats (portOfFn fn) 1 (s.mmuCtx ctx).pasid w.va))
    else
      let n := bytes.toNat
      let size := if (n = 65536 ∨ n = 2 ^ 21 ∨ n = 2 ^ 30) ∧ out.toNat % n = 0 then n else 4096
      let first := w.va / size * size
      let base := if size = 4096 ∧ n > 4096 then out.toNat + w.va % n else out.toNat
      .next (s.walkEnd w.region w.ctx w.va (.ok { ctx := w.ctx, va := first, size := size, w := write, target := 1, out := base, ats := true }))

/-- PRG_RESPONSE: 0 success, 1 invalid request, 2 response failure. -/
def execPrgResponse (ctx : CtxIx) (page : BitVec 56) (code : Fin 3) (s : State) : Res :=
  let hit := s.mmu.walks.filter fun w => w.pageReq && w.ctx == ctx.val && w.va == page.toNat
  let fn := (s.ctx ctx).fn
  if hit.isEmpty then .next s
  else if code = 0 then
    let s := s.modWalks fun w => if hit.contains w then { w with pageReq := false } else w
    .next (s.emit (.ats (portOfFn fn) 0 (s.mmuCtx ctx).pasid page.toNat))
  else
    let s := if code = 2 then { s with mmu := { s.mmu with priBlocked := setIns s.mmu.priBlocked fn } } else s
    .next (hit.foldl (fun s w => s.walkEnd w.region w.ctx w.va (.error 6)) s)
/-- PRI_REENABLE. -/
def execPriReenable (fn : FnIx) (s : State) : Res := .next { s with mmu := { s.mmu with priBlocked := setDel s.mmu.priBlocked fn } }

/-- Contexts of a function. -/
def State.fnCtxs (s : State) (fn : Nat) : List Nat := (s.host.ctxs.filter fun e => e.2.live && e.2.fn == fn).map (·.1)
/-- ATS_INVALIDATE_REQUEST: of one PASID, or global. -/
def execAtsInvalidateRequest (fn : FnIx) (tag : Fin 32) (pasid : Option (BitVec 20)) (va : BitVec 64) (bytes : BitVec 64) (s : State) : Res :=
  let cs := (s.fnCtxs fn).filter fun c => match pasid with | some p => (s.mmuCtx c).pasid == p.toNat | none => true
  .next (s.startInval (.ats fn tag) (fun e => e.ats && e.within cs false va.toNat bytes.toNat) [])
/-- ATS_PRI_DISABLE: the host sets the function's ATS and PRI enables; where either is off, the host entries of its SVA contexts
go. -/
def execAtsPriDisable (fn : FnIx) (ats pri : Bool) (s : State) : Res :=
  let s := s.modFunc fn fun F => { F with ats := ats, pri := pri }
  if ats && pri then .next s
  else
    let cs := (s.fnCtxs fn).filter fun c => (s.mmuCtx c).sva
    .next (s.dropXlate (fun e => e.ats && cs.contains e.ctx) [])

/-! ### The MMU block (R403, R436, R437) -/

/-- Is a context one of a physical function's or of its virtual functions'? -/
def State.pfCtx (s : State) (pf c : Nat) : Bool := (s.ctx c).live && portOfFn (s.ctx c).fn == pf
/-- A write of MMU_CTX_CFG: setting SVA needs ATS and PRI. -/
def State.svaWrite (s : State) (pf c : Nat) (sva : Bool) (pasid : Nat) : State :=
  let F := s.func (s.ctx c).fn
  if !s.pfCtx pf c || (sva && !(F.ats && F.pri)) then s
  else
    let m := s.mmuCtx c
    s.setMmuCtx c { m with sva := sva, pasid := pasid % 2 ^ 20 }
def execMmuSvaWrite (pf : HostIx) (ctx : CtxIx) (sva : Bool) (pasid : BitVec 20) (s : State) : Res := .next (s.svaWrite pf ctx sva pasid.toNat)

def State.mmuBusy (s : State) (pf : Nat) : Bool := s.mmu.invs.any fun i => i.by_ == .mmu pf
/-- A write of MMU_INV_CMD: SCOPE 0 a context, 1 a range of it from MMU_INV_ADDR on, 2 every context of the function. -/
def State.mmuInv (s : State) (pf v : Nat) : State :=
  if s.mmuBusy pf then s
  else
    let s := { s with mmu := { s.mmu with invCmd := tput s.mmu.invCmd pf (v - atBit (fld v 8 2) 8 2) } }
    let c := fld v 0 8
    let mine := if s.pfCtx pf c then [c] else []
    let va := tget s.mmu.invAddr pf / 4096 * 4096
    match fld v 30 2 with
    | 0 => s.startInval (.mmu pf) (fun e => mine.contains e.ctx) mine
    | 1 => s.startInval (.mmu pf) (fun e => e.within mine false va (4096 * (fld v 10 20 + 1))) mine
    | 2 => let cs := (upto 0 256).filter (s.pfCtx pf); s.startInval (.mmu pf) (fun e => cs.contains e.ctx) cs
    | _ => s
def execMmuInvContext (pf : HostIx) (ctx : CtxIx) (s : State) : Res := .next (s.mmuInv pf ctx)
def execMmuInvRange (pf : HostIx) (ctx : CtxIx) (va : BitVec 64) (pages : BitVec 20) (s : State) : Res :=
  .next ((if s.mmuBusy pf then s else { s with mmu := { s.mmu with invAddr := tput s.mmu.invAddr pf (va.toNat / 4096 * 4096) } }).mmuInv pf (2 ^ 30 + pages.toNat * 2 ^ 10 + ctx))
def execMmuInvFunction (pf : HostIx) (s : State) : Res := .next (s.mmuInv pf (2 ^ 31))

/-! ### A tile's invalidations (R440) -/

def State.xtcBusy (s : State) (t : Nat) : Bool := s.mmu.invs.any fun i => i.by_ == .tile t
/-- A write of XTC_INV_CMD. -/
def State.xtcInv (s : State) (t v : Nat) : State :=
  if s.xtcBusy t || s.tag t == 0 then s
  else
    let s := s.modTile t fun T => T.setReg 0xB0A (atBit (fld v 31 1) 31 1 + fld v 0 20)
    let T := s.tile t
    let c := s.tileCtx t
    let va := (T.reg 0xB08 + T.reg 0xB09 * 2 ^ 32) / 4096 * 4096
    s.startInval (.tile t) (fun e => e.within [c] (bit v 31) va (4096 * (fld v 0 20 + 1))) [c]
def execXtcInvAll (t : TileIx) (s : State) : Res := .next (s.xtcInv t (2 ^ 31))
def execXtcInvRange (t : TileIx) (va : BitVec 64) (pages : BitVec 20) (s : State) : Res :=
  .next ((if s.xtcBusy t then s else s.modTile t fun T => (T.setReg 0xB08 (fld va.toNat 12 20 * 4096)).setReg 0xB09 (fld va.toNat 32 32)).xtcInv t pages.toNat)

/-! ### Completion of invalidations (R398, R402) -/

/-- Is an access under a dropped entry still to be performed? Requests keep the place they were translated to. -/
def State.placesBusy (s : State) (i : Inval) : Bool :=
  let hits := fun (target a n : Nat) => i.places.any fun p => p.1 == target && decide (a < p.2.1 + p.2.2) && decide (p.2.1 < a + n)
  (s.tiles.any fun e => e.2.net.requests.any fun q =>
    (q.pkt.typ == .memRead || q.pkt.typ == .memWrite) && i.ctxs.contains q.pkt.context &&
      hits (if (upto 0 4).any fun k => hostNode k == q.pkt.dst then 1 else 0) (if (upto 0 4).any fun k => hostNode k == q.pkt.dst then q.pkt.addr % 2 ^ 63 else q.pkt.addr % 2 ^ 42) (32 * max 1 q.pkt.words))
  || (upto 0 4).any fun k => (s.port k).reads.any fun r => hits 1 r.addr r.n

/-- INVALIDATION_COMPLETE: the oldest invalidation of those a requester has under way. -/
def State.invalDone (s : State) (i : Inval) : State :=
  if s.placesBusy i then s
  else
    let s := { s with mmu := { s.mmu with invs := s.mmu.invs.erase i } }
    match i.by_ with
    | .mmu pf => { s with mmu := { s.mmu with invDone := tput s.mmu.invDone pf ((tget s.mmu.invDone pf + 1) % 2 ^ 16) } }
    | .tile _ => s
    | .ats fn tag => s.emit (.ats (portOfFn fn) 2 fn tag)
    | .cmd fn q no free =>
      let s := s.freeFrames free
      match (s.queue fn q).fetched.find? fun f => f.no == no with
      | some f => s.finish { fn := fn, queue := q, no := no, id := f.c.id.toNat } 0 0 0 0
      | none => s
def execInvalidationComplete (n : BitVec 16) (s : State) : Res :=
  match s.mmu.invs[n.toNat]? with
  | none => .next s
  | some i => .next (s.invalDone i)

/-! ### Fault records (R416-R419, R438, R439) -/

def faultRecord (s : State) (f : Fault') : Nat :=
  f.id + f.va % 2 ^ 56 * 2 ^ 64 + f.kind * 2 ^ 128 + b01 f.write * 2 ^ 132 + b01 f.sva * 2 ^ 133 + f.ctx * 2 ^ 136 + f.pad * 2 ^ 144 + f.lid * 2 ^ 160 + s.time % 2 ^ 64 * 2 ^ 192
/-- The tile that holds the handler core of a job: the member of HANDLER_RANK. -/
def State.handlerTile (s : State) (j : Nat) : Option Nat := ((s.members (s.job j).paddock)[(s.job j).img.handlerRank]?).bind s.tileOf

/-- FAULT_RECORD_WRITE: the oldest unrecorded fault of a context is written to its queue, or waits for room. The handler is told
once the record is performed. -/
def execFaultRecordWrite (ctx : CtxIx) (s : State) : Res :=
  match s.mmu.faults.find? fun f => f.ctx == ctx.val && !f.recorded with
  | none => .next s
  | some f =>
    let m := s.mmuCtx ctx
    let size := 2 ^ m.log2
    if (m.tail + 1) % size = m.head then
      .next (if m.fqFull then s else (s.setMmuCtx ctx { m with fqFull := true }).ctxEvent 0x4003 ctx [])
    else
      let s := s.storeWord (hbmAddrKey (m.fqBase + 32 * m.tail)) (toBytes (faultRecord s f) 32) false
      let s := s.setMmuCtx ctx { m with tail := (m.tail + 1) % size, fqFull := false }
      let s := { s with mmu := { s.mmu with faults := s.mmu.faults.map fun x => if x.id = f.id then { x with recorded := true } else x } }
      let j := f.id / 2 ^ 32
      if f.toCore then
        .next (match s.handlerTile j with
          | some t => { s with net := { s.net with faultNotes := s.net.faultNotes ++ [(t, f.id, f.kind)] } }
          | none => s)
      else .next (if m.intEn then s.emit (.msix (s.ctx ctx).fn m.vector) else s)

/-- FAULT_NOTE: the oldest notice on its way to a tile arrives; beyond 64 it is discarded. -/
def execFaultNote (t : TileIx) (s : State) : Res :=
  match s.net.faultNotes.find? fun n => n.1 == t.val with
  | none => .next s
  | some n =>
    let s := { s with net := { s.net with faultNotes := s.net.faultNotes.erase n } }
    if (s.tile t).notes.length ≥ 64 then .next (s.modTile t fun T => T.orReg 0xB01 (2 ^ 31))
    else .next (s.modTile t fun T => { T with notes := T.notes ++ [(n.2.1, n.2.2)] })

/-- Is a core the handler core that its running image names? -/
def State.isHandler (s : State) (u : CoreId) : Bool :=
  let img := (s.job (s.tileJob u.tile)).img
  img.faultCore && img.handlerRank == s.rank u.tile && img.handlerCore == u.core.val && s.tileJob u.tile != 0
/-- A resolution through a register for a context: 0 done, else it is ignored and flagged, with event 0x4006 where it names no
fault ever outstanding. -/
def State.regResolve (s : State) (c id : Nat) (retry : Bool) : Bool × State :=
  let open_ := s.mmu.faults.any fun f => f.id == id && f.ctx == c
  let was := s.mmu.resolvedIds.contains id && (s.job (id / 2 ^ 32)).ctx == c
  if open_ then (true, (s.resolve id retry).2)
  else (false, if was then s else s.ctxEvent 0x4006 c [id])
/-- A write of FQ_RES_CMD. -/
def State.fqRes (s : State) (pf c id : Nat) (retry : Bool) : State :=
  if !s.pfCtx pf c then s
  else
    let m := s.mmuCtx c
    let s := s.setMmuCtx c { m with res := id }
    let (ok, s) := s.regResolve c id retry
    if ok then s else s.setMmuCtx c { (s.mmuCtx c) with badRes := true }
/-- A write of FLT_RES_CMD by the handler core. -/
def State.fltRes (s : State) (u : CoreId) (id : Nat) (retry : Bool) : State :=
  if !s.isHandler u then s
  else
    let s := s.modTile u.tile fun T => (T.setReg 0xB04 (id % 2 ^ 32)).setReg 0xB05 (id / 2 ^ 32 % 2 ^ 32)
    let (ok, s) := s.regResolve (s.tileCtx u.tile) id retry
    if ok then s else s.modTile u.tile fun T => T.orReg 0xB01 (2 ^ 30)

def execFqHeadWrite (pf : HostIx) (ctx : CtxIx) (head : BitVec 16) (s : State) : Res := .next (if s.pfCtx pf ctx then s.setFqHead ctx head.toNat else s)
def execFqResRetry (pf : HostIx) (ctx : CtxIx) (id : BitVec 64) (s : State) : Res := .next (s.fqRes pf ctx id.toNat true)
def execFqResFail (pf : HostIx) (ctx : CtxIx) (id : BitVec 64) (s : State) : Res := .next (s.fqRes pf ctx id.toNat false)
def execFltResRetry (u : CoreId) (id : BitVec 64) (s : State) : Res := .next (s.fltRes u id.toNat true)
def execFltResFail (u : CoreId) (id : BitVec 64) (s : State) : Res := .next (s.fltRes u id.toNat false)
/-- A read of FLT_NOTE_LO: the oldest notice leaves, its upper half is captured. -/
def State.fltNote (s : State) (u : CoreId) : Nat × State :=
  if !s.isHandler u then (0, s)
  else
    let n := ((s.tile u.tile).notes.headD (0, 0)).1
    let s := s.modTile u.tile fun T => { T with notes := T.notes.drop 1 }
    (n % 2 ^ 32, s.modCore u fun c => { c with shadow := tput c.shadow 0xB02 (some (n / 2 ^ 32 % 2 ^ 32)) })
def execFltNoteRead (u : CoreId) (s : State) : Res :=
  let (v, s) := s.fltNote u
  .next (s.emit (.regRead (readerCore u) 0xB02 v))
/-- A write of FLT_HEAD. -/
def State.fltHead (s : State) (u : CoreId) (v : Nat) : State :=
  if s.isHandler u then (s.modTile u.tile fun T => T.setReg 0xB07 (v % 2 ^ 16)).setFqHead (s.tileCtx u.tile) (v % 2 ^ 16) else s
def execFltHeadWrite (u : CoreId) (head : BitVec 16) (s : State) : Res := .next (s.fltHead u head.toNat)

/-! ### Pre-emption (R424-R426, R694) -/

/-- LINK_WAIT_SPLIT: the linked pass that enters is split, where its transfer is suspended on a fault or it has waited for its
link for 4,096 ticks. -/
def execLinkWaitSplit (t : TileIx) (s : State) : Res :=
  let T := s.tile t
  match T.seqr.passes.find? fun p => !p.done with
  | none => .next s
  | some p =>
    let w := p.entry.pword
    let held := match (s.chan t w.link).wait with | some h => h.fault.isSome | none => false
    if T.preempting && w.linked && !(T.linkReady w.link p.entry.link p.next).1 && (held || decide (p.linkWait ≥ 4096)) then .next (s.modPass t p.entry.no fun p => { p with split := true }) else .next s

/-- PREEMPT: a member tile is told to stop at its pre-emption points, or released. -/
def execPreempt (t : TileIx) (resume : Bool) (s : State) : Res :=
  let P := s.paddock (s.tag t)
  if resume then .next (if P.preempt then s else s.modTile t fun T => { T with preempting := false, atPoint := false })
  else .next (if P.preempt && !P.frozen then s.modTile t fun T => { T with preempting := true } else s)

/-- Are all units of a tile at their pre-emption points, with no request outstanding? A fenced interface has none to wait for. -/
def State.atPoint (s : State) (t : Nat) : Bool :=
  let T := s.tile t
  (T.net.requests.isEmpty || T.net.fenced) && T.seqr.load.isNone && T.seqr.drain.isNone && (T.seqr.passes.all fun p => p.done || p.split)
    && !(T.arr.waves.any (·.valid))
    && (upto 0 4).all fun k => match neighbour t k with
        | some u => (tget (s.tile u).sched.fifo (opposite k)).all (·.present)
        | none => true
/-- PREEMPT_DONE: a member tile reports its point, its combining buffer flushed; the last report freezes the paddock. -/
def execPreemptDone (t : TileIx) (s : State) : Res :=
  let T := s.tile t
  let p := s.tag t
  if !T.preempting || T.atPoint || !s.atPoint t then .next s
  else
    let s := (s.cbFlushAll t).modTile t fun T => { T with atPoint := true }
    let s := s.modPaddock p fun P => { P with reported := setIns P.reported t }
    let P := s.paddock p
    if P.preempt && !P.frozen && (s.memberTiles p).all P.reported.contains then
      .next ((s.modPaddock p fun P => { P with frozen := true }).onFrozen p).resetSettle
    else .next s

/-- FENCED_TILE_RESET: the resident job of the tile's paddock ends FAILED, FAULTED; then the tile is reset. -/
def execFencedTileReset (t : TileIx) (s : State) : Res :=
  if !(s.tile t).net.fenced then .next s
  else
    let s := match (s.paddock (s.tag t)).resident with
      | some j => if (s.job j).terminal then s else s.failJob j 0x20
      | none => s
    .next (s.resetTile t)

end Sys2Proof.Machine
end

