-- ==== Sys2Proof/Machine/Clocks.lean ====
section
/-! DEFINITION. Changes of FMULT, stretches, the timestamp (R353-R364, R564). -/
namespace Sys2Proof.Machine

/-! ### Changes of FMULT (R359, R362, R564) -/

/-- The links of a region's tiles are calibrated anew: at the next boundary where a segment runs (R362). -/
def State.recalibrate (s : State) (r : Nat) : State :=
  (regionTiles r).foldl (fun s t => (upto 0 4).foldl (fun s d =>
    match neighbour t d with
    | none => s
    | some u =>
      let mark := fun (s : State) (x side : Nat) =>
        if (s.tile x).sched.state == .running then s.modSched x fun q => { q with cal := tmod q.cal side fun c => { c with pending := true } } else s
      mark (mark s t d) u (opposite d)) s) s

/-- FREQUENCY_CHANGE: at a tick boundary the clock is gated and the PLL relocks, once the voltage of a raise is there. -/
def execFrequencyChange (r : RegionIx) (s : State) : Res :=
  let R := s.region r
  match R.pendingFmult with
  | some f =>
    if R.changing.isSome || R.slewTo.isSome || !R.live || R.stopped then .next s
    else .next (s.setRegion r { R with changing := some f, pendingFmult := none, stopped := true, regionLock := false })
  | none => .next s
/-- FREQUENCY_RESTART: the mesh restarts on the new clock, and a lower voltage follows; a region that tripped meanwhile stays
stopped (R588). -/
def execFrequencyRestart (r : RegionIx) (s : State) : Res :=
  let R := s.region r
  match R.changing with
  | none => .next s
  | some f =>
    let s := s.setRegion r { R with changing := none, fmult := f, regionLock := R.live, stopped := !R.live
                                    voltMv := if R.live && f ≤ R.fmult then s.voltFor r f else R.voltMv }
    .next (if R.live then s.recalibrate r else s)
/-- VOLTAGE_SLEW_DONE: the rail of a raise is at its voltage. -/
def execVoltageSlewDone (r : RegionIx) (s : State) : Res :=
  .next (s.modRegion r fun R => match R.slewTo with | some v => { R with voltMv := v, slewTo := none } | none => R)

/-! ### Stretches and the timestamp (R353, R357, R358, R364) -/

/-- A stretched period is counted by its amount in eighths. -/
def Region.stretched (R : Region) (a : Nat) : Region := { R with stretch := tmod R.stretch a (fun n => (n + 1) % 2 ^ 64) }
/-- CLOCK_STRETCH: the period that follows is lengthened by (amount + 1)/8, at most what STRETCH_MAX allows. -/
def execClockStretch (r : RegionIx) (amount : Fin 4) (s : State) : Res :=
  .next (s.modRegion r fun R => if R.power == .on && !R.stopped then R.stretched (min amount.val R.rckStretchMax + 1) else R)
/-- TIMESTAMP_MARKER: the next marker, 40,960 ns less or more up to 20 ns after the last. -/
def execTimestampMarker (step : Fin 41) (s : State) : Res := .next { s with time := (s.time + 40940 + step.val) % 2 ^ 64 }
/-- OSCILLATOR_SWITCH: every PLL stays locked. -/
def execOscillatorSwitch (s : State) : Res :=
  .next ({ s with power := { s.power with oscillator := 1 - s.power.oscillator } }.unitEvent 0x8101 0xFFFF [])

end Sys2Proof.Machine
end

