-- ==== Sys2Proof/Machine/Droves.lean ====
section
/-! DEFINITION. Droves: their trees, sends, forks, acknowledgements and pruned branches (R284, R325-R333). -/
namespace Sys2Proof.Machine

def State.modRouter (s : State) (t : Nat) (f : Router → Router) : State := s.setRouter t (f (s.router t))

/-! ### Trees (R326) -/

/-- A member's count beneath one branch of a router. -/
def forkAdd (tag id timeout : Nat) (tb : Tab (Option Fork)) (t branch : Nat) : Tab (Option Fork) :=
  let f : Fork := (tget tb t).getD { tag := tag, drove := id, beneath := [0, 0, 0, 0, 0], timeout := timeout }
  tput tb t (some { f with mask := f.mask ||| 2 ^ branch, beneath := listMod f.beneath branch (· + 1) })
/-- The counts along a path of tiles. -/
def forkPath (tag id timeout dest : Nat) (tb : Tab (Option Fork)) : List Nat → Tab (Option Fork)
  | [] => tb
  | [_] => tb
  | t :: r => forkPath tag id timeout dest (forkAdd tag id timeout tb t (normalSide t dest)) r
/-- The fork entries of a drove's tree: along the live normal routes; a member whose route is not live is served by unicast
from the last router of the tree on its route before the failure. Members without a tile have no place in it. -/
def State.droveTree (s : State) (root : Nat) (d : Drove) : Tab (Option Fork) :=
  let ms := d.members.filterMap fun l => (s.tileOf l).map fun t => (l, t)
  let live := ms.filter fun e => s.normalLive root e.2
  let base := tput ([] : Tab (Option Fork)) root (some { tag := d.tag, drove := d.id, beneath := [0, 0, 0, 0, 0], timeout := d.timeout })
  let tree := live.foldl (fun tb e =>
    let tb := forkPath d.tag d.id d.timeout e.2 tb (normalPath root e.2 47)
    let tb := forkAdd d.tag d.id d.timeout tb e.2 4
    tput tb e.2 ((tget tb e.2).map fun f => { f with here := e.1 })) base
  (ms.filter fun e => !s.normalLive root e.2).foldl (fun tb e =>
    let part := s.livePart e.2 (normalPath root e.2 47)
    let at_ := ((part.reverse.find? fun t => (tget tree t).isSome).getD root)
    let upToIt := (part.takeWhile (· != at_)) ++ [at_]
    let tb := forkPath d.tag d.id d.timeout e.2 tb upToIt
    tput tb at_ ((tget tb at_).map fun f => { f with uni := f.uni ++ [e.1] })) tree
/-- A drove's fork entries leave every router. -/
def State.dropForks (s : State) (tag id : Nat) : State :=
  { s with net := { s.net with routers := s.net.routers.foldl (fun tb (e : Nat × Router) =>
      if e.2.forks.any fun f => f.tag == tag && f.drove == id then tput tb e.1 { e.2 with forks := e.2.forks.filter fun f => !(f.tag == tag && f.drove == id) } else tb) s.net.routers } }
/-- The entries are written, where every router has room for its own (256 entries). -/
def State.putForks (s : State) (tree : Tab (Option Fork)) : Option State :=
  if tree.any fun e => decide ((s.router e.1).forks.length ≥ 256) then none
  else some (tree.foldl (fun s e => match e.2 with | some f => s.modRouter e.1 fun R => { R with forks := R.forks ++ [f] } | none => s) s)

/-! ### Installing and removing (R325-R327, R348) -/

/-- The tile that holds a drove, removed or not. -/
def State.droveAt (s : State) (tag id : Nat) : Option Nat := (s.tiles.find? fun e => e.2.droves.any fun d => d.id == id && d.tag == tag).map (·.1)
/-- NET_DRV_STAT after an operation. -/
def State.drvResult (s : State) (t result : Nat) : State := s.modTile t fun T => { T.setReg 0xC04 result with net := { T.net with drvBusy := false } }

/-- An install: BAD_ID, EXISTS, BAD_MEMBER and NO_ENTRY are looked for in that order. -/
def State.droveInstall (s : State) (t count id : Nat) : State :=
  let tag := s.tag t
  let off := fld ((s.tile t).reg 0xC03) 0 23
  let n := 2 * count
  let (rs, s) := s.spdReads t .net (upto (off / 32) (cdiv n 32) |>.map (· % 2 ^ 18))
  let bs := rs.flatMap (·.bytes)
  let members := (upto 0 count).map fun i => ofBytes ((bs.drop (2 * i)).take 2)
  let ms := s.members tag
  let distinct := members.foldl setIns []
  if id ≥ 0x1000 then s.drvResult t 6
  else if (s.droveAt tag id).isSome then s.drvResult t 3
  else if rs.any (·.poison) || members.any (fun l => !ms.contains l) || distinct.length != members.length then s.drvResult t 2
  else
    let d : Drove := { id := id, tag := tag, members := members, timeout := max 16 (fld ((s.tile t).reg 0xC01) 0 16) }
    match s.putForks (s.droveTree t d) with
    | none => s.drvResult t 1
    | some s => (s.modTile t fun T => { T with droves := T.droves ++ [d] }).drvResult t 0

/-- A removal whose sends are over is done. -/
def State.droveSettle (s : State) (t : Nat) : State :=
  let T := s.tile t
  match T.droves.find? fun d => d.removing && !(T.sends.any fun x => x.drove == d.id && x.tag == d.tag) with
  | none => s
  | some d => ((s.dropForks d.tag d.id).modTile t fun T => { T with droves := T.droves.filter fun x => !(x.id == d.id && x.tag == d.tag) }).drvResult t 0
/-- A remove: it waits for the drove's sends. -/
def State.droveRemove (s : State) (t id : Nat) : State :=
  let tag := s.tag t
  match s.droveAt tag id with
  | none => s.drvResult t 4
  | some b =>
    if b ≠ t then s.drvResult t 5
    else (s.modTile t fun T => { T with
      droves := T.droves.map fun d => if d.id = id ∧ d.tag = tag then { d with removing := true } else d
      net := { T.net with drvBusy := true } }).droveSettle t

/-- A write of NET_DRV_CMD (R348): ignored while BUSY. -/
def State.droveCmd (s : State) (t v : Nat) : State :=
  if (s.tile t).net.drvBusy then s
  else
    let s := s.modTile t fun T => T.setReg 0xC02 (v % 2 ^ 27)
    if bit v 16 then s.droveRemove t (fld v 0 16) else s.droveInstall t (fld v 17 10 + 1) (fld v 0 16)

/-- DROVE_INSTALL: `members` is MEMBERS, minus one. -/
def execDroveInstall (t : TileIx) (members : BitVec 10) (drove : BitVec 16) (s : State) : Res :=
  .next (s.droveCmd t (members.toNat * 2 ^ 17 + drove.toNat))
def execDroveRemove (t : TileIx) (drove : BitVec 16) (s : State) : Res := .next (s.droveCmd t (2 ^ 16 + drove.toNat))

/-- DROVE_REBUILD: Fufin builds the tree again from the same members, once no send is in progress; the bellwether is the tile
that now holds the drove. Where a router has no room the old tree stays. -/
def execDroveRebuild (tag drove : BitVec 16) (s : State) : Res :=
  match s.droveAt tag.toNat drove.toNat with
  | none => .next s
  | some t =>
    let T := s.tile t
    if T.sends.any fun x => x.drove == drove.toNat && x.tag == tag.toNat then .next s
    else match T.droves.find? fun d => d.id == drove.toNat && d.tag == tag.toNat with
      | none => .next s
      | some d =>
        let s1 := s.dropForks d.tag d.id
        match s1.putForks (s1.droveTree t d) with
        | none => .next s
        | some s => .next s

/-! ### Sends at the bellwether (R328, R332) -/

/-- The report of a send: delivered [15:0], pruned [31:16], a mark delivered [32]; then up to 24 pruned members, lowest first. -/
def droveReport (x : DroveSend) (members : List Nat) : List Word256 :=
  let sorted := members.foldl setIns []
  let lost := sorted.filter fun l => !x.delivered.contains l
  let lids := (lost ++ List.replicate 24 0xFFFF).take 24
  let w0 := x.delivered.length + lost.length * 2 ^ 16 + 2 ^ 32 * b01 x.poisoned
  let packed := natSum ((lids.zip (upto 0 24)).map fun e => e.1 % 2 ^ 16 * 2 ^ (16 * e.2))
  [BitVec.ofNat 256 w0, BitVec.ofNat 256 packed, BitVec.ofNat 256 (packed / 2 ^ 256)]
def DroveSend.is (x : DroveSend) (tag drove txn : Nat) : Bool := x.tag == tag && x.drove == drove && x.txn == txn
def State.modSend (s : State) (b tag drove txn : Nat) (f : DroveSend → DroveSend) : State :=
  s.modTile b fun T => { T with sends := T.sends.map fun x => if x.is tag drove txn then f x else x }

/-- A send whose members are all counted completes: its sender has the report, and a removal may go on. -/
def State.sendSettle (s : State) (b tag drove txn : Nat) : State :=
  let T := s.tile b
  match T.sends.find? (·.is tag drove txn), T.droves.find? fun d => d.id == drove && d.tag == tag with
  | some x, some d =>
    if !x.lastIn || decide (x.delivered.length + x.refused.length + x.prunedCount < d.members.length) then s
    else
      let a : Packet := {
        typ := .droveAck, vc := 1, words := 3, last := true, tag := tag, src := b, dst := x.sender, context := s.tileCtx b, srcLid := s.lidOr b
        dstLid := s.lidOr x.sender, drove := drove, txn := x.senderTxn, data := droveReport x d.members }
      let s := s.modTile b fun T => { T with sends := T.sends.filter fun y => !y.is tag drove txn }
      let s := { s with net := { s.net with routers := s.net.routers.foldl (fun tb (e : Nat × Router) =>
        let k := fun (q : Nat × Nat × Nat × Nat) => q.1 == tag && q.2.1 == drove && q.2.2.1 == txn
        if e.2.pruned.any k then tput tb e.1 { e.2 with pruned := e.2.pruned.filter fun q => !k q } else tb) s.net.routers } }
      (s.tileSend b a).droveSettle b
  | _, _ => s

/-- A packet of a send at the bellwether: it goes into the tree under the send's own transaction number. -/
def State.droveEntry (s : State) (p : Packet) : State :=
  let b := p.dst
  let T := s.tile b
  if p.dstLid ≠ s.lidOr b then s.turnAway p b 2
  else match T.droves.find? fun d => d.id == p.drove && d.tag == p.tag with
  | none => s.turnAway p b 5
  | some d =>
    let mine := fun (x : DroveSend) => x.tag == p.tag && x.drove == p.drove && x.sender == p.src && x.senderTxn == p.txn
    if p.cut then (s.modTile b fun T => { T with sends := T.sends.filter fun x => !mine x }).turnAway p b 4
    else if d.removing && !T.sends.any mine then s.turnAway p b 5
    else
      let s := s.landed p
      let txn := match T.sends.find? mine with | some x => x.txn | none => freeTxn (T.sends.map (·.txn)) 0 4096
      let holes := d.members.filter fun l => (s.tileOf l).isNone
      let s := if T.sends.any mine then s else s.modTile b fun T => { T with
        sends := T.sends ++ [{ tag := p.tag, drove := p.drove, txn := txn, sender := p.src, senderTxn := p.txn, refused := holes.foldl setIns [] }] }
      let s := if p.last then s.modSend b p.tag p.drove txn fun x => { x with lastIn := true } else s
      s.tileSend b { p with vc := 2, src := b, srcLid := s.lidOr b, dst := b, dstLid := 0xFFFF, txn := txn, left := 0 }

/-! ### Forks (R329) -/

/-- A copy for one branch: to the next router, or to the member at the tile's own interface. -/
def branchCopy (t here branch : Nat) (p : Packet) : Option Packet :=
  if branch = 4 then some { p with dst := t, dstLid := here, left := 32 }
  else (neighbour t branch).map fun u => { p with dst := u, left := 0 }
def branchesOf (mask : Nat) : List Nat := (upto 0 5).filter fun b => bit mask b
def maskOf (l : List Nat) : Nat := natSum (l.map fun b => 2 ^ b)
def sameSend (a b : Packet) : Bool := a.tag == b.tag && a.drove == b.drove && a.txn == b.txn
/-- Bytes that a copy takes of the fork buffer. -/
def copyBytes (p : Packet) : Nat := 32 + 32 * p.data.length

/-- A packet at the head of a router's BV2 input. `waiting` are the branches without credit; a branch with an earlier copy of
the send in the buffer, or whose link has failed, waits too. -/
def State.forkPacket (s : State) (p : Packet) (waiting : Nat) : State :=
  let t := p.dst
  let R := s.router t
  match R.forks.find? fun f => f.tag == p.tag && f.drove == p.drove with
  | none => s.landed p
  | some f =>
    let all := if p.left = 0 then f.mask else p.left
    let want := (branchesOf all).filter fun b => !R.pruned.contains (p.tag, p.drove, p.txn, b)
    let held := fun b => bit waiting b || (R.forkBuf.any fun e => bit e.1 b && sameSend e.2 p) || (s.net.flight.any fun q => q != p && q.typ == .droveData && q.vc == 2 && q.dst == t && q.left != 32 && bit q.left b && sameSend q p) || (b != 4 && !s.linkLive t b)
    let go := want.filter fun b => !held b
    let stuck := want.filter held
    let uni := if p.left = 0 then f.uni.filterMap fun l => (s.tileOf l).map fun u => { p with vc := 3, dst := u, dstLid := l, left := 32 } else []
    let copies := go.filterMap (fun b => branchCopy t f.here b p) ++ uni
    let used := natSum (R.forkBuf.map fun e => copyBytes e.2)
    let s := if stuck.isEmpty then s.landed p
      else if used + copyBytes p ≤ 4096 then (s.landed p).modRouter t fun R => { R with forkBuf := R.forkBuf ++ [(maskOf stuck, p)] }
      else s.reflight p { p with left := maskOf stuck }
    copies.foldl State.launch s

/-- DROVE_DATA: at its member's interface, at a fork, or at the bellwether. -/
def execDroveData (p : Packet) (waiting : BitVec 5) (s : State) : Res :=
  if p.typ ≠ .droveData ∨ p.dst ≥ 576 then .next s
  else if p.left = 32 then .next (s.arrive p)
  else if p.vc = 2 then .next (s.forkPacket p waiting.toNat)
  else if (s.tile p.dst).net.fenced then .next s
  else .next (s.droveEntry p)

/-- FORK_BUFFER_SEND: a waiting branch has gained credit; its oldest copy leaves the buffer. -/
def execForkBufferSend (t : TileIx) (branch : Fin 5) (s : State) : Res :=
  let R := s.router t
  match R.forkBuf.find? fun e => bit e.1 branch with
  | none => .next s
  | some e =>
    let here := ((R.forks.find? fun f => f.tag == e.2.tag && f.drove == e.2.drove).map (·.here)).getD 0xFFFF
    let e' := (e.1 - 2 ^ branch.val, e.2)
    let buf := if e'.1 = 0 then R.forkBuf.erase e else R.forkBuf.map fun x => if x = e then e' else x
    let s := s.setRouter t { R with forkBuf := buf }
    .next (match branchCopy t here branch e.2 with | some q => s.launch q | none => s)

/-- DROVE_BRANCH_PRUNE: a branch has lacked credit for a packet of a send through a whole drove timeout; it is pruned for that
send (R330). -/
def execDroveBranchPrune (t : TileIx) (branch : Fin 5) (p : Packet) (s : State) : Res :=
  let R := s.router t
  let pendingIn := fun (q : Packet) => q.typ == .droveData && q.vc == 2 && q.dst == t.val && q.left != 32 && bit q.left branch && sameSend q p
  let inBuf := R.forkBuf.any fun e => bit e.1 branch && sameSend e.2 p
  if !inBuf && !(s.net.flight.any pendingIn) then .next s
  else
    let f := (R.forks.find? fun f => f.tag == p.tag && f.drove == p.drove).getD {}
    let first := !(R.pruned.any fun q => q.1 == p.tag && q.2.1 == p.drove && q.2.2.1 == p.txn)
    let buf := R.forkBuf.filterMap fun e =>
      if bit e.1 branch && sameSend e.2 p then (if e.1 = 2 ^ branch.val then none else some (e.1 - 2 ^ branch.val, e.2)) else some e
    let s := s.setRouter t { R with forkBuf := buf, pruned := (p.tag, p.drove, p.txn, branch.val) :: R.pruned }
    let less := fun (q : Packet) => if pendingIn q then (if q.left = 2 ^ branch.val then none else some { q with left := q.left - 2 ^ branch.val }) else some q
    let s := { s with net := { s.net with flight := s.net.flight.filterMap less } }
    let note : Packet := {
      typ := .pruneNote, vc := 1, words := 1, tag := p.tag, src := t, dst := p.src, context := p.context, dstLid := p.srcLid, srcLid := s.lidOr t
      drove := p.drove, txn := p.txn, data := [BitVec.ofNat 256 (f.beneath.getD branch 0 % 1024 + branch.val * 1024)] }
    let s := s.launch note
    .next (if first then s.tileEvent t 0x3004 0xFFFF [p.drove, branch.val] else s)

/-! ### Acknowledgements (R331, R332) -/

/-- DROVE_ACK: a report to a sender, or a member's acknowledgement at the bellwether. -/
def execDroveAck (p : Packet) (s : State) : Res :=
  if p.typ ≠ .droveAck then .next s
  else if p.dst ≥ 576 then .next (s.landed p)
  else if (s.tile p.dst).net.fenced then .next s
  else if p.last then
    let s := if fld (p.data.getD 0 0).toNat 16 16 ≠ 0 then s.modTile p.dst fun T => T.orReg 0xC05 4 else s
    .next (s.response p)
  else
    let s := s.landed p
    let w := (p.data.getD 0 0).toNat
    let lid := fld w 0 16
    let s := s.modSend p.dst p.tag p.drove p.txn fun x =>
      if x.delivered.contains lid || x.refused.contains lid then x
      else if bit w 16 || p.status != 0 then { x with refused := setIns x.refused lid }
      else { x with delivered := setIns x.delivered lid, poisoned := x.poisoned || bit w 17 }
    .next (s.sendSettle p.dst p.tag p.drove p.txn)

/-- PRUNE_NOTE: the members beneath a pruned branch are counted. -/
def execPruneNote (p : Packet) (s : State) : Res :=
  if p.typ ≠ .pruneNote then .next s
  else if p.dst ≥ 576 then .next (s.landed p)
  else if (s.tile p.dst).net.fenced then .next s
  else
    let s := (s.landed p).modSend p.dst p.tag p.drove p.txn fun x => { x with prunedCount := x.prunedCount + fld (p.data.getD 0 0).toNat 0 10 }
    .next (s.sendSettle p.dst p.tag p.drove p.txn)

end Sys2Proof.Machine
end

