-- ==== Sys2Proof/Machine/Channels.lean ====
section
/-! DEFINITION. The transfer and dispatch instructions at issue: handles, rejections, tickets, waits (R251-R265, R279-R288). -/
namespace Sys2Proof.Machine

/-! ### Handles (R265) -/

def handleWord (kind pad ix : Nat) : Nat := atBit kind 60 4 + atBit pad 32 16 + atBit ix 0 8
/-- The INDEX of an open handle of a kind that names the core's own paddock. -/
def State.handle (s : State) (u : CoreId) (q kind limit : Nat) : Option Nat :=
  let h := (s.core u).qr q
  let ix := fld h 0 8
  if h = handleWord kind (s.tag u.tile) ix ∧ ix < limit then some ix else none
/-- The channel that a handle names, where this core holds it. -/
def State.chanOf (s : State) (u : CoreId) (q : Nat) : Option Nat :=
  (s.handle u q 2 16).filter fun c => (s.chan u.tile c).open_ && (s.chan u.tile c).owner == u.core.val
/-- The layer slot that a handle names, where its paddock holds it or a DLAYER of the paddock waits for it. -/
def State.slotOf (s : State) (u : CoreId) (q : Nat) : Option Nat :=
  let p := s.tag u.tile
  (s.handle u q 3 2).filter fun k =>
    let L := s.slot (regionOf u.tile) k
    L.heldBy == some p || L.queue.any fun e => e.op == .dlayer && s.tag e.tile == p
/-- The unit that a rejected instruction's ticket names (R253). -/
def State.rejectUnit (s : State) (u : CoreId) (q kind : Nat) : Nat :=
  let h := (s.core u).qr q
  if kind = 2 then unitChan (if fld h 60 4 = 2 then fld h 0 4 else 0) else unitSlot (if fld h 60 4 = 3 then fld h 0 1 else 0)

/-! ### XOPEN and XCLOSE -/

/-- A status word at once, an error being recorded. -/
def State.answerNow (s : State) (u : CoreId) (op rd code : Nat) (poisoned : Bool) : CoreRes :=
  let s := if code = 0 then s else s.noteReject u op code 0
  .done (s.modCore u fun c => c.setG rd (statusWord code 0 { poisoned := poisoned }) false)

def execXopen (u : CoreId) (rd ra rb : Fin 32) (p : Fin 8) (q : Fin 8) (s : State) : Res :=
  s.issue u (drIssue 0x28 rd ra rb p q 0 (rb != 0)) fun s =>
    let c := s.core u
    let x := c.gr ra
    if c.gBad ra || fld x 4 4 != 0 || decide (x ≥ 2 ^ 9) then s.answerNow u 0x28 rd 0x19 (c.gBad ra)
    else
      let free := fun (n : Nat) => !(s.chan u.tile n).open_ && (s.chan u.tile n).queue.isEmpty
      match (if bit x 8 then (upto 0 16).find? free else (some (fld x 0 4)).filter free) with
      | none => s.answerNow u 0x28 rd 0x1A false
      | some n =>
        let s := s.modChan u.tile n fun x => { open_ := true, owner := u.core, linkNo := x.linkNo, linkBase := x.linkNo, links := x.links }
        (s.modCore u fun c => c.setQ q (handleWord 2 (s.tag u.tile) n)).answerNow u 0x28 rd 0 false

def execXclose (u : CoreId) (rd ra rb : Fin 32) (p : Fin 8) (q : Fin 8) (s : State) : Res :=
  s.issue u (drIssue 0x28 rd ra rb p q 1 (rd != 0 || ra != 0 || rb != 0)) fun s =>
    match s.chanOf u q with
    | none => .done (s.noteReject u 0x28 0x18 0)
    | some n =>
      if !(s.chan u.tile n).queue.isEmpty then .wait s
      else .done ((s.modChan u.tile n fun x => { linkNo := x.linkNo, linkBase := x.linkNo, links := x.links }).modCore u fun c => c.setQ q 0)

/-! ### Transfers -/

/-- A transfer joins its channel: it waits while the queue is full. XCOPY and XSPARSE are numbered for the passes linked to
them (R276). -/
def State.acceptX (s : State) (u : CoreId) (rd n : Nat) (e : XEntry) : CoreRes :=
  if (s.chan u.tile n).queue.length ≥ 8 then .wait s
  else
    let (seq, s) := s.takeTicket u rd (unitChan n)
    let linked := match e.op with | .xput | .xsend | .dreturn => false | _ => true
    let no := (s.chan u.tile n).linkNo + 1
    let e := { e with core := u.core, seq := seq, stamp := (s.core u).retired, link := if linked then no else 0 }
    let s := s.modChan u.tile n fun x =>
      let x := { x with queue := x.queue ++ [e] }
      if linked then { x with linkNo := no, links := (x.links.reverse.take 9).reverse ++ [{ no := no, op := e.op }] } else x
    .done (s.engine u.tile)

/-- Does any byte of the far surface lie outside its kind's space? -/
def farOutside (kind a : Nat) (cs : List Chunk) : Bool :=
  let base := if kind = 0 then a else fld a 0 23
  let top : Int := if kind = 0 then 2 ^ 56 else 2 ^ 23
  cs.any fun k => decide ((base : Int) + k.far < 0 ∨ (base : Int) + k.far + 32 > top)

/-- XCOPY (R281). -/
def State.xcopy (s : State) (u : CoreId) (rd ra td z p q funct dir : Nat) : Res :=
  let full := 2 * funct + dir
  let kind := fld full 1 2
  s.issue u (dtIssue 0x29 rd ra td z p q full (kind == 3)) (skip := fun s => s.skipped u false) fun s =>
    let c := s.core u
    let bad := c.gBad ra
    let a := c.gr ra
    let bits := c.tr td
    let e : XEntry := { op := if dir = 0 then .get else .put, instr := encDT 0x29 rd ra td z p q full, ra := a, desc := bits }
    let dbad := s.descRefused u false bits
    let n := s.chanOf u q
    match rejectCode [
        (0x19, bad || (bit full 3 && kind == 0) || a % 32 != 0 || farBad (min kind 1) a || (!dbad && farOutside (min kind 1) a e.chunks)),
        (0x18, n.isNone), (0x14, dbad)] with
    | some k => s.reject u 0x29 rd (s.rejectUnit u q 2) k bad
    | none => s.acceptX u rd (n.getD 0) e
def execXcopyGet (u : CoreId) (rd ra : Fin 32) (td : Fin 16) (z : Fin 2) (p : Fin 8) (q : Fin 8) (funct : Fin 16) (s : State) : Res :=
  s.xcopy u rd ra td z p q funct 0
def execXcopyPut (u : CoreId) (rd ra : Fin 32) (td : Fin 16) (z : Fin 2) (p : Fin 8) (q : Fin 8) (funct : Fin 16) (s : State) : Res :=
  s.xcopy u rd ra td z p q funct 1

def execXput (u : CoreId) (rd ra rb : Fin 32) (p : Fin 8) (q : Fin 8) (funct : Fin 32) (s : State) : Res :=
  let wide := bit funct 0
  s.issue u (drIssue 0x2C rd ra rb p q funct (decide (funct.val > 1)) (if wide then [rb + 1] else [])) (skip := fun s => s.skipped u false) fun s =>
    let c := s.core u
    let bad := c.gBad ra
    let a := c.gr ra
    let n := s.chanOf u q
    match rejectCode [
        (0x19, bad || farBad 1 a || a % (if wide then 16 else 8) != 0 || (wide && rb.val % 2 != 0)), (0x18, n.isNone)] with
    | some k => s.reject u 0x2C rd (s.rejectUnit u q 2) k bad
    | none =>
      let hi := if wide then rb.val + 1 else 0
      s.acceptX u rd (n.getD 0) { op := .xput, instr := encDR 0x2C rd ra rb p q funct, ra := a, rb := c.gr rb, rb1 := if wide then c.gr hi else 0
                                  rbPoison := c.gBad rb || (wide && c.gBad hi) }

/-- XSPARSE (R283): the parameter block is read at issue. -/
def State.xsparse (s : State) (u : CoreId) (rd ra td z p q funct op : Nat) (kind : XOp) : Res :=
  let full := 8 * funct + op
  s.issue u (dtIssue 0x2A rd ra td z p q full (bit full 4 || (bit full 3 && op != 0))) (skip := fun s => s.skipped u false) fun s =>
    let c := s.core u
    let a := c.gr ra
    let bits := c.tr td
    let d := Desc.ofNat bits
    let n := s.chanOf u q
    let out := decide (a % 32 ≠ 0 ∨ a + 64 > 2 ^ 23)
    if !c.gBad ra && !out && (s.tile u.tile).rangeBlocked a 64 then .wait s
    else
      let (b, _, s) := if c.gBad ra || out then ([], false, s) else s.xferMarked u.tile a 64
      let par := bytesNat b
      let bad := c.gBad ra || b.any (·.2)
      let x := SparseP.ofNat par
      let nm := kind == .packNm || kind == .unpackNm
      let gather := kind == .unpackGather
      let expand := kind == .unpackExpand
      let fars := [x.values, x.index] ++ (if d.hasScale then [x.scales] else []) ++ (if nm then [] else [x.rowptr])
      let blocks := x.i1 - x.i0 + 1
      match rejectCode [
          (0x19, bad || out || x.reserved || decide (x.far > 2) || decide (x.h > 3) || (nm && (x.c == 0 || x.s == 0 || x.s == 3)) ||
                 (fars.any (farBad x.far)) || (!nm && decide (x.i0 > x.i1)) || (expand && decide (x.j0 > x.j1)) || (gather && decide (x.list % 32 ≠ 0 ∨ x.list ≥ 2 ^ 23))),
          (0x18, n.isNone), (0x14, s.descRefused u false bits), (0x10, nm && !loadRateOk d.fmt x.c), (0x11, nm && x.s == 2 && x.c == 1),
          (0x15, if nm then d.cols != 64 * x.c || d.rows != 64 * x.nm
                 else if gather then d.cols != 64
                 else if expand then d.cols != 64 * (x.j1 - x.j0 + 1) || decide (d.rows * d.planes < blocks * x.rows)
                 else d.cols % 64 != 0 || decide (d.rows * d.planes < blocks * x.rows))] with
      | some k => s.reject u 0x2A rd (s.rejectUnit u q 2) k bad
      | none => s.acceptX u rd (n.getD 0) { op := kind, instr := encDT 0x2A rd ra td z p q full, ra := a, desc := bits, par := par }
def execPackNm (u : CoreId) (rd ra : Fin 32) (td : Fin 16) (z : Fin 2) (p : Fin 8) (q : Fin 8) (funct : Fin 4) (s : State) : Res :=
  s.xsparse u rd ra td z p q funct 0 .packNm
def execUnpackNm (u : CoreId) (rd ra : Fin 32) (td : Fin 16) (z : Fin 2) (p : Fin 8) (q : Fin 8) (funct : Fin 4) (s : State) : Res :=
  s.xsparse u rd ra td z p q funct 1 .unpackNm
def execPackBcr (u : CoreId) (rd ra : Fin 32) (td : Fin 16) (z : Fin 2) (p : Fin 8) (q : Fin 8) (funct : Fin 4) (s : State) : Res :=
  s.xsparse u rd ra td z p q funct 2 .packBcr
def execUnpackBcrGather (u : CoreId) (rd ra : Fin 32) (td : Fin 16) (z : Fin 2) (p : Fin 8) (q : Fin 8) (funct : Fin 4) (s : State) : Res :=
  s.xsparse u rd ra td z p q funct 3 .unpackGather
def execUnpackBcrExpand (u : CoreId) (rd ra : Fin 32) (td : Fin 16) (z : Fin 2) (p : Fin 8) (q : Fin 8) (funct : Fin 4) (s : State) : Res :=
  s.xsparse u rd ra td z p q funct 4 .unpackExpand

def execXsend (u : CoreId) (rd ra : Fin 32) (td : Fin 16) (z : Fin 2) (p : Fin 8) (q : Fin 8) (funct : Fin 32) (s : State) : Res :=
  s.issue u (dtIssue 0x2B rd ra td z p q funct (funct.val % 8 != 0)) (skip := fun s => s.skipped u false) fun s =>
    let c := s.core u
    let bad := c.gBad ra
    let a := c.gr ra
    let bits := c.tr td
    let e : XEntry := { op := .xsend, instr := encDT 0x2B rd ra td z p q funct, ra := a, desc := bits }
    let dbad := s.descRefused u false bits
    let n := s.chanOf u q
    match rejectCode [
        (0x19, bad || fld a 16 16 != 0 || decide (a ≥ 2 ^ 55) || fld a 32 5 != 0 || (!dbad && farOutside 1 (fld a 32 23) e.chunks)),
        (0x18, n.isNone), (0x14, dbad)] with
    | some k => s.reject u 0x2B rd (s.rejectUnit u q 2) k bad
    | none => s.acceptX u rd (n.getD 0) e

/-! ### Dispatch instructions (R286-R288) -/

/-- Step state of a slot once every queued instruction of a paddock has run: 0 no open step, 1 open, 2 flushed. -/
def State.slotPhase (s : State) (r k p : Nat) : Nat :=
  let L := s.slot r k
  let now := if L.heldBy != some p then 0 else if L.stepOpen then 1 else if !L.stepDone then 2 else 0
  (L.queue.filter fun e => s.tag e.tile == p).foldl (fun ph e =>
    match e.op with | .dlayer => 0 | .dstep => 1 | .dflush => (if ph = 1 then 2 else ph) | _ => ph) now

/-- A dispatch instruction joins its slot's queue: it waits while the queue is full. -/
def State.acceptD (s : State) (u : CoreId) (rd k : Nat) (op : DOp) (a b : Nat) (then_ : State → State := id) : CoreRes :=
  let r := regionOf u.tile
  if (s.slot r k).queue.length ≥ 8 then .wait s
  else
    let (seq, s) := s.takeTicket u rd (unitSlot k)
    let e : DEntry := { op := op, tile := u.tile, core := u.core, seq := seq, ra := a, rb := b, stamp := (s.core u).retired }
    .done ((then_ (s.modSlot r k fun L => { L with queue := L.queue ++ [e] })).dispatch r)

def execDlayer (u : CoreId) (rd ra rb : Fin 32) (p : Fin 8) (q : Fin 8) (s : State) : Res :=
  s.issue u (drIssue 0x2D rd ra rb p q 0 false) (skip := fun s => s.skipped u false) fun s =>
    let c := s.core u
    let a := c.gr ra
    let k := c.gr rb
    let out := c.gBad ra || c.gBad rb || decide (a + 64 > 2 ^ 23 ∨ k > 1)
    if !out && (s.tile u.tile).rangeBlocked a 64 then .wait s
    else
      let (b, s) := if out then ([], s) else s.unitRead u.tile a 64
      let bad := c.gBad ra || c.gBad rb || b.any (·.2)
      match rejectCode [(0x19, out || bad || ldescBad (bytesNat b)), (0x1A, s.slotPhase (regionOf u.tile) k (s.tag u.tile) == 1)] with
      | some code => s.reject u 0x2D rd (unitSlot (k % 2)) code bad
      | none => s.acceptD u rd k .dlayer a k fun s => s.modCore u fun c => c.setQ q (handleWord 3 (s.tag u.tile) k)

def execDrelease (u : CoreId) (rd ra rb : Fin 32) (p : Fin 8) (q : Fin 8) (s : State) : Res :=
  s.issue u (drIssue 0x2D rd ra rb p q 1 (rd != 0 || ra != 0 || rb != 0)) fun s =>
    match s.slotOf u q with
    | none => .done (s.noteReject u 0x2D 0x18 0)
    | some k =>
      let r := regionOf u.tile
      let L := s.slot r k
      if (L.queue.any fun e => s.tag e.tile == s.tag u.tile) || L.stepOpen || !L.idle then .wait s
      else
        let s := s.modSlot r k fun L => { queue := L.queue }
        .done ((s.modCore u fun c => c.setQ q 0).dispatch r)

/-- A dispatch instruction on an open slot handle. -/
def State.dslot (s : State) (u : CoreId) (rd ra rb p q funct : Nat) (bad : Bool) (op : DOp) (arg : Nat → Nat → Bool) (state : Nat → Bool) : Res :=
  s.issue u (drIssue 0x2D rd ra rb p q funct bad) (skip := fun s => s.skipped u false) fun s =>
    let c := s.core u
    let pois := c.gBad ra || c.gBad rb
    let a := c.gr ra
    let b := c.gr rb
    let k := s.slotOf u q
    match rejectCode [(0x19, pois || arg a b), (0x18, k.isNone), (0x1A, state (s.slotPhase (regionOf u.tile) (k.getD 0) (s.tag u.tile)))] with
    | some code => s.reject u 0x2D rd (s.rejectUnit u q 3) code pois
    | none => s.acceptD u rd (k.getD 0) op a b
def execDstep (u : CoreId) (rd ra rb : Fin 32) (p : Fin 8) (q : Fin 8) (s : State) : Res :=
  s.dslot u rd ra rb p q 2 (rb != 0) .dstep (fun a _ => decide (a ≥ 2 ^ 16)) fun ph => ph == 1
def execDgate (u : CoreId) (rd ra rb : Fin 32) (p : Fin 8) (q : Fin 8) (s : State) : Res :=
  s.dslot u rd ra rb p q 3 false .dgate (fun a b => decide (b < 1 ∨ b > 16384 ∨ a + 32 * b > 2 ^ 23)) fun ph => ph != 1
def execDflush (u : CoreId) (rd ra rb : Fin 32) (p : Fin 8) (q : Fin 8) (s : State) : Res :=
  s.dslot u rd ra rb p q 4 (ra != 0 || rb != 0) .dflush (fun _ _ => false) fun ph => ph != 1
def execDspill (u : CoreId) (rd ra rb : Fin 32) (p : Fin 8) (q : Fin 8) (s : State) : Res :=
  s.dslot u rd ra rb p q 5 (ra != 0 || rb != 0) .dspill (fun _ _ => false) fun _ => false

def execDreturn (u : CoreId) (rd ra rb : Fin 32) (p : Fin 8) (q : Fin 8) (s : State) : Res :=
  s.issue u (drIssue 0x2D rd ra rb p q 6 false) (skip := fun s => s.skipped u false) fun s =>
    let c := s.core u
    let bad := c.gBad ra || c.gBad rb
    let a := c.gr ra
    let b := c.gr rb
    let n := s.chanOf u q
    match rejectCode [
        (0x19, bad || fld b 23 1 != 0 || fld b 28 4 != 0 || decide (b ≥ 2 ^ 48) || fld b 0 5 != 0 || a % 32 != 0 || decide (a + 32 * fld b 32 16 > 2 ^ 23)),
        (0x18, n.isNone)] with
    | some k => s.reject u 0x2D rd (s.rejectUnit u q 2) k bad
    | none => s.acceptX u rd (n.getD 0) { op := .dreturn, instr := encDR 0x2D rd ra rb p q 6, ra := a, rb := b }

/-! ### Waits (R285) -/

def execXwait (u : CoreId) (rd ra rb : Fin 32) (p : Fin 8) (q : Fin 8) (s : State) : Res :=
  s.issue u (drIssue 0x2E rd ra rb p q 0 (q != 0)) fun s => s.ticketWait u 0x2E rd ra (some rb) false fun unit => unit != 0
def execXpoll (u : CoreId) (rd ra rb : Fin 32) (p : Fin 8) (q : Fin 8) (s : State) : Res :=
  s.issue u (drIssue 0x2E rd ra rb p q 1 (q != 0)) fun s => s.ticketWait u 0x2E rd ra (some rb) true fun unit => unit != 0
def execXfence (u : CoreId) (rd ra rb : Fin 32) (p : Fin 8) (q : Fin 8) (s : State) : Res :=
  s.issue u (drIssue 0x2E rd ra rb p q 2 (ra != 0 || rb != 0)) fun s =>
    match s.chanOf u q with
    | none => s.answerNow u 0x2E rd 0x18 false
    | some n =>
      let len := (s.chan u.tile n).queue.length
      let s := s.modCore u fun c => { c with fence := some (c.fence.getD len) }
      if len > 0 then .wait s
      else
        let count := (s.core u).fence.getD 0
        .done (s.modCore u fun c => ({ c with fence := none }).setG rd (statusWord 0 count {}) false)
/-- Transfer and dispatch instructions of a core that have not completed. -/
def State.xPending (s : State) (u : CoreId) : Bool :=
  ((s.tile u.tile).chans.any fun e => e.2.queue.any fun x => x.core == u.core.val) ||
  s.regions.any fun e => (e.2.slot0.queue ++ e.2.slot1.queue).any fun (x : DEntry) => x.tile == u.tile.val && x.core == u.core.val
def execXwaitall (u : CoreId) (rd ra rb : Fin 32) (p : Fin 8) (q : Fin 8) (s : State) : Res :=
  s.issue u (drIssue 0x2E rd ra rb p q 3 (ra != 0 || rb != 0 || q != 0)) fun s =>
    if s.xPending u then .wait s
    else .done (s.modCore u fun c => ({ c with xSum := {} }).setG rd c.xSum.word false)

/-! ### Events of the dispatch unit -/

/-- The oldest partial bundle of a slot has waited BUNDLE_WAIT ticks (R149). -/
def execBundleWaitExpiry (r : RegionIx) (k : Fin 2) (s : State) : Res :=
  .next (match (s.slot r k).bundles.find? fun b => !b.sent with
    | some b => (s.sendBundle r k b.no).dispatch r
    | none => s)

/-- The page-by-page translation of a spill slot by the unit's spill path. -/
def State.spillXlate (s : State) (r k : Nat) : List (Nat × Nat) → Option (List (Nat × Nat × Nat)) × State
  | [] => (some [], s)
  | (va, n) :: t =>
    let p := (s.slot r k).heldBy.getD 0
    match s.spillLook r (s.paddock p).ctx va with
    | (.hit tg out, s) =>
      let (l, s) := s.spillXlate r k t
      (l.map fun l => (tg, out, n) :: l, s)
    | (.walking, s) => (none, s.modSlot r k fun L => { L with spillHold := some { va := va, write := true } })
    | (.fault kind, s) =>
      let (h, s) := s.holdFault p (tileInRegion r 0) 18 { va := va, write := true } kind
      (none, s.modSlot r k fun L => { L with spillHold := some h })

/-- The spill write of a route finishes: its row and route word are in its spill slot; or its translation makes it wait; or its
fault was resolved as failed and the route is dropped. The slots of one paddock share the spill path (R147, R148, R156, R413,
R420). -/
def execSpillWriteDone (r : RegionIx) (k : Fin 2) (token : BitVec 16) (rank : Fin 8) (s : State) : Res :=
  let L := s.slot r k
  let tok := token.toNat
  let drop := fun (s : State) => s.modSlot r k fun L => { L with spillWrites := L.spillWrites.filter fun x => x != (tok, rank.val) }
  let fail := fun (s : State) =>
    let s := (drop s).modRoute r k tok L.step rank fun y => { y with resolved := true, dropped := true }
    let s := s.modSlot r k fun L => { L with dropped := L.dropped + 1, spillHold := none }
    (s.settleSlot r k).dispatch r
  let M := s.slot r (1 - k.val)
  match L.route tok L.step rank, L.tokens.find? fun t => t.token == tok && t.step == L.step with
  | some y, some T =>
    if !L.spillWrites.contains (tok, rank.val) || !s.ticking (tileInRegion r 0) || (M.heldBy == L.heldBy && M.spillHold.isSome) then .next s
    else match L.spillHold with
      | some h => .next (if h.resolved = some false then fail s else s)
      | none =>
        let d := L.d
        let x := tget L.experts y.expert
        let n := d.rowBytes + 32
        match s.spillXlate r k (pagePieces (x.spillVa + y.slotNo * n) n) with
        | (none, s) => .next s
        | (some l, s) =>
          let (row, s) := match s.tileOf T.srcLid with
            | some t => s.unitRead t T.rowOff d.rowBytes
            | none => ([], s)
          let rw := atBit T.token 0 16 + atBit T.srcLid 16 16 + atBit y.rank 32 3 + atBit k 35 1 + atBit L.step 40 16 + atBit y.weight 64 32 + atBit T.retSlot 96 14
          let bs := (toBytes rw 32).map (fun b => (b, false)) ++ row
          let s := (l.foldl (fun (acc : State × List (Byte × Bool)) (e : Nat × Nat × Nat) =>
            let part := acc.2.take e.2.2
            let s := if e.1 = 1 then acc.1.emit (.hostWrite (portOfFn (acc.1.ctx ((acc.1.paddock (L.heldBy.getD 0)).ctx)).fn) e.2.1 (part.map (·.1)) (part.any (·.2)))
              else (upto 0 (e.2.2 / 32)).foldl (fun s i =>
                let w := (part.drop (32 * i)).take 32
                s.storeWord (hbmAddrKey (e.2.1 + 32 * i)) (w.map (·.1)) (w.any (·.2))) acc.1
            (s, acc.2.drop e.2.2)) (s, bs)).1
          .next (((drop s).modRoute r k tok L.step rank fun y => { y with spillDone := true }).dispatch r)
  | _, _ => .next s

/-- The balancers of the writer's slots start uniform (R150, R160). -/
def State.balReset (s : State) (u : CoreId) : State :=
  let r := regionOf u.tile
  let p := s.tag u.tile
  (upto 0 2).foldl (fun s k => if (s.slot r k).heldBy = some p then s.modSlot r k LayerSlot.uniform else s) s
/-- A write of DSP_BAL.RESET by a core. -/
def execDspBalReset (u : CoreId) (s : State) : Res := .next (s.balReset u)

end Sys2Proof.Machine
end

