-- ==== Sys2Proof/Machine/Hurdles.lean ====
section
/-! DEFINITION. Hurdle channels: the instructions, the combining tree, its messages and its failures (R237, R289-R291, R338-R342). -/
namespace Sys2Proof.Machine

/-! ### The tree (R338) -/

/-- Level of a node, from 1. -/
def nodeLevel (n : Nat) : Nat := if n < 144 then 1 else if n < 180 then 2 else if n < 189 then 3 else 4
/-- The node of a level above a region. -/
def nodeAt (level r : Nat) : Nat := if level = 1 then r else if level = 2 then 144 + quadOf r else if level = 3 then 180 + r / 16 else 189
/-- A region beneath a node. -/
def nodeRegion (n : Nat) : Nat := if n < 144 then n else if n < 180 then (brickRegions (n - 144)).headD 0 else if n < 189 then 16 * (n - 180) else 0
/-- The regions that hold a node: its own and, above L1, its twin's. -/
def nodeHome (n : Nat) : Nat × Nat :=
  if n < 144 then (n, n)
  else if n < 180 then let rs := brickRegions (n - 144); (rs.headD 0, rs.foldl max 0)
  else if n < 189 then (16 * (n - 180) + 5, 16 * (n - 180) + 10)
  else (69, 74)
/-- The node above. -/
def nodeUp (n : Nat) : Nat := nodeAt (nodeLevel n + 1) (nodeRegion n)
def hKey (node p ch : Nat) : Nat := (node * 65536 + p) * 64 + ch
def State.hnode (s : State) (node p ch : Nat) : HNode := tget s.net.hurdles (hKey node p ch)
def State.modHnode (s : State) (node p ch : Nat) (f : HNode → HNode) : State :=
  { s with net := { s.net with hurdles := tmod s.net.hurdles (hKey node p ch) f } }

/-- The tiles of a paddock with ranks in a range; 0xFFFF stands for the last rank (R289). -/
def State.rankTiles (s : State) (p first last : Nat) : List Nat :=
  let ms := s.members p
  let hi := if last = 0xFFFF then ms.length - 1 else last
  ((ms.take (hi + 1)).drop first).filterMap s.tileOf
/-- The participants of a node's channel, as its first arm names them. -/
def State.participants (s : State) (p : Nat) (h : HNode) : List Nat :=
  match h.arms with
  | [] => []
  | a :: _ => s.rankTiles p a.2.2.1 a.2.2.2
/-- The meeting node of some tiles (R339). -/
def meetNode (ts : List Nat) : Nat := let rs := ts.map regionOf; nodeAt (meetLevel rs) (rs.headD 0)
/-- The children of a node that have participants beneath them. -/
def nodeChildren (node : Nat) (ts : List Nat) : List Nat :=
  let below := ts.filter fun t => nodeAt (nodeLevel node) (regionOf t) == node
  if node < 144 then below.foldl setIns [] else (below.map fun t => nodeAt (nodeLevel node - 1) (regionOf t)).foldl setIns []
/-- The reduction of R289. -/
def hurdleOp (op a b : Nat) : Nat :=
  match op with
  | 0 => a &&& b
  | 1 => a ||| b
  | 2 => min a b
  | 3 => max a b
  | 4 => if sext 64 a ≤ sext 64 b then a else b
  | 5 => if sext 64 a ≤ sext 64 b then b else a
  | _ => min (a + b) (2 ^ 64 - 1)

/-! ### Completion (R289, R290, R339) -/

/-- A completion reaches the core of a tile that armed the channel. -/
def State.hurdleDone (s : State) (t ch value code : Nat) (poison : Bool) : State :=
  (upto 0 2).foldl (fun s k => s.modCore (mkCore t k) fun c =>
    match tget c.hurdles ch with
    | none => c
    | some h => { c with hurdles := tput c.hurdles ch (some { h with
        completed := h.completed + 1, passed := max h.passed (h.completed + 1), value := value, poison := poison, code := code }) }) s

/-- The nodes that a channel of a paddock has state at. -/
def State.channelNodes (s : State) (p ch : Nat) : List Nat :=
  (s.net.hurdles.filter fun e => e.1 % 2 ^ 22 == p * 64 + ch).map fun e => e.1 / 2 ^ 22
/-- A generation ends: every node of the channel counts it and waits for the next. -/
def State.endGeneration (s : State) (p ch : Nat) : State :=
  (s.channelNodes p ch).foldl (fun s n => s.modHnode n p ch fun h =>
    { h with arrived := [], passedUp := false, value := 0, poison := false, mismatch := false, gen := h.gen + 1 }) s

/-- Is a generation of the channel incomplete? -/
def State.inProgress (s : State) (p ch : Nat) : Bool :=
  ((s.channelNodes p ch).any fun n => let h := s.hnode n p ch; !h.arrived.isEmpty || h.passedUp) || s.net.hpasses.any fun m => m.paddock == p && m.channel == ch
/-- An incomplete generation completes BROKEN at once at every participant, with value 0 (R290, R341). -/
def State.breakGeneration (s : State) (p ch : Nat) : State :=
  let ts := ((s.channelNodes p ch).findSome? fun n => (s.hnode n p ch).arms.head?).elim [] fun a => s.rankTiles p a.2.2.1 a.2.2.2
  let s := { s with net := { s.net with hpasses := s.net.hpasses.filter fun m => !(m.paddock == p && m.channel == ch) } }
  ts.foldl (fun s t => s.hurdleDone t ch 0 0x26 false) (s.endGeneration p ch)
/-- A member tile was re-bound: the paddock's incomplete generations break, and the tile's arms are gone (R290). -/
def State.breakHurdles (s : State) (p t : Nat) : State :=
  let s := (upto 0 64).foldl (fun s ch =>
    if s.inProgress p ch then
      (s.breakGeneration p ch).raise { code := 0x1302, paddock := p, fn := s.paddockFn p, node := t, detail := [ch] }
    else s) s
  { s with net := { s.net with hurdles := s.net.hurdles.foldl (fun tb (e : Nat × HNode) =>
      if e.1 / 64 % 65536 = p then tput tb e.1 { e.2 with arms := e.2.arms.filter fun a => a.1 != t } else tb) s.net.hurdles } }
/-- Every generation in progress through a node completes BROKEN, and the event is raised (R341). -/
def State.breakNode (s : State) (node : Nat) : State :=
  let mine := (s.net.hurdles.filter fun e => e.1 / 2 ^ 22 == node && (!e.2.arrived.isEmpty || e.2.passedUp)).map fun e => (e.1 / 64 % 65536, e.1 % 64)
  (mine.foldl (fun s e => s.breakGeneration e.1 e.2) s).raise { code := 0x3007, region := (nodeHome node).1, unit := nodeLevel node, detail := [node] }
/-- A region becomes dead: the L2, L3 and L4 nodes it holds go to their twins (R341). -/
def State.hurdleRegionDead (s : State) (r : Nat) : State :=
  ((upto 144 46).filter fun n => let h := nodeHome n; (if s.net.twinned.contains n then h.2 else h.1) == r).foldl (fun s n =>
    (s.breakNode n) |> fun s => { s with net := { s.net with twinned := setIns s.net.twinned n } }) s

/-! ### Messages -/

/-- The parts of the children at a node are all in: the generation ends at the meeting node, or the partial value goes up. -/
def State.nodeFull (s : State) (node p ch : Nat) : State :=
  let h := s.hnode node p ch
  let ts := s.participants p h
  if h.arrived.isEmpty || h.passedUp || !((nodeChildren node ts).all h.arrived.contains) then s
  else if node = meetNode ts then
    let bad := h.mismatch
    let done := ts.map fun t => ({ paddock := p, channel := ch, dst := t, src := node, value := if bad then 0 else h.value
                                   poison := !bad && h.poison, code := if bad then 0x27 else 0 } : HMsg)
    let s := s.endGeneration p ch
    { s with net := { s.net with hdones := s.net.hdones ++ done } }
  else
    let m : HMsg := { paddock := p, channel := ch, dst := nodeUp node, src := node, value := h.value, poison := h.poison, code := if h.mismatch then 0x27 else 0 }
    let s := s.modHnode node p ch fun h => { h with passedUp := true, arrived := [] }
    { s with net := { s.net with hpasses := s.net.hpasses ++ [m] } }

/-- HURDLE_ARM_MESSAGE: the node notes the arm, and one that differs from another's sets MISMATCH; it goes on up to the meeting
node of its own range (R289, R340). -/
def execHurdleArmMessage (m : HMsg) (s : State) : Res :=
  let s := { s with net := { s.net with harms := s.net.harms.erase m } }
  if m.dst ≥ 190 then .next s
  else
    let a := (m.tile, m.op, m.first, m.last)
    let s := s.modHnode m.dst m.paddock m.channel fun h =>
      let rest := h.arms.filter fun x => x.1 != m.tile
      { h with arms := rest ++ [a], mismatch := h.mismatch || rest.any fun x => x.2 != a.2 }
    if nodeLevel m.dst < nodeLevel (meetNode (s.rankTiles m.paddock m.first m.last)) then
      .next { s with net := { s.net with harms := s.net.harms ++ [{ m with dst := nodeUp m.dst, src := m.dst }] } }
    else .next (s.nodeFull m.dst m.paddock m.channel)

/-- HURDLE_CONTRIBUTION: a part from a child is combined (R339, R340). -/
def execHurdleContribution (m : HMsg) (s : State) : Res :=
  let h := s.hnode m.dst m.paddock m.channel
  -- an arm travels ahead of the contributions that follow it
  if m.dst ≥ 190 || h.arms.isEmpty || h.arrived.contains m.src || h.passedUp then .next s
  else
    let s := { s with net := { s.net with hpasses := s.net.hpasses.erase m } }
    let op := (h.arms.head?.elim 0 fun a => a.2.1)
    let s := s.modHnode m.dst m.paddock m.channel fun h => { h with
      arrived := setIns h.arrived m.src
      value := if h.arrived.isEmpty then m.value % 2 ^ 64 else hurdleOp op h.value (m.value % 2 ^ 64)
      poison := h.poison || m.poison, mismatch := h.mismatch || m.code == 0x27 }
    .next (s.nodeFull m.dst m.paddock m.channel)

/-- HURDLE_COMPLETION: the completion reaches a participant tile (R339). -/
def execHurdleCompletion (m : HMsg) (s : State) : Res :=
  let s := { s with net := { s.net with hdones := s.net.hdones.erase m } }
  if m.dst < 576 then .next (if s.tag m.dst = m.paddock then s.hurdleDone m.dst m.channel (m.value % 2 ^ 64) m.code m.poison else s) else .next s

/-- HURDLE_NODE_UE (R341). -/
def execHurdleNodeUe (node : Fin 190) (s : State) : Res := .next (s.breakNode node)
/-- HURDLE_CTL moves a node to its twin, or signals BROKEN there (R336, R341). -/
def execHurdleCtl (node : Fin 190) (twin broken : Bool) (s : State) : Res :=
  let s := if broken then s.breakNode node else s
  .next (if twin && decide (node.val ≥ 144) then { s with net := { s.net with twinned := setIns s.net.twinned node } } else s)

/-! ### Instructions (R289-R291) -/

/-- The hurdle channel that a handle names, where this core armed it. -/
def State.hurdleOf (s : State) (u : CoreId) (q : Nat) : Option (Nat × HurdleCh) :=
  (s.handle u q 4 64).bind fun ch => (tget (s.core u).hurdles ch).map fun h => (ch, h)

def execHarm (u : CoreId) (rd ra rb : Fin 32) (p : Fin 8) (q : Fin 8) (s : State) : Res :=
  s.issue u (drIssue 0x30 rd ra rb p q 0 (rb != 0)) fun s =>
    let c := s.core u
    let w := c.gr ra
    let pad := s.tag u.tile
    let ch := fld w 0 6
    let first := fld w 16 16
    let last := fld w 32 16
    let n := (s.members pad).length
    let rank := s.rank u.tile
    let hi := if last = 0xFFFF then n - 1 else last
    if c.gBad ra || fld w 6 2 != 0 || fld w 8 3 == 7 || fld w 11 5 != 0 || decide (w ≥ 2 ^ 48 ∨ hi ≥ n ∨ rank < first ∨ rank > hi) then
      s.answerNow u 0x30 rd 0x19 (c.gBad ra)
    else if (tget (s.tile u.tile).core0.hurdles ch).isSome || (tget (s.tile u.tile).core1.hurdles ch).isSome then s.answerNow u 0x30 rd 0x1A false
    else
      let s := s.modCore u fun c => { (c.setQ q (handleWord 4 pad ch)) with hurdles := tput c.hurdles ch (some { op := fld w 8 3, first := first, last := last }) }
      let m : HMsg := { paddock := pad, channel := ch, dst := regionOf u.tile, src := u.tile, tile := u.tile, op := fld w 8 3, first := first, last := last }
      ({ s with net := { s.net with harms := s.net.harms ++ [m] } }).answerNow u 0x30 rd 0 false

def execHclose (u : CoreId) (rd ra rb : Fin 32) (p : Fin 8) (q : Fin 8) (s : State) : Res :=
  s.issue u (drIssue 0x30 rd ra rb p q 1 (rd != 0 || ra != 0 || rb != 0)) fun s =>
    match s.hurdleOf u q with
    | none => .done (s.noteReject u 0x30 0x18 0)
    | some (ch, h) =>
      if h.completed < h.passed then .wait s
      else
        let pad := s.tag u.tile
        -- the channel is disarmed for the tile, so that a later arm of another kind meets no stale one
        let s := (s.channelNodes pad ch).foldl (fun s n => s.modHnode n pad ch fun x => { x with arms := x.arms.filter fun a => a.1 != u.tile.val }) s
        .done (s.modCore u fun c => { (c.setQ q 0) with hurdles := tput c.hurdles ch none })

def execHpass (u : CoreId) (rd ra rb : Fin 32) (p : Fin 8) (q : Fin 8) (funct : Fin 32) (s : State) : Res :=
  s.issue u (drIssue 0x31 rd ra rb p q funct (rd != 0 || ra != 0 || funct != 0)) fun s =>
    match s.hurdleOf u q with
    | none => .done (s.noteReject u 0x31 0x18 0)
    | some (ch, h) =>
      let c := s.core u
      if !c.loads.isEmpty || !c.stores.isEmpty || decide (h.completed < h.passed) then .wait s
      else
        let s := s.modCore u fun c => { c with hurdles := tput c.hurdles ch (some { h with passed := h.passed + 1 }) }
        let m : HMsg := { paddock := s.tag u.tile, channel := ch, dst := regionOf u.tile, src := u.tile, value := c.gr rb, poison := c.gBad rb }
        .done { s with net := { s.net with hpasses := s.net.hpasses ++ [m] } }

/-- HSYNC: with a handle that is not this core's, rejected; else as the channel stands. -/
def State.hsync (s : State) (u : CoreId) (rd ra rb p q funct : Nat) (f : Core → HurdleCh → State → CoreRes) : Res :=
  s.issue u (drIssue 0x32 rd ra rb p q funct (ra != 0 || rb != 0)) fun s =>
    match s.hurdleOf u q with
    | none => .done (s.noteReject u 0x32 0x18 0)
    | some (_, h) => f (s.core u) h s
def execHwait (u : CoreId) (rd ra rb : Fin 32) (p : Fin 8) (q : Fin 8) (s : State) : Res :=
  s.hsync u rd ra rb p q 0 fun _ h s =>
    if h.passed = 0 then .done (s.modCore u fun c => c.setG rd 0 false)
    else if h.completed < h.passed then .wait s
    else .done (s.modCore u fun c => c.setG rd h.value h.poison)
def execHtest (u : CoreId) (rd ra rb : Fin 32) (p : Fin 8) (q : Fin 8) (s : State) : Res :=
  s.hsync u rd ra rb p q 1 fun _ h s => .done (s.modCore u fun c => c.setG rd (b01 (decide (h.passed ≤ h.completed))) false)
def execHstat (u : CoreId) (rd ra rb : Fin 32) (p : Fin 8) (q : Fin 8) (s : State) : Res :=
  s.hsync u rd ra rb p q 2 fun _ h s => .done (s.modCore u fun c => c.setG rd (statusWord h.code h.completed { poisoned := h.poison }) false)

end Sys2Proof.Machine
end

