-- ==== Sys2Proof/Machine/Losses.lean ====
section
/-! DEFINITION. What is lost with a compute rail or a region: tile state, jobs, bindings, routes (R25, R316, R356, R576, R579,
R585-R587, R614-R621). -/
namespace Sys2Proof.Machine

/-! ### Compute rails (R557, R579, R607) -/

/-- Everything on a region's compute rail is lost: its rail is off, its tiles and units hold nothing. -/
def State.loseState (s : State) (r : Nat) : State :=
  let s := (regionTiles r).foldl (fun s t => s.modTile t fun T => { T.resetState with
    sched := {}, tlb := [], droves := [], preempting := false, atPoint := false
    spore := { T.spore with loaded := false, verified := false, received := [], state := 0 }
    spd := { T.resetState.spd with cb := [], upset := [], checkBack := [] } }) s
  let s := s.modRegion r fun R => { R with
    slot0 := {}, slot1 := {}, dspErr := 0, stlb := [], wcache := []
    power := .off, stopped := true, regionLock := false, voltMv := 0, slewTo := none, changing := none, waking := false, reserve := 0, reserveMs := 0
    pacing := false, pacingMs := 0, pace := 0, burst := 0 }
  { s with
    mmu := { s.mmu with walks := s.mmu.walks.filter fun (w : Walk) => w.region != r }
    power := { s.power with wakes := s.power.wakes.filter (· != r) } }

/-- The paddocks with a member tile in a region. -/
def State.padsIn (s : State) (r : Nat) : List Nat := ((regionTiles r).map s.tag).foldl (fun l p => if p = 0 then l else setIns l p) []
/-- Jobs resident on a region, or frozen in place, end FAILED, POISONED; `loss` tells that their tiles are lost (R579, R617). -/
def State.failHeld (s : State) (r : Nat) (loss : Bool) : State :=
  (s.padsIn r).foldl (fun s p => match (s.paddock p).resident with
    | some j =>
      if (s.job j).terminal then s
      else
        let s := s.failJob j 0x21
        if loss then s.jobEvent 0x9104 j [0x21] else s
    | none => s) s
/-- The tiles of a region are lost with their state: recorded unfit, and waiting to be re-bound (R26, R614). -/
def State.loseTiles (s : State) (r cause : Nat) : State :=
  let s := (regionTiles r).foldl (fun s t =>
    if s.org.unfit.contains t then s
    else { s.defect 0x03 cause [t] with org := { (s.defect 0x03 cause [t]).org with unfit := setIns s.org.unfit t } }) s
  let rest := s.org.lost.filter fun e => regionOf e.1 != r
  { s with org := { s.org with
      lost := rest ++ (regionTiles r).map fun t => (t, false)
      -- zero-fill that CLEARING waits for is not owed by lost tiles (R39)
      toFill := s.org.toFill.filter fun t => regionOf t != r } }
/-- A compute rail is switched off for good: the tiles are lost, the region is not dead (R356, R576, R585, R609). -/
def State.railOff (s : State) (r cause : Nat) : State :=
  if s.org.dead.contains r || (s.region r).railOffLatched then s
  else
    let s := (s.defect 0x02 cause [r]).failHeld r true
    let s := (s.loseState r).modRegion r fun R => { R with railOffLatched := true }
    s.loseTiles r cause

/-! ### Dead regions (R25, R586, R621) -/

/-- A region is dead: both rails off for good, its routers, links, hurdle nodes and edge ports lost; the routing tables are
those of what is left (R313, R317). -/
def State.regionDies (s : State) (r cause : Nat) : State :=
  if s.org.dead.contains r then s
  else
    let s := (s.defect 0x01 cause [r]).failHeld r true
    let s := (s.loseState r).loseTiles r cause
    let s := s.modRegion r fun R => { R with railOffLatched := true, transitLock := false }
    let s := { s with
      org := { s.org with dead := setIns s.org.dead r, clearing := setDel s.org.clearing r }
      net := { s.net with routers := (regionTiles r).foldl (fun tb t => tput tb t {}) s.net.routers } }
    let s := s.hurdleRegionDead r
    let s := s.geoUpdate (s.idsIn [r])
    (regionTiles r).foldl (fun s t => (upto 0 4).foldl (fun s d => match edgeNode t d with | some n => s.edgeLost n | none => s) s) s

/-- A brick has failed: its block's compute state and tiles are lost, its other loads are on the partner (R587). -/
def State.brickLost (s : State) (b : Nat) : State :=
  if s.power.brickFailed.contains b then s
  else
    let s := (s.defect 0x09 0x8003 [b]).raise { code := 0x8003, unit := b }
    let s := { s with power := { s.power with brickFailed := setIns s.power.brickFailed b } }
    (brickRegions b).foldl (fun s r => if s.org.dead.contains r then s else ((s.failHeld r true).loseState r).loseTiles r 0x8003) s

/-! ### Lost tiles (R27, R615-R619) -/

/-- Jobs of the paddock whose state cannot follow an ID that has become a hole: those with state in place or saved end FAILED,
GONE; queued ones wait (R617). -/
def State.holeJobs (s : State) (p : Nat) : State :=
  ((s.paddock p).jobs.filter fun j => (s.job j).state != .queued && (s.job j).state != .deferred).foldl (fun s j =>
    if (s.job j).terminal then s else (s.failJob j 0x15).jobEvent 0x9104 j [0x15]) s

/-- A lost tile's ID goes to its new tile, or becomes a hole: bindings, hurdles, dispatch routes, the geometry table, and the
events, in that order. The old tile holds nothing afterwards and is never bound again (R615, R616, R618). -/
def State.rebindLost (s : State) (l old : Nat) (to_ : Option Nat) : State :=
  let p := s.lidPaddock l
  let T := s.tile old
  let s := s.bind l to_ p
  -- a drove that the tile rooted is rooted at the ID's new tile
  let s := match to_ with | some t => s.modTile t fun X => { X with droves := if X.droves.isEmpty then T.droves else X.droves } | none => s
  let s := if p ≠ 0 then (s.breakHurdles p old).shardRebound l else s
  let s := ((s.zeroKeys (spdKey old 0) (2 ^ 23)).zeroPriv old).modTile old fun X => { X.resetState with droves := [], tlb := [], preempting := false, atPoint := false }
  let s := s.geoUpdate [l]
  let s := { s with org := { s.org with lost := s.org.lost.filter fun e => e.1 != old } }
  let s := match to_ with
    | some t => s.raise { code := 0x9103, lid := l, node := t, region := regionOf t, paddock := p, fn := s.paddockFn p, detail := [l, old, t] }
    | none => s.raise { code := 0x9102, lid := l, node := old, region := regionOf old, paddock := p, fn := s.paddockFn p, detail := [l, old] }
  let s := if p ≠ 0 then s.raise { code := 0x9101, paddock := p, ctx := some (s.paddock p).ctx, fn := (s.ctx (s.paddock p).ctx).fn
                                   job := ((s.paddock p).resident).getD 0, detail := [s.org.geoGen, l, old, to_.getD 1023] } else s
  let s := s.tookLast l to_
  (if to_.isNone && p ≠ 0 then s.holeJobs p else s).bindWaiting

/-- May the loss of a tile be handled now: the module serves, no state move is under way, and no lost tile holds a lower ID
(R615, R620)? -/
def State.lossTurn (s : State) (t : Nat) : Bool :=
  s.start.phase == 0 && s.org.moving.isNone && s.org.lost.any (·.1 == t) &&
  match s.lidOf t with
  | none => true
  | some l => s.org.lost.all fun e => (s.lidOf e.1).elim true fun x => decide (l ≤ x)

/-- TILE_LOSS_HANDLE: a free tile is only recorded; an ID without state to move is re-bound at once; state that can be read is
moved once the paddock is frozen, a MIXED paddock's job being suspended instead. -/
def execTileLossHandle (t : TileIx) (s : State) : Res :=
  if !s.foldUp || !s.lossTurn t then .next s
  else match s.lidOf t with
    | none => .next (State.bindWaiting { s.tileEvent t 0x9002 0xFFFF [t.val] with org := { s.org with lost := s.org.lost.filter fun e => e.1 != t.val } })
    | some l =>
      let p := s.tag t
      let P := s.paddock p
      let kept := s.org.lost.any fun e => e.1 == t.val && e.2
      let to_ := s.choose27 l fun _ => true
      match P.resident, to_ with
      | some j, some u =>
        if p = 0 || !kept || (s.job j).terminal || (s.job j).saved then .next (s.rebindLost l t to_)
        else if (s.job j).state = .resuming then .next s
        else
          let s := { s with org := { s.org with moving := some (l, t.val, u, p) } }
          if P.mixed && (s.job j).state == .running then .next (s.geometrySuspend p)
          else .next (if P.frozen then s else s.beginPreempt p)
      | _, _ => .next (s.rebindLost l t to_)

/-- STATE_MOVE_COPY_DONE: the two transfer engines have copied every section of the tile's state; with the paddock frozen, the
ID moves and the tiles are released. A new tile that failed meanwhile is replaced by the next choice and the copy begins again; an
old one whose state was lost ends the job (R616, R620). -/
def execStateMoveCopyDone (s : State) : Res :=
  match s.org.moving with
  | none => .next s
  | some (l, old, new, p) =>
    let kept := s.org.lost.any fun e => e.1 == old && e.2
    let resident := (s.paddock p).resident
    let ends := fun (s : State) => { s with org := { s.org with moving := none } }
    if !kept || resident.isNone then .next ((ends s).rebindLost l old (s.choose27 l fun _ => true))
    else if !s.freeTile new then match s.choose27 l fun _ => true with
      | some u => .next { s with org := { s.org with moving := some (l, old, u, p) } }
      | none => .next ((ends s).rebindLost l old none)
    else if !(s.paddock p).frozen then .next s
    else
      let s := s.restoreTile new (s.saveTile old) (s.paddock p).mixed
      let s := (ends s).rebindLost l old (some new)
      match resident with
      | none => .next s
      | some j =>
        if (s.job j).state = .running then .next (if (s.paddock p).after.isSome then s.startSave p else s.unfreeze p) else .next s

/-! ### Region losses (R354, R356, R586) -/

/-- TRANSIT_PLL_LOCK_TIMEOUT. -/
def execTransitPllLockTimeout (r : RegionIx) (s : State) : Res :=
  .next (if s.org.dead.contains r then s else (s.regionEvent r 0x8103 0xFFFF []).regionDies r 0x8103)
/-- REGION_PLL_LOCK_TIMEOUT. -/
def execRegionPllLockTimeout (r : RegionIx) (s : State) : Res :=
  if s.org.dead.contains r || (s.region r).railOffLatched then .next s
  else
    let s := (s.regionEvent r 0x8102 0xFFFF []).modRegion r fun R => { R with pllFailed := true }
    .next (s.railOff r 0x8102)
/-- REGION_SHORT: the region latches off (R586). -/
def execRegionShort (r : RegionIx) (s : State) : Res :=
  .next (if s.org.dead.contains r then s else (s.regionDies r 0x8005).regionEvent r 0x8005 0xFFFF [])

end Sys2Proof.Machine
end

