-- ==== Sys2Proof/Machine/PowerOps.lean ====
section
/-! DEFINITION. Power states, headroom, predictions, limits and shares (R551-R577). -/
namespace Sys2Proof.Machine

def State.modPower (s : State) (f : Power → Power) : State := { s with power := f s.power }

/-! ### Regulators and bricks (R551-R556) -/

/-- Numbers of regulators in the power state. -/
def regNo : Regulator → Nat
  | .compute r => r
  | .transit r => 144 + r
  | .edge k => 288 + k
  | .converter b => 330 + b01 b
/-- First edge tile of an edge entry of R49, for the brick it is fed from (R554). -/
def edgeHome (k : Nat) : Nat :=
  if k < 20 then edgeTile ((stackNodes k).headD 648) else if k < 24 then edgeTile (hostNode (k - 20)) else edgeTile (lampNode (k - 24))
def ownBrick : Regulator → Option Nat
  | .compute r | .transit r => some (brickOfRegion r)
  | .edge k => some (brickOf (edgeHome k))
  | .converter _ => none
/-- The partner brick (R554). -/
def partner (b : Nat) : Nat := b ^^^ 1
/-- Current in 0.1 A that wakes hold at a brick. -/
def State.reserved (s : State) (b : Nat) : Nat := natSum ((brickRegions b).map fun r => (s.region r).reserve)
/-- 0.1 A at 6.75 V that a load in mW at a compute rail takes, at 90% (R551). -/
def dAmps (mw : Nat) : Nat := cdiv (2 * mw) 1215
/-- Headroom of a brick in 0.1 A, 0 when negative (R556): its estimated output is the measured one with each trusted region's
compute load at its corrected estimate. -/
def State.headroom (s : State) (b : Nat) : Nat :=
  let out := tget s.power.brickDa b
  let est := natSum ((brickRegions b).map fun r => let R := s.region r; if R.untrusted then 0 else dAmps R.estMw - dAmps R.measMw)
  1000 - max out (out + est) - s.reserved b

/-! ### What a region is asked for (R38, R559) -/

/-- Paddocks that a region serves: its owner and those with a lent tile in it. -/
def State.regionPads (s : State) (r : Nat) : List Nat :=
  let o := s.owner r
  if o = 0 then s.padsIn r else setIns (s.padsIn r) o
/-- The paddock that chooses a region's point: its owner, else the lender of highest priority and lowest number (R38). -/
def State.regionChief (s : State) (r : Nat) : Nat :=
  if s.owner r ≠ 0 then s.owner r
  else (s.padsIn r).foldl (fun b p => if b = 0 ∨ (s.paddock b).prio < (s.paddock p).prio then p else b) 0
/-- Does a paddock want its regions ON? -/
def State.wantsOn (s : State) (p : Nat) : Bool :=
  let P := s.paddock p
  P.saving || P.restoring || P.regions.any s.org.clearing.contains || !s.clearOver p ||
  match P.resident with
  | none => false
  | some j => !P.frozen && [JobState.running, .suspending, .resuming, .cancelling].contains (s.job j).state
/-- Does a paddock hold a job's state in place (R428)? -/
def State.holdsState (s : State) (p : Nat) : Bool := (s.paddock p).resident.isSome
/-- Is the region needed ON for anything but a paddock: a start, a retest, a lent tile's CLEARING? -/
def State.regionBusy (s : State) (r : Nat) : Bool :=
  s.org.clearing.contains r || s.org.retest.contains r || (regionTiles r).any fun t => s.org.clearingTiles.contains t || s.org.toFill.contains t || s.agentAtWork t || (s.tile t).detectOnly
def State.mayNap (s : State) (r : Nat) : Bool := !s.regionBusy r && (s.regionPads r).all fun p => !s.wantsOn p
def State.mayOff (s : State) (r : Nat) : Bool := s.mayNap r && s.power.offMs != 0 && (s.regionPads r).all fun p => !s.holdsState p

/-- Have the units of a region been idle: no sequencer, transfer, dispatch or schedule work (R558)? Its cores wait wherever no
command of theirs comes. -/
def State.unitsIdle (s : State) (r : Nat) : Bool :=
  ((s.region r).slot0.bundles ++ (s.region r).slot1.bundles).isEmpty &&
  (regionTiles r).all fun t =>
    let T := s.tile t
    T.seqr.queue.isEmpty && (T.seqr.passes.all (·.done)) && T.seqr.load.isNone && T.seqr.drain.isNone &&
    (T.chans.all fun c => c.2.queue.isEmpty || c.2.wait.isSome) &&
    (T.sched.state == .idle || T.sched.state == .boundary || T.sched.state == .fault) && T.spd.fillRow.isNone

/-! ### Predictions and limits (R569, R571, R574, R576, R577) -/

/-- Valid sensors of a region, and its temperature: the highest of them. -/
def Region.valid (R : Region) : List Nat := (upto 0 4).filter fun i => !R.excluded.contains i
def Region.temp (R : Region) : Nat := (R.valid.map fun i => R.temps.getD i 0).foldl max 0
/-- Predicted draw in mW of a region at an FMULT: the last millisecond's dynamic power by f V², and leakage; an untrusted
region's whole measurement is scaled. -/
def State.predict (s : State) (r f : Nat) : Nat :=
  let R := s.region r
  let v := s.voltFor r f
  let scale := fun (mw : Nat) => mw * f * (v * v) / max 1 (R.atFmult * (R.atMv * R.atMv))
  if R.untrusted then scale R.measMw
  else
    let leak := Config.leakage r R.atMv R.temp
    scale (R.estMw - leak) + Config.leakage r v R.temp
/-- The point that a share must cover: an untrusted region's draw is held to 0.85 of its share (R574). -/
def State.cost (s : State) (r f : Nat) : Nat := if (s.region r).untrusted then cdiv (100 * s.predict r f) 85 else s.predict r f
/-- The largest number from 17 up to `hi` that a test allows, else 16. -/
def bestFmult (hi : Nat) (ok : Nat → Bool) : Nat := ((upto 17 (hi - 16)).reverse.find? ok).getD 16
/-- The thermal limit of a region: lowered in steps, and 40 on one valid sensor. -/
def Region.thermal (R : Region) : Nat := if R.valid.length ≤ 1 then min 40 R.limit else R.limit
/-- Upper limit of a region but for its brick. -/
def State.ownLimit (s : State) (r : Nat) : Nat :=
  let tgt := tget s.power.targets (s.regionChief r)
  min (min (s.topFmult r) (s.region r).thermal) (if tgt = 0 then 74 else tgt)
/-- What a region's brick allows it: the highest common FMULT at which the block's compute rails fit beside the brick's other
loads (R556). -/
def State.brickFmult (s : State) (r : Nat) : Nat :=
  let b := brickOfRegion r
  let rs := (brickRegions b).filter fun x => (s.region x).live
  let other := tget s.power.brickDa b - natSum (rs.map fun x => dAmps (s.region x).measMw)
  bestFmult 74 fun f => decide (natSum (rs.map fun x => dAmps (s.predict x (min f (s.ownLimit x)))) + other + s.reserved b ≤ 1000)
/-- Upper limit of a region (R569). -/
def State.upperLimit (s : State) (r : Nat) : Nat := max 16 (min (s.ownLimit r) (s.brickFmult r))

end Sys2Proof.Machine
end

