-- ==== Sys2Proof/Machine/Power.lean ====
section
/-! DEFINITION. Feeds, bricks, power states, wakes, the cap, temperature, the lowest state and regulator faults (R551-R588, R705,
R708). -/
namespace Sys2Proof.Machine

/-! ### Feeds and the bus (R552, R553, R705) -/

def setSide (p : Bool × Bool) (b v : Bool) : Bool × Bool := if b then (p.1, v) else (v, p.2)
def getSide (p : Bool × Bool) (b : Bool) : Bool := if b then p.2 else p.1
/-- A feed's converter stops; the other carries the load. Feed A is false, feed B true. -/
def State.feedLost (s : State) (b live : Bool) : State :=
  if !getSide s.power.feeds b && !getSide s.power.convs b then s
  else (s.modPower fun P => { P with feeds := setSide P.feeds b live, convs := setSide P.convs b false }).unitEvent 0x8001 (b01 b) [b01 b]
/-- FEED_LOSS: the feed's voltage fell, or its converter faulted with the feed `live`. -/
def execFeedLoss (b live : Bool) (s : State) : Res := .next (s.feedLost b live)
def execFsenseOpen (b : Bool) (s : State) : Res := .next ((s.modPower fun P => { P with fsense := setSide P.fsense b false }).feedLost b false)
/-- FSENSE_CLOSE: the feed comes into service once FEED_RESTORE follows. -/
def execFsenseClose (b : Bool) (s : State) : Res := .next (s.modPower fun P => { P with fsense := setSide P.fsense b true })
def execFeedRestore (b : Bool) (s : State) : Res :=
  if !getSide s.power.fsense b || getSide s.power.convs b || s.power.lost then .next s
  else .next ((s.modPower fun P => { P with feeds := setSide P.feeds b true, convs := setSide P.convs b true }).unitEvent 0x8002 (b01 b) [b01 b])

/-! ### Regulator inputs and bricks (R554, R556, R587) -/

/-- REGULATOR_INPUT_SWITCH: a transit or edge regulator moves to its partner brick; a compute regulator has one input. -/
def execRegulatorInputSwitch (g : Regulator) (s : State) : Res :=
  .next (match g with
    | .transit _ | .edge _ => s.modPower fun P => { P with moved := setIns P.moved (regNo g) }
    | _ => s)
def execBrickFoldback (b : BrickIx) (s : State) : Res :=
  .next (if s.power.brickLimit.contains b || s.power.brickFailed.contains b then s
         else (s.modPower fun P => { P with brickLimit := setIns P.brickLimit b }).unitEvent 0x8004 b [b.val])
/-- BRICK_FAILURE: the block's transit and edge loads move to the partner; its compute state is lost. -/
def execBrickFailure (b : BrickIx) (s : State) : Res :=
  let edges := (upto 0 42).filter fun k => brickOf (edgeHome k) == b.val
  let moved := (brickRegions b).map (144 + ·) ++ edges.map (288 + ·)
  .next ((s.modPower fun P => { P with moved := moved.foldl setIns P.moved }).brickLost b)

/-! ### Power states (R557-R560, R607) -/

/-- IDLE_ENTRY, for a region whose cores have waited or exited for 64 ticks. -/
def execIdleEntry (r : RegionIx) (s : State) : Res :=
  .next (if (s.region r).power == .on && !(s.region r).tripped && s.unitsIdle r then s.modRegion r fun R => { R with power := .idle } else s)
def execIdleExit (r : RegionIx) (s : State) : Res :=
  .next (s.modRegion r fun R => if R.power == .idle then { R with power := .on } else R)
/-- A region enters NAP: clock stopped, PLL off, rail at retention. -/
def State.toNap (s : State) (r : Nat) : State :=
  s.modRegion r fun R => { R with power := .nap, stopped := true, regionLock := false, voltMv := 450, slewTo := none, changing := none
                                  fmult := R.changing.getD R.fmult, pendingFmult := none }
/-- NAP_TIMER. -/
def execNapTimer (r : RegionIx) (s : State) : Res := .next (if (s.region r).live && s.mayNap r then s.toNap r else s)
/-- OFF_TIMER: the rail is off and the tile state lost. -/
def execOffTimer (r : RegionIx) (s : State) : Res :=
  let R := s.region r
  .next (if (R.live || (R.power == .nap && !R.tripped)) && s.mayOff r then s.loseState r else s)

/-- The wakes under way at a brick, from OFF and from NAP. -/
def State.wakesAt (s : State) (b : Nat) (p : PState) : Nat := ((brickRegions b).filter fun r => let R := s.region r; R.waking && R.power == p).length
/-- Wakes waiting at a brick, in order of request. -/
def State.waitersAt (s : State) (b : Nat) : List Nat := s.power.wakes.filter fun r => brickOfRegion r == b
/-- May a region be powered: not dead, its rail not off for good, its brick working, nothing tripped or waiting for a test? -/
def State.powerable (s : State) (r : Nat) : Bool :=
  let R := s.region r
  !s.org.dead.contains r && !R.railOffLatched && !s.power.brickFailed.contains (brickOfRegion r) && !R.tripped && !R.shutHot
/-- WAKE_START: the first wake waiting at a brick starts when the brick has the headroom and room for one more. After a trip the
region controller wakes its region by itself (R578); the other wakes are Fufin's. -/
def execWakeStart (r : RegionIx) (s : State) : Res :=
  let R := s.region r
  let b := brickOfRegion r
  let off := R.power == .off
  let need := if off then 100 else 60
  if s.start.stopped || (!s.foldAlive && !R.wakeLow) || !s.powerable r || R.waking || (R.power != .off && R.power != .nap) || R.testFirst then .next s
  else if (s.waitersAt b).head? ≠ some r.val then .next s
  else if (if off then decide (s.wakesAt b .off ≥ 1) else decide (s.wakesAt b .nap ≥ 2)) then .next s
  else if s.headroom b < need then .next s
  else .next ((s.modRegion r fun R => { R with waking := true, reserve := need, reserveMs := 2, wakeLow := R.wakeLow || s.power.lowest }).modPower
    fun P => { P with wakes := P.wakes.filter (· != r.val) })

/-- Packets that waited for a tile's region are accepted. -/
def State.wakePackets (s : State) (t : Nat) : State :=
  let ps := (s.tile t).net.waiting
  let s := s.modTile t fun T => { T with net := { T.net with waiting := [] } }
  ps.foldl (fun s p => if p.typ = .notice then s.noticeArrive p else s.arrive p) s
/-- A woken region's state: its clock at the point it returns at, and the crossings of its links to be calibrated. -/
def State.wakeUp (s : State) (r : Nat) : State :=
  let R := s.region r
  let f := if R.wakeLow then 16 else R.fmult
  let s := s.setRegion r { R with power := .on, waking := false, stopped := false, regionLock := true, fmult := f, voltMv := s.voltFor r f, wakeLow := false, forced := s.power.lowest, burst := 0 }
  -- the links carry nothing scheduled until they are calibrated (R362)
  (regionTiles r).foldl (fun s t => (upto 0 4).foldl (fun s d => match neighbour t d with
    | none => s
    | some u => (s.modSched t fun q => { q with cal := tput q.cal d {} }).modSched u fun q => { q with cal := tput q.cal (opposite d) {} }) s) s
/-- What the tiles of a woken region find: after OFF, control stores from a verified copy (or, during a start, none) and
zero-fill; during a start they wait for spores with DETECT_ONLY set (R187, R602, R607, R608). -/
def State.wakeTiles (s : State) (r : Nat) (fromOff : Bool) : State :=
  if !fromOff then s
  else (regionTiles r).foldl (fun s t =>
    if s.start.phase = 7 ∨ s.start.phase = 8 then
      let s := s.clearTile t
      if s.fit t then s.modTile t fun T => { T.setField 0xA08 0 1 1 with spore := { state := 1 } } else s
    else if s.fit t then (s.clearTile t).modSpore t fun p => { p with loaded := true, verified := true } else s) s
/-- WAKE_COMPLETE: a wake from NAP ends, or one from OFF whose control stores came back with the digest right (`digest`) from a
copy of the tile image. A digest wrong at both copies stops the wake. -/
def execWakeComplete (r : RegionIx) (digest : Bool) (s : State) : Res :=
  let R := s.region r
  let fromOff := R.power == .off
  let serving := !(s.start.phase == 7 || s.start.phase == 8)
  if !R.waking then .next s
  else if fromOff && serving && s.start.imageCopies.isEmpty then .next s
  else if fromOff && serving && !digest then
    .next (s.modRegion r fun R => { R with waking := false, reserve := 0, reserveMs := 0, testFirst := true })
  else
    let s := (s.wakeUp r).wakeTiles r fromOff
    -- an image that waits for the wake is taken now (R647)
    let s := match R.pendingBank with
      | some b => (s.modRegion r fun R => { R with runBank := b, pendingBank := none }).activated 2 r b
      | none => s
    .next ((regionTiles r).foldl (fun s t => s.wakePackets t) s)

/-! ### Ageing (R565) -/

/-- An entry of a tile is recorded at a lower value, and with it every lower entry; a tile below 56 at C(7) is unfit. -/
def State.lowerCeil (s : State) (t k v : Nat) : State :=
  if s.ceil t k ≤ v then s
  else
    let s := (upto 0 (k + 1)).foldl (fun s j =>
      if s.ceil t j ≤ v then s
      else (s.modPower fun P => { P with ceil := tput P.ceil (8 * t + j) (some v), lowerings := tmod P.lowerings t fun n => min (n + 1) 255 }).tileEvent t 0x800A 0xFFFF [j, v]) s
    if s.ceil t 7 < 56 ∧ !s.org.unfit.contains t then (s.tileEvent t 0x800B 0xFFFF []).declareUnfit t 0x800B else s
/-- AGEING_CHECK: over a second, timing monitors stretched more than 1% of the ticks at voltage point k; `tiles` stand beside those
that tripped. Each loses one FMULT step at that point, and a re-characterisation of the region is wanted. A region above its
ceiling comes down (R562). -/
def execAgeingCheck (r : RegionIx) (k : Fin 8) (tiles : List (Fin 4)) (s : State) : Res :=
  if !s.foldUp then .next s else
  let s := tiles.foldl (fun s (i : Fin 4) => let t := tileInRegion r i; s.lowerCeil t k (s.ceil t k - 1)) s
  let s := if (s.region r).fmult > s.topFmult r then s.askFmult r (max 16 (s.topFmult r)) else s
  .next { s with start := { s.start with recharWanted := setIns s.start.recharWanted r } }

/-! ### The cap (R566-R569, R572-R575, R577, R600) -/

/-- The effective cap in W. -/
def Power.cap (P : Power) : Nat := min 12000 (min P.hostCap P.foldCap)
/-- A region's sample: the estimator's trust and correction, and the point the sample was taken at. -/
def State.takeSample (s : State) (x : RegionSample) : State :=
  let r := x.region.val
  let R := s.region r
  let e := R.corr * x.raw / 1000000
  let m := x.measured
  let off := max e m - min e m
  -- k moves a quarter of the way to M / E, within 0.5 and 2.0
  let ratio := if x.raw = 0 then R.corr else m * 1000000 / x.raw
  let corr := min 2000000 (max 500000 ((3 * R.corr + ratio) / 4))
  let bad := if 4 * off > m then R.badCount + 1 else 0
  let good := if R.refit && decide (10 * off ≤ m) then R.trustCount + 1 else 0
  let R := { R with corr := corr, estMw := corr * x.raw / 1000000, measMw := m, atFmult := R.fmult, atMv := max 1 R.voltMv, badCount := bad, trustCount := good }
  let s := s.modPower fun P => { P with computeMw := tput P.computeMw r m, computeMa := tput P.computeMa r x.computeMa, transitMa := tput P.transitMa r x.transitMa }
  if !R.untrusted && decide (bad ≥ 8) then
    (s.setRegion r { R with untrusted := true, refit := false, trustCount := 0, pacing := false, pacingMs := 0, pace := 0, burst := 0 }).regionEvent r 0x8008 0xFFFF []
  else if R.untrusted && decide (good ≥ 64) then
    (s.setRegion r { R with untrusted := false, refit := false, badCount := 0, trustCount := 0, burst := 0 }).regionEvent r 0x8009 0xFFFF []
  else s.setRegion r R
/-- Fufin's thermal limit: a step down each millisecond at 95 degrees, predicted or read; a step up each 10 ms below 90. -/
def State.throttle (s : State) (x : RegionSample) : State :=
  let r := x.region.val
  let R := s.region r
  let hottest := max x.predicted R.temp
  if hottest ≥ 95 then (s.setRegion r { R with limit := max 16 (R.limit - 1), coolMs := 0 }).regionEvent r 0x8201 0xFFFF [R.temp, x.predicted]
  else if hottest < 90 ∧ R.limit < 74 then
    if R.coolMs + 1 ≥ 10 then s.setRegion r { R with limit := R.limit + 1, coolMs := 0 } else s.setRegion r { R with coolMs := R.coolMs + 1 }
  else s.setRegion r { R with coolMs := 0 }
/-- A region's wake reservation runs out with the first whole millisecond after its wake. -/
def Region.releaseReserve (R : Region) : Region :=
  if R.waking || R.reserve == 0 then R else if R.reserveMs ≤ 1 then { R with reserve := 0, reserveMs := 0 } else { R with reserveMs := R.reserveMs - 1 }

/-- Grants by class: 0 links, 1 memory, 2 compute, in the order held (R568). -/
def shareClasses (avail : Nat) (demand floor : List Nat) : List Nat → Tab Nat → Tab Nat
  | [], tb => tb
  | c :: rest, tb =>
    let later := natSum (rest.map fun x => floor.getD x 0)
    let g := min (demand.getD c 0) (avail - later)
    shareClasses (avail - g) demand floor rest (tput tb c g)
/-- The FMULT that one level's regions share, given what is left above the floors (R569). -/
def State.levelFmult (s : State) (rs : List Nat) (left : Nat) : Nat :=
  bestFmult 74 fun f => decide (natSum (rs.map fun r => s.cost r (min f (s.upperLimit r)) - s.cost r 16) ≤ left)
/-- The levels from a priority down: each takes its common FMULT; a pre-emption under way asks for 56, where it still fits (R427). -/
def State.shareLevels (s : State) : Nat → Nat → List (Nat × Nat) → List (Nat × Nat)
  | 0, _, acc => acc
  | n + 1, left, acc =>
    let rs := (upto 0 144).filter fun r => (s.region r).live && s.regionChief r != 0 && (s.paddock (s.regionChief r)).prio == n
    let f := s.levelFmult rs left
    let own := rs.map fun r => (r, min f (s.upperLimit r))
    let used := natSum (own.map fun e => s.cost e.1 e.2 - s.cost e.1 16)
    let hurry := own.map fun e => if (s.paddock (s.regionChief e.1)).preempt then (e.1, max e.2 (min 56 (s.upperLimit e.1))) else e
    let used' := natSum (hurry.map fun e => s.cost e.1 e.2 - s.cost e.1 16)
    let (own, used) := if used' ≤ left then (hurry, used') else (own, used)
    s.shareLevels n (left - used) (acc ++ own)
/-- A region is given its point: never raised while hardware holds it low, and after the lowest state by at most 8 steps (R585). -/
def State.givePoint (s : State) (r f : Nat) : State :=
  let R := s.region r
  let f := if s.power.ramp then min f (R.fmult + 8) else f
  let f := if R.forced || R.hot then min f R.fmult else f
  (if f = R.changing.getD R.fmult ∧ R.pendingFmult.isNone then s else s.askFmult r f).modRegion r fun R => { R with grant := s.predict r f }
/-- The allocation of one millisecond. -/
def State.allocate (s : State) (m : PowerSample) : State :=
  let live := (upto 0 144).filter fun r => (s.region r).live
  let floorC := natSum (live.map fun r => s.cost r 16)
  let demandC := natSum (live.map fun r => s.cost r (if s.regionChief r = 0 then 16 else s.upperLimit r))
  let avail := (1000 * s.power.cap - m.fold) * m.outputs / max 1 m.input - m.transit
  let memDemand := max m.memory m.memoryFloor
  let g := shareClasses avail [m.links, memDemand, demandC] [m.linksFloor, m.memoryFloor, floorC] s.power.order []
  -- sixteenths of the issue rate that fit, between the floor at 4 and the whole at 16
  let memRate := if tget g 1 ≥ memDemand then 16 else min 16 (4 + (tget g 1 - m.memoryFloor) * 12 / max 1 (m.memory - m.memoryFloor))
  let s := s.modPower fun P => { P with linksCut := decide (tget g 0 < m.links), memRate := memRate }
  let points := s.shareLevels 16 (tget g 2 - floorC) []
  let rest := (live.filter fun r => s.regionChief r == 0).map fun r => (r, 16)
  let s := if s.power.lowest then s else (points ++ rest).foldl (fun s e => s.givePoint e.1 e.2) s
  if s.power.ramp ∧ !s.power.lowest ∧ (points.all fun e => decide (e.2 ≤ (s.region e.1).fmult + 8)) then s.modPower fun P => { P with ramp := false } else s

/-- Waves: with the reservations of the last wave released, the start goes on to the spores (R596, R600). -/
def State.wavesOver (s : State) : Bool :=
  s.start.phase == 7 && s.start.waves == 4 && s.power.wakes.isEmpty && (upto 0 144).all fun r => (s.region r).reserve == 0 && !(s.region r).waking
/-- CAP_ALLOCATION: a millisecond's measurements, trust, limits and shares. -/
def execCapAllocation (m : PowerSample) (s : State) : Res :=
  -- with no Fold pair active every region keeps its last grant (R629)
  if !s.foldUp then .next s else
  let s := s.modPower fun P => { P with
    inputW := m.input / 1000, recent := (m.input / 1000 :: P.recent).take 1000, foldCw := m.fold / 10, feedDv := m.feedDv, convW := m.convW
    brickDa := m.bricks.foldl (fun tb b => tput tb b.1 b.2.1) P.brickDa, brickTemp := m.bricks.foldl (fun tb b => tput tb b.1 b.2.2) P.brickTemp
    edgeCa := m.edges.foldl (fun tb e => tput tb e.1 e.2.1) P.edgeCa, edgeTemp := m.edges.foldl (fun tb e => tput tb e.1 e.2.2) P.edgeTemp }
  let s := m.regions.foldl (fun s x => (s.takeSample x).throttle x) s
  let s := s.modPower fun P => { P with brickLimit := P.brickLimit.filter fun b => decide (tget P.brickDa b > 1000) }
  let s := if m.input = 0 then s else s.allocate m
  let s := { s with regions := tmap Region.releaseReserve s.regions }
  .next (if s.wavesOver then { s with start := { s.start with phase := 8 } } else s)

/-- GRANT_ENFORCE: a microsecond's raw estimate `e` in mW against the grant: the burst account in mW µs, pacing, and after each
100 µs of it one step down (R570). A region without a grant yet has nothing to enforce. -/
def execGrantEnforce (r : RegionIx) (e : BitVec 32) (s : State) : Res :=
  let R := s.region r
  if R.untrusted || R.power != .on || R.stopped || R.grant == 0 then .next s
  else
    let e := R.corr * e.toNat / 1000000
    let B := R.grant
    let full := 5000 * B
    let A := min full (R.burst + e - B)
    let paces := decide (4 * e > 5 * B) || (decide (e > B) && A == full)
    if !paces then .next (s.setRegion r { R with burst := A, pacing := false, pacingMs := 0, pace := 0 })
    else
      -- four times the allowed value
      let allowed := if A = full then 4 * B else 5 * B
      let k := ((upto 1 4).find? fun k => decide (4 * e * 8 ≤ allowed * (8 + k))).getD 4
      let n := R.pacingMs + 1
      let s := s.setRegion r ({ R with burst := A, pacing := true, pacingMs := n, pace := k }.stretched k)
      .next (if n % 100 = 0 ∧ R.fmult > 16 ∧ R.changing.isNone then s.askFmult r (R.fmult - 1) else s)

/-- ESTIMATOR_REFIT. -/
def execEstimatorRefit (r : RegionIx) (s : State) : Res :=
  .next (s.modRegion r fun R => if R.untrusted && s.foldUp then { R with refit := true, trustCount := 0 } else R)

/-! ### Temperature (R576-R581) -/

/-- Twice the median of some readings. -/
def median2 (l : List Nat) : Nat :=
  let srt := l.foldl (fun acc x => (acc.takeWhile (· < x)) ++ x :: acc.dropWhile (· < x)) []
  let n := srt.length
  srt.getD ((n - 1) / 2) 0 + srt.getD (n / 2) 0
/-- SENSOR_SELF_CHECK: a millisecond's readings of the four sensors, and those that fail their check. A sensor 100 ms more than 10
degrees from the median of the valid ones is excluded too. Without a valid one the rail is off for good. -/
def execSensorSelfCheck (r : RegionIx) (temps : Vector (BitVec 8) 4) (failed : List (Fin 4)) (s : State) : Res :=
  let ts := temps.toList.map (·.toNat)
  let R := { s.region r with temps := ts }
  let mid := median2 (R.valid.map fun i => ts.getD i 0)
  let away := R.valid.foldl (fun tb i =>
    let d := max (2 * ts.getD i 0) mid - min (2 * ts.getD i 0) mid
    tput tb i (if d > 20 then tget tb i + 1 else 0)) R.away
  let out := R.valid.filter fun i => (failed.any fun f => f.val == i) || decide (tget away i ≥ 100)
  let s := s.setRegion r { R with away := away, excluded := out.foldl setIns R.excluded, hot := R.hot && decide (R.temp ≥ 100) }
  let s := out.foldl (fun s i => s.regionEvent r 0x8206 0xFFFF [i]) s
  .next (if (s.region r).valid.isEmpty && !(s.region r).railOffLatched && !s.org.dead.contains r.val then (s.railOff r 0x8207).regionEvent r 0x8207 0xFFFF [] else s)

/-- THERMAL_FORCED_DROP: at 105 degrees the region controller forces FMULT 16, until below 100. -/
def execThermalForcedDrop (r : RegionIx) (s : State) : Res :=
  if (s.region r).temp < 105 || (s.region r).hot then .next s
  else .next (((s.modRegion r fun R => { R with hot := true }).forceLow r).regionEvent r 0x8201 0xFFFF [(s.region r).temp])
/-- THERMAL_TRIP: a valid sensor's comparator has fired at 110 degrees. The clock is gated and everything holds; the rail goes to
retention. A ramp from OFF stops; a relock under way completes with the clock stopped (R588). -/
def execThermalTrip (r : RegionIx) (sensor : Fin 4) (s : State) : Res :=
  let R := s.region r
  if !R.valid.contains sensor || R.tripped || s.org.dead.contains r || R.railOffLatched then .next s
  else
    let off := R.power == .off
    let s := s.setRegion r { R with
      tripped := true, power := if off then .off else .nap, stopped := true, regionLock := false, voltMv := if off then 0 else 450
      slewTo := none, pendingFmult := none, fmult := R.changing.getD R.fmult, changing := none, waking := false, reserve := 0, reserveMs := 0
      pacing := false, pacingMs := 0, pace := 0
      trips := s.time :: R.trips.filter fun x => decide (s.time < x + 1000000000) }
    let s := if R.waking then s.wantWake r else s
    .next (s.regionEvent r 0x8202 sensor [sensor.val])
/-- TRIP_RELEASE: every valid sensor below 100 degrees for 1 ms, and below 85 after a heat shutdown. The region wakes at FMULT 16;
after a second trip within a second only Fufin releases it, and first lowers its thermal limit by 8. -/
def execTripRelease (r : RegionIx) (s : State) : Res :=
  let R := s.region r
  if !R.tripped || R.valid.isEmpty || !decide (R.temp < (if R.shutHot then 85 else 100)) then .next s
  else
    let again := decide (R.trips.length ≥ 2)
    if again && !s.foldUp then .next s else
    let s := s.setRegion r { R with tripped := false, shutHot := false, wakeLow := true, limit := if again then max 16 (R.limit - 8) else R.limit }
    .next ((s.wantWake r).regionEvent r 0x8203 0xFFFF [])
/-- HEAT_SHUTDOWN: 120 degrees while tripped. -/
def execHeatShutdown (r : RegionIx) (s : State) : Res :=
  let R := s.region r
  if !R.tripped || R.shutHot || R.temp < 120 then .next s
  else
    let s := ((s.failHeld r false).loseState r).modRegion r fun R => { R with shutHot := true }
    -- a region in CLEARING is zero-filled at its next wake
    let s := if s.org.clearing.contains r then s.wantWake r else s
    .next (s.regionEvent r 0x8205 0xFFFF [])

/-- HBM_THERMAL_THROTTLE: a stack's reported temperature sets its issue rate, and at 100 degrees holds it in self-refresh until below
95. -/
def execHbmThermalThrottle (k : StackIx) (temp : BitVec 8) (s : State) : Res :=
  let c := temp.toNat
  let K := s.stack k
  let hold := if K.srForced then decide (c ≥ 95) else decide (c ≥ 100)
  let rate := if c > 85 then max 4 (16 - (c - 85)) else 16
  let s := s.modStack k fun K => { K with temp := c, throttle := rate, srForced := hold, selfRefresh := (K.selfRefresh || hold) && (K.working || K.state == .inReset) }
  let s := if c > 85 then s.stackEvent k 0x8208 [c] else s
  .next (if hold && !K.srForced then s.stackEvent k 0x8209 [c] else s)
/-- LINK_EDGE_THERMAL: the sensor of a Lamug port's edge domain. -/
def execLinkEdgeThermal (n : LampIx) (temp : BitVec 8) (s : State) : Res :=
  let k := 24 + n.val
  let c := temp.toNat
  .next (s.modPower fun P => { P with
    edgeTemp := tput P.edgeTemp k c
    hotEdges := if c ≥ 105 then setIns P.hotEdges k else if c < 95 then setDel P.hotEdges k else P.hotEdges })

/-! ### Coolant (R582, R708, R709) -/

/-- The worse of a pair: the higher of two temperatures, the lower of two flows. -/
def worse (f : Nat → Nat → Nat) (p : Option Nat × Option Nat) : Option Nat :=
  match p.1, p.2 with | some a, some b => some (f a b) | some a, none => some a | none, b => b
/-- The Fold cap for the readings in tenths: 1,000 W for each whole degree above 40 at the inlet; in proportion to a flow below 24.0;
6,000 W with a pair unavailable. -/
def foldCapFor (inlets flows : Option Nat × Option Nat) : Nat :=
  let i := match worse max inlets with | some x => 12000 - 1000 * ((x - 400) / 10) | none => 6000
  let f := match worse min flows with | some x => if x < 240 then 12000 * x / 240 else 12000 | none => 6000
  max 3500 (min i f)
def State.setFoldCap (s : State) : State :=
  let c := foldCapFor s.power.inlets s.power.flows
  if c = s.power.foldCap || !s.foldUp then s else (s.modPower fun P => { P with foldCap := c }).unitEvent 0x820A 0xFFFF [c]
/-- FOLD_CAP_UPDATE: readings of the available sensors. -/
def execFoldCapUpdate (inlets outlets flows : BitVec 16 × BitVec 16) (s : State) : Res :=
  let upd := fun (old : Option Nat × Option Nat) (v : BitVec 16 × BitVec 16) => (old.1.map fun _ => v.1.toNat, old.2.map fun _ => v.2.toNat)
  .next ((s.modPower fun P => { P with inlets := upd P.inlets inlets, outlets := upd P.outlets outlets, flows := upd P.flows flows }).setFoldCap)
/-- COOLANT_SENSOR_CHECK: a sensor's reading, or none when its self-check fails: 0-1 inlets, 2-3 outlets, 4-5 flows. -/
def execCoolantSensorCheck (k : Fin 6) (v : Option (BitVec 16)) (s : State) : Res :=
  let v := v.map (·.toNat)
  let put := fun (p : Option Nat × Option Nat) => if k.val % 2 = 0 then (v, p.2) else (p.1, v)
  .next ((s.modPower fun P => match k.val / 2 with
    | 0 => { P with inlets := put P.inlets }
    | 1 => { P with outlets := put P.outlets }
    | _ => { P with flows := put P.flows }).setFoldCap)

/-! ### The module lowest state (R583-R585) -/

/-- Why the drop line is driven: ALERT_PWR_N from a regulator, or the Fold's comparator on two trip outputs. -/
def State.lowestState (s : State) (code unit : Nat) : State :=
  let s := s.modPower fun P => { P with lowest := true }
  let s := (upto 0 144).foldl (fun s r =>
    if s.org.dead.contains r then s
    else
      let R := s.region r
      (s.setRegion r { R with forced := R.live, wakeLow := R.wakeLow || R.waking }).forceLow r) s
  s.unitEvent code unit []
/-- DROP_LINE_ASSERT. A masked alert drives nothing. -/
def execDropLineAssert (source : Option Regulator) (s : State) : Res :=
  match source with
  | some g =>
    if s.power.masked.contains (regNo g) then .next s
    else .next ((s.modPower fun P => { P with alerts := setIns P.alerts (regNo g) }).lowestState 0x8006 (regNo g))
  | none =>
    if ((upto 0 144).filter fun r => (s.region r).tripped).length < 2 then .next s
    else .next (s.lowestState 0x8204 0xFFFF)
/-- LOWEST_STATE_RELEASE: no unmasked alert, fewer than two regions tripped, a millisecond since assertion. -/
def execLowestStateRelease (s : State) : Res :=
  if !s.foldUp || !s.power.lowest || !s.power.alerts.isEmpty || ((upto 0 144).filter fun r => (s.region r).tripped).length ≥ 2 then .next s
  else
    let s := s.modPower fun P => { P with lowest := false, ramp := true }
    .next ({ s with regions := tmap (fun (R : Region) => { R with forced := false }) s.regions }.unitEvent 0x8007 0xFFFF [])

/-! ### Regulator faults (R585) -/

/-- The block of an edge domain whose regulator has failed goes out of service. -/
def State.edgeDomainLost (s : State) (k : Nat) : State :=
  if k < 20 then (s.modStack k fun K => { K with lostPower := true }).stackOut k true
  else if k < 24 then s.hostPortOut (k - 20)
  else s.portOut (k - 24)
/-- What follows from a latch, by its source. A compute regulator without input is a brick's matter: the brick check finds the
brick failed or not (`brick`). -/
def State.regulatorLost (s : State) (g : Regulator) (f : RegFault) (brick : Bool) : State :=
  match g, f with
  | .converter b, _ => s.feedLost b (getSide s.power.feeds b)
  | .compute r, .short => if s.org.dead.contains r then s else (s.regionDies r 0x8005).regionEvent r 0x8005 0xFFFF []
  | .compute r, .input => if brick then s.brickLost (brickOfRegion r) else s
  | .compute r, _ => s.railOff r 0x8006
  | .transit r, _ => s.regionDies r 0x8006
  | .edge k, _ => s.edgeDomainLost k
/-- REGULATOR_FAULT: Fufin reads a latch and acts; a latch that does not clear has its alert masked, and the mask is recorded. -/
def execRegulatorFault (g : Regulator) (f : RegFault) (brick clears : Bool) (s : State) : Res :=
  let n := regNo g
  let s := s.regulatorLost g f brick
  let s := s.modPower fun P => { P with alerts := setDel P.alerts n }
  .next (if clears || s.power.masked.contains n then s else (s.defect 0x0A 0x8006 [n]).modPower fun P => { P with masked := setIns P.masked n })

end Sys2Proof.Machine
end

