-- ==== Sys2Proof/Machine/BringUp.lean ====
section
/-! DEFINITION. The start: phases, waves, spores, self-test, bindings, memory test; host ports and sessions (R27, R595-R613). -/
namespace Sys2Proof.Machine

def State.modStart (s : State) (f : Start → Start) : State := { s with start := f s.start }

/-! ### Tile images (R606, R607) -/

/-- Edge of the die that a stack stands on. -/
def stackEdge (k : Nat) : Nat := if k < 8 then 3 else if k < 16 then 1 else if k < 18 then 0 else 2
/-- Frames that a copy of the tile image takes: 1,548,288 bytes. -/
def imageFrames : Nat := 378
def State.stackServes (s : State) (k : Nat) : Bool := (s.stack k).working
/-- A copy of the tile image is written on the first stack in service that stands on no edge of another copy. -/
def State.addCopy (s : State) : State :=
  let used := s.start.imageCopies.map fun c => stackEdge c.1
  match (upto 0 20).find? fun k => s.stackServes k && !used.contains (stackEdge k) with
  | none => s
  | some k => match s.findFrames k imageFrames 1 with
    | none => s
    | some fs => (s.setFrames fs .device).modStart fun x => { x with imageCopies := x.imageCopies ++ [(k, fs)] }
/-- TILE_IMAGE_COPY_REBUILD: copies on stacks that serve no more, or that failed their digest (`bad`), are replaced. -/
def execTileImageCopyRebuild (bad : List StackIx) (s : State) : Res :=
  let gone := s.start.imageCopies.filter fun c => !s.stackServes c.1 || bad.any fun k => k.val == c.1
  let s := gone.foldl (fun s c => s.setFrames c.2 .free) s
  let s := s.modStart fun x => { x with imageCopies := x.imageCopies.filter fun c => !gone.contains c }
  let s := if s.start.imageCopies.length < 2 then s.addCopy else s
  .next (if s.start.imageCopies.length < 2 then s.addCopy else s)

/-! ### Phases (R596-R600, R709) -/

/-- The fabric is up: transit rails, edge domains and the routing tables; stacks and Lamug ports begin training. -/
def State.fabricUp (s : State) : State :=
  let s := { s with net := { s.net with routed := true } }
  let s := (upto 0 144).foldl (fun s r => if s.org.dead.contains r then s else s.modRegion r fun R => { R with transitLock := true }) s
  (upto 0 18).foldl (fun s n => if s.lampLicensed n && (s.lamp n).enable && (s.lamp n).state == .down then s.modLamp n fun L => { L with state := .training, step := 1 } else s) s
/-- Tiles that a start must load: fit ones of regions that have been woken. -/
def State.startTiles (s : State) : List Nat := (upto 0 576).filter fun t => s.fit t && (s.region (regionOf t)).live
/-- The spores are in place: the counts gleaned are recorded once, and two copies of the image are kept. -/
def State.sporesDone (s : State) : State :=
  let ts := s.startTiles
  let n := natSum (ts.map fun t => (s.tile t).spore.gleaned)
  let m := natSum (ts.map fun t => (s.tile t).spore.fromFold)
  let s := if n + m ≠ 0 ∧ !s.start.gleanRaised then (s.unitEvent 0x9004 0xFFFF [n, m]).modStart fun x => { x with gleanRaised := true } else s
  (s.addCopy).addCopy
/-- Identity: the derived device key is compared with its certificate; the variant is the highest that fuses and valid licences give;
licences that fail verification (`bad`, by their order in flash) are ignored (R661, R668). -/
def State.identityPhase (s : State) (bad : List (BitVec 8)) : State :=
  let ok := deviceId.2 == some Config.deviceCert
  let s := if ok then s.modIdent fun I => { I with attest := true }
           else (s.modIdent fun I => { I with attest := false }).unitEvent 0xB002 0xFFFF []
  let ls := (upto 0 s.ident.licences.length).filter fun i => !bad.any fun b => b.toNat == i
  let s := ((upto 0 s.ident.licences.length).filter fun i => !ls.contains i).foldl (fun s i => s.unitEvent 0xB004 0xFFFF [1, i]) s
  let best := ls.foldl (fun m i => max m (s.ident.licences.getD i 1)) (if s.ident.fuseF then 3 else if s.ident.fuseP then 2 else 1)
  { s with org := { s.org with variant := variantOf best } }
/-- Verification: a bank that fails its check (`bad`), whose signature fails, or that holds a component below its floor is refused.
The pairs boot a bank that is not refused, and every instance loads from theirs; with none, no pair runs (R596, R642, R669). -/
def State.verifyPhase (s : State) (bad : List (Fin 2)) : State :=
  let refused := fun (b : Nat) =>
    let B := s.fold.bank b
    bad.any (fun x => x.val == b) || !B.valid || !B.fw.matches_ || !B.fw.signed || (upto 1 5).any fun c => decide ((B.comp c).svn.val < s.ident.floors.getD (c - 1) 0)
  let now := match s.fold.activePair with | some p => (s.fold.pair p).bank | none => s.fold.activeBank
  let s := (upto 0 2).foldl (fun s b => if refused b then s.modFold fun F => F.setBank b { F.bank b with valid := false } else s) s
  if refused now && refused (1 - now) then
    s.modFold fun F => { F with
      pair0 := if F.pair0.st = .failed then F.pair0 else { F.pair0 with st := .stopped }
      pair1 := if F.pair1.st = .failed then F.pair1 else { F.pair1 with st := .stopped } }
  else
    let b := if refused now then 1 - now else now
    let s := s.modFold fun F => { F with
      pair0 := { F.pair0 with bank := b }, pair1 := { F.pair1 with bank := b }, activeBank := b }
    let s := (upto 0 144).foldl (fun s r => s.modRegion r fun R => { R with runBank := b, pendingBank := none }) s
    let s := (upto 0 20).foldl (fun s k => s.modStack k fun K => { K with runBank := b, pendingBank := none }) s
    let s := (upto 0 18).foldl (fun s n => s.modLamp n fun L => { L with runBank := b, pendingBank := none }) s
    ((upto 0 4).foldl (fun s p => s.setPort p { s.port p with runBank := b, pendingBank := none }) s).fwSettle
/-- The defect map's copies are brought together: binding records that a later one supersedes go; one copy with a broken seal is
rebuilt from the other; with both broken the start is a cold one (R612). -/
def State.mapPhase (s : State) (broken : Fin 3) : State :=
  let kept := s.org.defects.filter fun d => d.kind != 0x0D || !s.org.defects.any fun e => e.kind == 0x0D && e.where_.head? == d.where_.head? && decide (e.seq > d.seq)
  let s := { s with org := { s.org with defects := kept } }
  match broken.val with
  | 0 => s
  | 1 => s.unitEvent 0x9006 0xFFFF []
  | _ => s.modStart fun x => { x with cold := true, tested := [] }
/-- START_PHASE_END: the phase under way ends and the next begins: wake, boot, identity, verification, fabric, and spores once every
fit tile is loaded. From the third on, Fufin runs the start. -/
def execStartPhaseEnd (badLicences : List (BitVec 8)) (badBanks : List (Fin 2)) (brokenSeals : Fin 3) (s : State) : Res :=
  let next := fun (s : State) => s.modStart fun x => { x with phase := x.phase + 1 }
  if s.power.lost || (decide (s.start.phase ≥ 3) && !s.foldAlive) then .next s
  else match s.start.phase with
  | 1 => .next (next s)
  -- the test port loses the pins (R720)
  | 2 => .next { next s with pins := { s.pins with tapDrive := 0 } }
  | 3 => .next (next ((s.identityPhase badLicences).mapPhase brokenSeals))
  | 4 => .next (next (s.verifyPhase badBanks))
  | 5 => .next (next s.fabricUp)
  | 8 => .next (if s.startTiles.all fun t => (s.tile t).spore.state == 4 then next s.sporesDone else s)
  | _ => .next s
/-- START_COOLANT_WAIT: a start that waits at the end of phase 6 goes on once the coolant is within limits. -/
def execStartCoolantWait (s : State) : Res :=
  .next (if s.start.phase = 6 ∧ s.start.coolantWait ∧ s.coolantOk then s.modStart fun x => { x with phase := 7, coolantWait := false } else s)
/-- The wave of a region (R599). -/
def waveOf (r : Nat) : Nat :=
  let f := r / 16
  let l := r % 16
  2 * ((4 * (f / 3) + l / 4) % 2) + (4 * (f % 3) + l % 4) % 2
/-- WAVE_START: with the last wave's reservations released, the next wave's regions ask to wake. -/
def execWaveStart (s : State) : Res :=
  let w := s.start.waves
  let clear := s.power.wakes.isEmpty && (upto 0 144).all fun r => (s.region r).reserve == 0 && !(s.region r).waking
  if s.start.phase ≠ 7 ∨ w ≥ 4 ∨ !clear then .next s
  else
    let s := s.modStart fun x => { x with waves := w + 1 }
    .next (((upto 0 144).filter fun r => waveOf r == w && s.powerable r && (s.region r).power == .off).foldl (fun s r =>
      (s.modRegion r fun R => { R with wakeLow := true }).wantWake r) s)

/-- GLEAN_ROUND: an agent that lacks spores begins one of its three rounds. One that no spore has told COUNT takes the 768 of this
release's image (R601). -/
def execGleanRound (t : TileIx) (s : State) : Res :=
  let p := (s.tile t).spore
  if s.start.phase ≠ 8 ∨ !(p.state == 1 || p.state == 2) ∨ p.round ∨ p.rounds ≥ 3 then .next s
  else .next ((s.modSpore t fun p => { p with
    state := 2, round := true, rounds := p.rounds + 1, count := if p.count = 0 then 768 else p.count }).gleanFrom t 0 0)

/-! ### Self-test (R608-R610) -/

/-- What is done about a finding. -/
def State.actOn (s : State) (r : Nat) : Finding → State
  | .column i a c => s.declareColumn (tileInRegion r i) a c
  | .word i w => s.spdRepair (tileInRegion r i) w.toNat .scrubber
  | .point i k lower =>
    let t := tileInRegion r i
    match lower with
    | some d => if d.val = 0 then s else s.lowerCeil t k (s.ceil t k - d)
    | none => if s.org.unfit.contains t then s else (s.tileEvent t 0x800B 0xFFFF []).declareUnfit t 0x800B
  | .tileUnit i => let t := tileInRegion r i; if s.org.unfit.contains t then s else (s.tileEvent t 0x9002 0xFFFF []).declareUnfit t 0x9002
  | .shared => (s.regionEvent r 0x9003 0xFFFF []).railOff r 0x9003
  | .transit => if s.org.dead.contains r then s else (s.regionEvent r 0x9003 0xFFFF []).regionDies r 0x9003
/-- Is the region under test: in the ninth phase of a start, in a retest, or before a wake that found no good image? -/
def State.underTest (s : State) (r : Nat) : Bool := s.start.phase == 9 || s.org.retest.contains r || (s.region r).testFirst
/-- SELF_TEST_STEP: a step's findings are acted on. -/
def execSelfTestStep (r : RegionIx) (found : List Finding) (s : State) : Res :=
  .next (if s.underTest r then found.foldl (fun s f => s.actOn r f) s else s)

/-! ### Bindings and the memory test (R464, R596, R613) -/

/-- The bindings of a start: at the first, every licensed ID in ascending order; later, those whose tile is unfit, as tiles lost
(R613, R615). -/
def State.bindAll (s : State) : State :=
  let all := (upto 0 540).filter s.licensed
  let lost := all.filter fun l => match s.tileOf l with | some t => !s.fit t | none => false
  -- with no paddock alive, IDs that a licence raise left waiting are bound too (R622)
  let ids := if s.start.first then all else all.filter fun l => lost.contains l || s.org.toBind.contains l
  let s := { s with org := { s.org with binds := if s.start.first then all.foldl (fun tb l => tput tb l .hole) s.org.binds else s.org.binds, lost := [] } }
  let waited := s.org.toBind
  let s := ids.foldl (fun s l =>
    let to_ := s.choose27 l fun _ => true
    let old := s.tileOf l
    let s := (s.bind l to_ 0).tookLast l to_
    match to_, old with
    | none, _ => s.raise { code := 0x9102, lid := l, detail := [l] }
    | some t, some o => s.raise { code := 0x9103, lid := l, node := t, region := regionOf t, detail := [l, o, t] }
    | some _, none => s) s
  let s := { s with org := { s.org with toBind := [] } }
  let s := s.geoUpdate ids
  if waited.isEmpty then s else s.raise { code := 0x9105, detail := [s.org.variant.perField] }
/-- The steps of a start's memory test: eight backgrounds of every pseudo-channel, or four pseudo-channels with zeros. -/
def State.testSteps (s : State) : List (Nat × Nat) :=
  if s.start.cold then (upto 0 64).flatMap fun p => (upto 0 8).map fun b => (p, b)
  else (upto (4 * (s.start.fastCount % 16)) 4).map fun p => (p, 0)
/-- Self-test is over: IDs are bound, and every stack in service is tested. -/
def State.memoryTest (s : State) : State :=
  let s := s.bindAll.modStart fun x => { x with phase := 10 }
  (upto 0 20).foldl (fun s k => if s.stackServes k then (s.modStack k fun K => { K with testPlan := s.testSteps }).nextTest k 0 0 false else s) s
/-- SELF_TEST_END: DETECT_ONLY clears, and the tile is zero-filled. -/
def execSelfTestEnd (t : TileIx) (s : State) : Res :=
  let r := regionOf t
  if !s.underTest r then .next s
  else
    let s := ((s.clearTile t).modTile t fun T => T.setField 0xA08 0 1 0).modSpore t fun p => { p with state := if p.state = 5 then 5 else 0 }
    let s := s.modStart fun x => { x with tested := setIns x.tested t }
    let s := if (s.region r).testFirst ∧ (regionTiles r).all s.start.tested.contains then
        (s.modRegion r fun R => { R with testFirst := false }).modStart fun x => { x with tested := x.tested.filter fun u => regionOf u != r }
      else s
    .next (if s.start.phase = 9 ∧ s.startTiles.all s.start.tested.contains then s.memoryTest else s)

/-- START_COMPLETE: the memory test has ended on every stack; service begins, with the sessions that waited. -/
def execStartComplete (s : State) : Res :=
  if s.start.phase ≠ 10 ∨ (upto 0 20).any fun k => (s.stack k).testing.isSome || !(s.stack k).testPlan.isEmpty then .next s
  else
    let s := s.unitEvent 0x9001 0xFFFF [b01 s.start.cold, s.time - s.start.began]
    let s := s.modStart fun x => { x with phase := 0, first := false, tested := [], nextCold := false, fastCount := if x.cold then x.fastCount else x.fastCount + 1 }
    .next ((s.host.funcs.filter (·.2.enableHeld)).foldl (fun s e => s.startSession e.1) s)

/-! ### Host ports and sessions (R474, R534, R598, R692) -/

/-- FNC_ENABLE: a session starts; one asked for before service begins is held. A function that is being reset, or a disabled
virtual function, takes none. -/
def State.fncEnable (s : State) (fn : Nat) : State :=
  let F := s.func fn
  if F.enabled || F.resetting || s.start.stopped || (decide (fn ≥ 4) && !F.vfOn) then s
  else if s.start.phase ≠ 0 then s.setFunc fn { F with enableHeld := true }
  else s.startSession fn
def execFncEnable (fn : FnIx) (s : State) : Res := .next (s.fncEnable fn)
/-- HOST_PORT_RESET: the port's functions and its block are reset; the host trains the link again. -/
def execHostPortReset (p : HostIx) (s : State) : Res := .next ((s.setPort p { s.port p with up := false, reads := [] }).resetFunction p)
/-- PORT_BLOCK_FAILURE: a Lamug port's block has failed. -/
def execPortBlockFailure (n : LampIx) (s : State) : Res := .next (s.portOut n)

end Sys2Proof.Machine
end

