-- ==== Sys2Proof/Machine/Control.lean ====
section
/-! DEFINITION. Messages of the control network that write routers and reset tiles and regions (R86, R312, R317, R336, R692). -/
namespace Sys2Proof.Machine

/-- TABLE: a route of the inactive bank, a fork entry where the router has room, its removal, or a binding-map entry. A dead
region's router takes none. -/
def execTable (t : TileIx) (w : TableWrite) (s : State) : Res :=
  if s.org.dead.contains (regionOf t) then .next s
  else match w with
    | .route control dst e =>
      .next (s.modRouter t fun R =>
        let key := (1 - R.bank) * 672 + dst.val
        if control then { R with ctable := tput R.ctable key (some e.toNat) } else { R with table := tput R.table key (some e.toNat) })
    | .fork tag drove mask beneath uni here timeout =>
      .next (s.modRouter t fun R =>
        let rest := R.forks.filter fun f => !(f.tag == tag.toNat && f.drove == drove.toNat)
        if rest.length ≥ 256 then R
        else { R with forks := rest ++ [{ tag := tag.toNat, drove := drove.toNat, mask := mask.toNat, beneath := beneath, uni := uni, here := here.toNat, timeout := timeout.toNat }] })
    | .unfork tag drove => .next (s.modRouter t fun R => { R with forks := R.forks.filter fun f => !(f.tag == tag.toNat && f.drove == drove.toNat) })
    | .bind lid node => .next (s.modTile t fun T => { T with net := { T.net with bmap := tput T.net.bmap lid (some (node.map (·.val))) } })

/-- BANK_SWITCH: every live router goes over to the other bank of both its tables. -/
def execBankSwitch (s : State) : Res :=
  .next ((upto 0 576).foldl (fun s t => if s.org.dead.contains (regionOf t) then s else s.modRouter t fun R => { R with bank := 1 - R.bank }) s)

/-- TILE_RESET. -/
def execTileReset (t : TileIx) (s : State) : Res := .next (s.resetTile t)
/-- REGION_RESET. -/
def execRegionReset (r : RegionIx) (s : State) : Res := .next (s.resetRegion r)

end Sys2Proof.Machine
end

