-- ==== Sys2Proof/Machine/Lamug.lean ====
section
/-! DEFINITION. Lamug ports: training, flits and replay, lanes, versions and the floor, the control channel, keys, registers
(R511-R537, R546-R549). -/
namespace Sys2Proof.Machine

def State.modFabric (s : State) (f : Fabric → Fabric) : State := { s with fabric := f s.fabric }

/-! ### Signal and training (R516-R518, R526, R529, R536) -/

/-- A cable's power is on while the port is licensed and enabled and CAB_PRES_N is low (R717). -/
def State.cablePower (s : State) (n : Nat) : State :=
  let on := s.lampLicensed n && (s.lamp n).enable && s.pins.cabPres.contains n
  { s with pins := { s.pins with cabPwr := setPut s.pins.cabPwr n on } }
/-- SIGNAL_DETECT_POLL: a DOWN port that is licensed and enabled trains once it sees a signal; not while a retry waits, nor after
three failed authentications. -/
def execSignalDetectPoll (n : LampIx) (signal : Bool) (s : State) : Res :=
  let L := s.lamp n
  .next (if L.state == .down && signal && !s.start.stopped && L.enable && s.lampLicensed n && !L.waitRetry && decide (L.authFails < 3) then
      s.modLamp n fun L => { L with state := .training, step := 1 }
    else s)
/-- Training fails: the port is DOWN, and retries after 10 s. -/
def State.trainFail (s : State) (n : Nat) (cause : Nat) : State := (s.lampFail n cause).modLamp n fun L => { L with waitRetry := true }
/-- The version that both ends take: each offers a highest version and its highest minor of the previous major (R526). -/
def lampVersion (offer prev peer peerPrev : Nat) : Option Nat :=
  let minor := fun (o p major : Nat) => if o / 256 = major then some (o % 256) else if o / 256 = major + 1 then some p else none
  let at_ := fun (major : Nat) => match minor offer prev major, minor peer peerPrev major with | some a, some b => some (256 * major + min a b) | _, _ => none
  match at_ (max (offer / 256) (peer / 256)) with
  | some v => some v
  | none => match at_ (min (offer / 256) (peer / 256)) with
    | some v => some v
    | none => at_ (min (offer / 256) (peer / 256) - 1)
/-- The link is up: its peer's settings are saved, and the manager hears of it. -/
def State.lampUp (s : State) (n : Nat) : State :=
  let s := s.modLamp n fun L => { L with
    state := if L.rxFailed.length ≥ 2 || L.txFailed.length ≥ 2 then .degraded else .up
    step := 0, authFails := 0, saved := L.hello, encrypted := L.encrypt, txKey := 0, rxKey := 0, txFrames := 0 }
  s.linkState n
/-- TRAINING_STEP_DONE: the step under way ends well or fails. What it found: step 2, failed receive lanes; step 3, whether the
check of saved settings passed; step 4, the peer's highest version and its previous major's highest minor; step 5, whether the
peer encrypts. -/
def execTrainingStepDone (n : LampIx) (ok : Bool) (lanes : List (Fin 9)) (saved : Bool) (peerVer peerPrev : BitVec 16) (peerEncrypts : Bool) (s : State) : Res :=
  let L := s.lamp n
  if !(L.state == .training || L.state == .authenticating) then .next s
  else if !ok || (L.step == 5 && !s.ident.attest) then
    if L.step = 5 then
      let s := (s.modLamp n fun L => { L with authFails := L.authFails + 1 }).lampErr n 3
      let s := s.unitEvent 0xB001 n [n.val]
      let k := (s.lamp n).authFails
      let s := s.trainFail n L.step
      .next (if k ≥ 3 then s.lampEvent n 0x7005 [] else s)
    else .next (s.trainFail n L.step)
  else match L.step with
    | 1 => .next (s.modLamp n fun L => { L with step := 2 })
    | 2 =>
      let bad := lanes.map (·.val)
      if bad.length > 5 then .next (s.trainFail n 2)
      else .next (s.modLamp n fun L => { L with step := 3, rxFailed := bad.foldl setIns [], rxBypass := (match bad with | b :: _ => b | [] => 0xF) })
    | 3 => .next (s.modLamp n fun L => { L with step := 4, savedUsed := saved && !L.fromPreset && L.saved.isSome && L.saved == L.hello })
    | 4 =>
      match lampVersion L.offer L.offerPrev peerVer.toNat peerPrev.toNat with
      | some v => .next (s.modLamp n fun L => { L with step := 5, state := .authenticating, ver := v })
      | none => .next (((s.lampEvent n 0x7006 []).lampErr n 5).lampDown n .down)
    | 5 =>
      -- a port that encrypts refuses a peer that does not (R537)
      if L.encrypt != peerEncrypts then
        let s := (s.modLamp n fun L => { L with authFails := L.authFails + 1 }).lampErr n 3
        let k := (s.lamp n).authFails
        let s := s.trainFail n 5
        .next (if k ≥ 3 then s.lampEvent n 0x7005 [] else s)
      else .next ((s.modLamp n fun L => { L with step := 6 }).portSession n)
    | 6 => if L.peer.1 = 0xFFF ∧ L.peer.2 = 0xFF then .next s else .next (s.lampUp n)
    | _ => .next s
/-- HELLO: the peer's module and port are recorded. One that differs from the saved peer is re-cabling: saved equalisation is
discarded, and a training that used it begins again from preset 0 (R536). -/
def execHello (n : LampIx) (peer : BitVec 12) (port : BitVec 8) (s : State) : Res :=
  let L := s.lamp n
  let p := (peer.toNat, port.toNat)
  if !(L.state == .authenticating && L.step == 6) && !L.carries then .next s
  else
    let moved := L.saved.isSome && L.saved != some p
    let s := s.modLamp n fun L => { L with hello := some p, peer := p, saved := if moved then none else L.saved }
    if moved && L.savedUsed && !L.carries then
      .next (s.modLamp n fun L => { L with state := .training, step := 1, peer := (0xFFF, 0xFF), savedUsed := false, ver := 0 })
    else .next (if moved && L.carries then s.linkState n else s)
/-- TRAINING_RETRY, ten seconds after a failure; a cable whose power was cut has it again (R717). -/
def execTrainingRetry (n : LampIx) (s : State) : Res :=
  let L := s.lamp n
  if !L.waitRetry then .next s
  else
    let s := (s.modLamp n fun L => { L with waitRetry := false }).cablePower n
    .next (if L.state == .down && L.enable && s.lampLicensed n && decide (L.authFails < 3) then s.modLamp n fun L => { L with state := .training, step := 1 } else s)

/-! ### Low power (R519) -/

/-- LOW_POWER_ENTRY: 100 µs without a data flit, at version 2.4 or above, with LOWPWR_EN set here and at the peer. -/
def execLowPowerEntry (n : LampIx) (peerAllows : Bool) (s : State) : Res :=
  .next (s.modLamp n fun L => if L.state == .up && L.lowPwr && peerAllows && decide (L.ver ≥ 0x204) then { L with state := .lowPower } else L)
def execLowPowerExit (n : LampIx) (s : State) : Res := .next (s.modLamp n fun L => if L.state == .lowPower then { L with state := .up } else L)

/-! ### Codewords and replay (R520-R524, R537) -/

/-- Is SEQ `a` at or before `b`, modulo 4,096? -/
def seqUpTo (a b : Nat) : Bool := decide ((b + 4096 - a) % 4096 < 2048)
/-- Copies in a port's group buffer leave while VL0 has credit for them (R544). -/
def State.drainGroup (s : State) (n : Nat) : Nat → State
  | 0 => s
  | k + 1 => match (s.lamp n).gbuf with
    | [] => s
    | p :: rest =>
      if cdiv (32 + 32 * p.data.length) 304 ≤ (s.lamp n).credits.headD 0 then
        ((s.modLamp n fun L => { L with gbuf := rest }).fabricOut n p).drainGroup n k
      else s
/-- A receiver asks once for the flits from the one it expects. -/
def State.askReplay (s : State) (n : Nat) : State :=
  if (s.lamp n).asked then s else (s.modLamp n fun L => { L with asked := true }).emit (.lamug n 16 [(s.lamp n).rxSeq])
/-- What a good flit's header says: flits acknowledged, credits returned, and the SEQ. -/
def State.takeFlit (s : State) (n : Nat) (f : FlitHead) : State :=
  let s := s.modLamp n fun L => { L with
    unacked := L.unacked.filter fun e => !seqUpTo e.1 f.ack
    credits := listMod L.credits f.cvl fun c => min (c + f.credits) (if f.cvl = 2 then 32 else 1024) }
  let s := s.drainGroup n 64
  if f.typ ≠ 1 ∧ f.typ ≠ 2 then s
  else if f.seq = (s.lamp n).rxSeq then s.modLamp n fun L => { L with rxSeq := (L.rxSeq + 1) % 4096, asked := false }
  else s.askReplay n
/-- CODEWORD_RECEIVE: a codeword is decoded with some symbols corrected, or cannot be (none); then the headers of its flits that pass
their CRC, in order, up to the first that fails. `tagBad`: a crypto frame that it closes fails its tag, and its flits are discarded. -/
def execCodewordReceive (n : LampIx) (corrected : Option (Fin 17)) (flits : List FlitHead) (crcBad tagBad : Bool) (s : State) : Res :=
  let L := s.lamp n
  if !L.carries && L.state != .authenticating then .next s
  else match corrected with
    | none => .next ((s.modLamp n fun L => { L with ue := min (L.ue + 1) (2 ^ 32 - 1) }).askReplay n)
    | some c =>
      let s := s.modLamp n fun L => { L with fec := (L.fec + c) % 2 ^ 64 }
      if tagBad then
        let s := (s.modLamp n fun L => { L with tagFails := s.time :: L.tagFails.filter fun t => decide (s.time < t + 1000000000) }).lampErr n 4
        if (s.lamp n).tagFails.length ≥ 3 then .next ((s.lampEvent n 0x700B []).lampFail n 0xB) else .next (s.askReplay n)
      else
        let s := flits.foldl (fun s f => s.takeFlit n f) s
        .next (if crcBad then s.askReplay n else s)
/-- REPLAY_REQ: every flit from a SEQ on is sent again; a flit's eighth replay, or the 65th replay of a millisecond, takes the link
down. -/
def execReplayReq (n : LampIx) (seq : BitVec 12) (newMs : Bool) (s : State) : Res :=
  let L := s.lamp n
  if !L.carries then .next s
  else
    let k := (if newMs then 0 else L.replaysMs) + 1
    let again := L.unacked.map fun e => if seqUpTo seq.toNat e.1 then (e.1, e.2 + 1) else e
    let s := (s.modLamp n fun L => { L with unacked := again.filter fun e => seqUpTo seq.toNat e.1, replaysMs := k, replayed := min (L.replayed + 1) (2 ^ 32 - 1) }).lampEvent n 0x7001 []
    .next (if k > 64 ∨ again.any fun e => decide (e.2 ≥ 8) then s.lampFail n 1 else s.emit (.lamug n 19 ((s.lamp n).unacked.map (·.1))))

/-! ### Lanes (R512, R534) -/

/-- Both directions go to the four lowest good lanes. -/
def State.lampDegrade (s : State) (n : Nat) : State :=
  (((s.modLamp n fun L => { L with state := .degraded, swapping := none }).lampErr n 1).lampEvent n 0x7003 []).linkState n
/-- LANE_FAILURE: a receive lane fails. The spare takes its place once the peer has moved; with the spare in use the link degrades, and
with fewer than four good lanes it goes down. -/
def execLaneFailure (n : LampIx) (lane : Fin 9) (s : State) : Res :=
  let L := s.lamp n
  if L.state == .training then .next (s.modLamp n fun L => { L with rxFailed := setIns L.rxFailed lane, rxBypass := if L.rxBypass = 0xF then lane else L.rxBypass })
  else if !L.carries || L.rxFailed.contains lane.val then .next s
  else
    let s := s.modLamp n fun L => { L with rxFailed := setIns L.rxFailed lane }
    let s := s.defect 0x0B 0x7002 [n.val, lane.val]
    if (s.lamp n).rxFailed.length > 5 then .next (s.lampFail n 2)
    else if L.state == .degraded then .next s
    else if L.rxBypass = 0xF ∧ L.swapping.isNone then
      if lane.val = 8 then .next (s.modLamp n fun L => { L with rxBypass := 8 })
      else .next (((s.modLamp n fun L => { L with swapping := some lane.val }).askReplay n).emit (.lamug n 17 [lane.val]))
    else .next (s.lampDegrade n)
/-- LANE_CMD: the transmitter moves off a lane onto the spare and marks the switch; without a spare the link degrades. -/
def execLaneCmd (n : LampIx) (lane : Fin 9) (s : State) : Res :=
  let L := s.lamp n
  if !L.carries then .next s
  else
    let s := s.modLamp n fun L => { L with txFailed := setIns L.txFailed lane }
    if L.txBypass = 0xF then .next ((s.modLamp n fun L => { L with txBypass := lane }).emit (.lamug n 18 [lane.val])) else .next (s.lampDegrade n)
/-- SWAP_MARKER: the receiver applies the new map. -/
def execSwapMarker (n : LampIx) (s : State) : Res :=
  match (s.lamp n).swapping with
  | none => .next s
  | some l => .next (((s.modLamp n fun L => { L with swapping := none, rxBypass := l }).lampErr n 0).lampEvent n 0x7002 [l])
def execLinkIdleTimeout (n : LampIx) (s : State) : Res := .next (if (s.lamp n).carries then s.lampFail n 3 else s)

/-! ### The fabric floor (R527, R528, R700) -/

/-- The version that the module advertises: the lowest of its licensed ports' highest. -/
def State.ownVersion (s : State) : Nat := ((upto 0 18).filter s.lampLicensed).foldl (fun v n => min v (s.lamp n).offer) 0xFFFF
/-- The floor of the table; a change is an event, and below 3.0 what uses groups ends. -/
def State.refloor (s : State) : State :=
  let f := s.fabric.heard.foldl (fun v e => min v e.2.1) s.ownVersion
  if f = s.fabric.floor then s
  else
    let s := (s.modFabric fun F => { F with floor := f, groupsOk := F.groupsOk && decide (f ≥ 0x300) }).unitEvent 0x7007 0xFFFF [f]
    if f < 0x300 then s.fabric.groups.foldl (fun s e => s.breakGroup e.1) s else s
/-- A FLOOR_ADV leaves by every UP port but one: module, version, sequence number, floor. -/
def State.flood (s : State) (except : Nat) (body : List Nat) : State :=
  (upto 0 18).foldl (fun s n => if n ≠ except ∧ (s.lamp n).carries then s.lampControl n 2 body else s) s
def execFloorAdvTimer (s : State) : Res :=
  if s.fabric.moduleId = 0xFFF then .next s
  else
    let s := (s.modFabric fun F => { F with advSeq := (F.advSeq + 1) % 2 ^ 32 }).refloor
    .next (s.flood 18 [s.fabric.moduleId, s.ownVersion, s.fabric.advSeq, s.fabric.floor])
/-- FLOOR_ADV: an advertisement not seen before is noted and forwarded. -/
def execFloorAdv (n : LampIx) (m : BitVec 12) (ver : BitVec 16) (seq : BitVec 32) (floor : BitVec 16) (s : State) : Res :=
  let m := m.toNat
  if !(s.lamp n).carries || m == s.fabric.moduleId || s.fabric.heard.any fun e => e.1 == m && e.2.2.1 == seq.toNat then .next s
  else
    let s := s.modFabric fun F => { F with heard := (F.heard.filter fun e => e.1 != m) ++ [(m, ver.toNat, seq.toNat, s.time)] }
    .next ((s.flood n [m, ver.toNat, seq.toNat, floor.toNat]).refloor)
def execFloorTableExpiry (m : BitVec 12) (s : State) : Res := .next (s.modFabric fun F => { F with heard := F.heard.filter fun e => e.1 != m.toNat }).refloor
def execFloorHoldExpiry (s : State) : Res := .next (s.modFabric fun F => { F with groupsOk := F.groupsOk || decide (F.floor ≥ 0x300) })

/-! ### The control channel (R530, R531) -/

/-- The message is for this module, or goes on by the routing tables of its port of arrival. -/
def State.forMe (s : State) (dst : Nat) : Bool := dst == s.fabric.moduleId && s.fabric.moduleId != 0xFFF
/-- From the fabric manager? Another source is an event. -/
def State.fromManager (s : State) (n src : Nat) : Bool × State :=
  if s.fabric.fmgrOn && s.fabric.fmgr == src then (true, s) else (false, s.lampEvent n 0x700A [src])
/-- LINK_STATE, from another module on its way to the manager: forwarded; the manager's own software takes it here. -/
def execLinkState (n : LampIx) (dst : BitVec 12) (body : List Nat) (s : State) : Res :=
  .next (if s.forMe dst.toNat then s.emit (.lamug n 0x203 body) else s.controlTo n dst.toNat 3 body)
/-- ROUTE: entries by table and destination. -/
def execRoute (n : LampIx) (src dst : BitVec 12) (entries : List (Fin 19 × BitVec 12 × BitVec 16)) (s : State) : Res :=
  if !s.forMe dst.toNat then .next (s.controlTo n dst.toNat 4 ([src.toNat, dst.toNat] ++ entries.flatMap fun e => [e.1.val, e.2.1.toNat, e.2.2.toNat]))
  else
    let (ok, s) := s.fromManager n src.toNat
    .next (if ok then s.modFabric fun F => { F with routes := entries.foldl (fun tb (e : Fin 19 × BitVec 12 × BitVec 16) => tput tb (4096 * e.1.val + e.2.1.toNat) (e.2.2.toNat / 16 * 16)) F.routes } else s)
/-- A group entry from its 16 bytes. -/
def groupEntry (w : Nat) : GEntry := { up := fld w 8 5, down := fld w 13 18, valid := bit w 31, localEp := fld w 32 10, beneath := fld w 42 12 }
/-- GROUP: group entries. -/
def execGroup (n : LampIx) (src dst : BitVec 12) (entries : List (BitVec 128)) (s : State) : Res :=
  if !s.forMe dst.toNat then .next (s.controlTo n dst.toNat 5 ([src.toNat, dst.toNat] ++ entries.map (·.toNat)))
  else
    let (ok, s) := s.fromManager n src.toNat
    .next (if ok then s.modFabric fun F => { F with groups := entries.foldl (fun tb e => tput tb (fld e.toNat 0 8) (groupEntry e.toNat)) F.groups } else s)
/-- ECHO: a request is answered to its source, an answer is noted, anything else goes on. -/
def execEcho (n : LampIx) (src dst : BitVec 12) (reply : Bool) (token : BitVec 64) (s : State) : Res :=
  if !s.forMe dst.toNat then .next (s.controlTo n dst.toNat 7 [src.toNat, dst.toNat, b01 reply, token.toNat])
  else if reply then .next (s.emit (.lamug n 0x207 [src.toNat, token.toNat]))
  else .next (s.controlTo 18 src.toNat 7 [dst.toNat, src.toNat, 1, token.toNat])

/-! ### Keys (R537) -/

/-- REKEY_TIMER: 24 h, or the frame counter near 2^32: the sender derives its next key and says so. -/
def execRekeyTimer (n : LampIx) (s : State) : Res :=
  .next (if (s.lamp n).carries && (s.lamp n).encrypted then ((s.lampControl n 6 [(s.lamp n).txKey + 1]).modLamp n fun L => { L with txKey := L.txKey + 1, txFrames := 0 }) else s)
/-- KEY_UPDATE: the receiver's next key; KEY_PHASE is the key number's low bit. -/
def execKeyUpdate (n : LampIx) (s : State) : Res :=
  .next (s.modLamp n fun L => if L.carries && L.encrypted then { L with rxKey := L.rxKey + 1 } else L)

/-! ### Registers (R546-R549); writes are PF0's only (R17) -/

def execLnkPortReset (pf : HostIx) (n : LampIx) (s : State) : Res := .next (if pf = 0 && (s.lamp n).state != .outOfService then s.lampReset n else s)
/-- LNK_PCTL.ENABLE written. -/
def State.lampEnable (s : State) (n : Nat) (on : Bool) : State :=
  let L := s.lamp n
  if L.enable = on then s
  else
    let s := s.modLamp n fun L => { L with enable := on }
    (if L.state == .outOfService then s
      else if on then s.modLamp n fun L => { L with state := .down, waitRetry := false }
      else (if L.carries then (s.lampEvent n 0x7004 [4]).lampErr n 2 else s).lampDown n .disabled).cablePower n
def execLnkPortEnableWrite (pf : HostIx) (n : LampIx) (on : Bool) (s : State) : Res := .next (if pf = 0 then s.lampEnable n on else s)
def execLnkEqForget (pf : HostIx) (n : LampIx) (s : State) : Res := .next (if pf = 0 then s.modLamp n fun L => { L with saved := none } else s)
/-- Who reads a function's control space. -/
def readerFn (fn : Nat) : Nat := 0x20000 + fn
def execPfecUeRead (pf : HostIx) (n : LampIx) (s : State) : Res :=
  .next ((s.emit (.regRead (readerFn pf) (0x8001C + 0x400 * n) (s.lamp n).ue)).modLamp n fun L => { L with ue := 0 })
def execPreplayRead (pf : HostIx) (n : LampIx) (s : State) : Res :=
  .next ((s.emit (.regRead (readerFn pf) (0x80020 + 0x400 * n) (s.lamp n).replayed)).modLamp n fun L => { L with replayed := 0 })
/-- LNK_MODULE written; ignored while any port carries traffic. -/
def State.lnkModule (s : State) (id : Nat) : State := if (upto 0 18).any fun n => (s.lamp n).carries then s else s.modFabric fun F => { F with moduleId := id }
def execLnkModuleWrite (pf : HostIx) (id : BitVec 12) (s : State) : Res := .next (if pf = 0 then s.lnkModule id.toNat else s)
/-- LNK_RT_DATA written: the selected entry, its reserved bits aside. -/
def State.lnkRtData (s : State) (v : Nat) : State :=
  if s.fabric.rtTable ≥ 19 then s else s.modFabric fun F => { F with routes := tput F.routes (4096 * F.rtTable + F.rtDest) (v % 65536 / 16 * 16) }
def execLnkRtDataWrite (pf : HostIx) (entry : BitVec 16) (s : State) : Res := .next (if pf = 0 then s.lnkRtData entry.toNat else s)

end Sys2Proof.Machine
end

