-- ==== Sys2Proof/Machine/Fabric.lean ====
section
/-! DEFINITION. Fabric endpoints, their descriptors, fabric packets and groups (R531-R533, R538-R545, R549). -/
namespace Sys2Proof.Machine

/-! ### Words under an endpoint's translation (R539, R541) -/

/-- A word read: its bytes and mark; none where the address does not translate. -/
def State.epRead (s : State) (c : Nat) (h : HostMem) (va : Nat) : Option (Word256 × Bool) :=
  match s.ctxPlace c va false with
  | .error _ => none
  | .ok (1, a) => some (wordOf (hostBytes h a 32), false)
  | .ok (_, a) => let key := hbmAddrKey a; some (wordOf (s.bytes key 32), s.hbmBad key 32)
/-- Words read from an address on. -/
def State.epReads (s : State) (c : Nat) (h : HostMem) (va : Nat) : Nat → Option (List Word256 × Nat)
  | 0 => some ([], 0)
  | n + 1 => match s.epRead c h va, s.epReads c h (va + 32) n with
    | some (w, m), some (ws, ms) => some (w :: ws, b01 m + 2 * ms)
    | _, _ => none
/-- A word written; false where the address does not translate for a write. -/
def State.epWrite (s : State) (c va : Nat) (w : Word256) (poison : Bool) : Bool × State :=
  match s.ctxPlace c va true with
  | .error _ => (false, s)
  | .ok (1, a) => (true, s.emit (.hostWrite (portOfFn (s.ctx c).fn) a (toBytes w.toNat 32) poison))
  | .ok (_, a) => (true, s.hbmStore (hbmAddrKey a) (toBytes w.toNat 32) poison)
/-- Words written from an address on. -/
def State.epWrites (s : State) (c va poison : Nat) : List Word256 → Bool × State
  | [] => (true, s)
  | w :: ws =>
    let (ok, s) := s.epWrite c va w (bit poison 0)
    if !ok then (false, s) else s.epWrites c (va + 32) (poison / 2) ws

/-! ### Configuration (R538, R549) -/

/-- The staged 64 bytes as a number. -/
def State.staged (s : State) : Nat := (upto 0 16).foldl (fun a i => a + tget s.fabric.stage i * 2 ^ (32 * i)) 0
/-- Is any reserved field or value of a staged configuration nonzero? -/
def epReserved (w : Nat) : Bool :=
  fld w 8 8 ≥ 18 || fld w 18 6 != 0 || fld w 28 4 != 0 || fld w 24 4 == 0 || decide (fld w 24 4 > 12) || fld w 44 4 != 0 || fld w 48 16 != 0 ||
  fld w 64 12 != 0 || fld w 128 12 != 0 || fld w 192 12 != 0 || fld w 256 12 != 0 || fld w 384 128 != 0
/-- LNK_EP_CMD: 0 OK, 1 reserved field, 2 no such context, 3 open already, 4 not open. -/
def State.epResult (s : State) (e r : Nat) : State := s.modFabric fun F => { F with epIndex := e, epResult := r }
def State.epOpen (s : State) (e : Nat) : State :=
  let w := s.staged
  if epReserved w then s.epResult e 1
  else if !(s.ctx (fld w 0 8)).live then s.epResult e 2
  else if (s.endpoint e).open_ then s.epResult e 3
  else
    let E : Endpoint := {
      open_ := true, ctx := fld w 0 8, home := fld w 8 8, acceptW := bit w 16, acceptR := bit w 17, log2 := fld w 24 4, acceptMod := fld w 32 12
      winVa := fld w 64 64, winBytes := fld w 128 64, sqVa := fld w 192 64, cqVa := fld w 256 64, tailVa := fld w 320 64 }
    (s.modEp e fun _ => E).epResult e 0
/-- Descriptors between head and tail complete CLOSED, in ring order. -/
def State.closeRest (s : State) (e : Nat) (h : HostMem) : Nat → State
  | 0 => s
  | n + 1 =>
    let E := s.endpoint e
    if !E.open_ || E.head == E.tail then s
    else
      let user := match s.ctxRead E.ctx h (pagePieces (E.sqVa + 64 * E.head + 0x28) 8) with | .ok b => ofBytes b | .error _ => 0
      ((s.modEp e fun E => { E with head := (E.head + 1) % 2 ^ E.log2 }).epComplete e user 0x29 0).closeRest e h n
def State.epClose (s : State) (e : Nat) (h : HostMem) : State :=
  let E := s.endpoint e
  if !E.open_ then s.epResult e 4
  else (((s.closeRest e h 4096).modEp e fun E => { E with closing := true }).epSettle e).epResult e 0
def execEpOpen (pf : HostIx) (e : Fin 1024) (s : State) : Res := .next (if pf = 0 then s.epOpen e else s)
/-- EP_CLOSE; `host` holds a ring that lies in host memory. -/
def execEpClose (pf : HostIx) (e : Fin 1024) (host : HostMem) (s : State) : Res := .next (if pf = 0 then s.epClose e host else s)
/-- GROUP_ENTRY_WRITE: the staged words 0-3. -/
def State.groupWrite (s : State) (g : Nat) : State :=
  let w := s.staged % 2 ^ 128
  if fld w 54 74 ≠ 0 then s.epResult g 1 else (s.modFabric fun F => { F with groups := tput F.groups g (groupEntry w) }).epResult g 0
def execGroupEntryWrite (pf : HostIx) (g : BitVec 8) (s : State) : Res := .next (if pf = 0 then s.groupWrite g.toNat else s)

/-! ### Sending packets (R532, R533) -/

/-- The answer to a request. -/
def fabricAnswer (p : FPacket) (status : Nat) : FPacket :=
  { typ := p.typ + 1, vl := 1, status := status, srcMod := p.dstMod, dstMod := p.srcMod, srcEp := p.dstEp, dstEp := p.srcEp, txn := p.txn, offset := p.offset }
/-- A packet that starts here, or an answer, goes by the tables; nothing is sent where no route leads. Answers whether it left. -/
def State.fabricSend (s : State) (p : FPacket) : Bool × State :=
  match s.fabricRoute 18 p.dstMod with
  | some n => (true, s.fabricOut n p)
  | none => (false, s)
/-- A packet of another module goes on: counted out at 15 hops, answered UNREACHABLE where no route leads on. -/
def State.fabricForward (s : State) (n : Nat) (p : FPacket) : State :=
  let refuse := fun (s : State) => if p.typ = 0 ∨ p.typ = 2 then (s.fabricSend (fabricAnswer p 3)).2 else s
  if p.hops + 1 > 15 then refuse ((s.lampErr n 6).lampEvent n 0x7008 [p.srcMod, p.dstMod])
  else match s.fabricRoute n p.dstMod with
    | some m => s.fabricOut m { p with hops := p.hops + 1 }
    | none => refuse s
/-- Does a packet stop here? A module without an ID accepts and forwards none, and a port forwards none before it is up (R518, R531). -/
def State.fabricHere (s : State) (n : Nat) (p : FPacket) : Option Bool :=
  if s.fabric.moduleId = 0xFFF || !(s.lamp n).carries then none else some (p.dstMod == s.fabric.moduleId)

/-! ### Descriptors (R539, R541) -/

/-- Status of a completion for a packet's status. -/
def completionStatus (st : Nat) : Nat := match st with | 0 => 0 | 1 => 0x22 | 2 => 0x20 | 3 => 0x2A | _ => 0x21
def State.modDesc (s : State) (e no : Nat) (f : FDesc → FDesc) : State := s.modEp e fun E => { E with descs := E.descs.map fun d => if d.no = no then f d else d }
def State.findDesc (s : State) (e no : Nat) : Option FDesc := (s.endpoint e).descs.find? fun d => d.no == no
/-- A descriptor whose requests are all sent and answered completes. -/
def State.descSettle (s : State) (e no : Nat) : State :=
  match s.findDesc e no with
  | none => s
  | some d => if d.wait.isEmpty ∧ (d.sent ≥ d.bytes ∨ d.status ≠ 0) then s.descDone e d d.status d.done else s
/-- Transaction numbers in use by a module's requests. -/
def State.fabricTxns (s : State) : List Nat := s.fabric.eps.flatMap fun e => e.2.descs.flatMap fun d => d.wait.map (·.1)
/-- One request of a descriptor is made again or for the first time: up to 64 words. -/
def State.descRequest (s : State) (e : Nat) (d : FDesc) (off n txn : Nat) (again : Bool) (h : HostMem) : State :=
  let E := s.endpoint e
  let base : FPacket := { srcMod := s.fabric.moduleId, dstMod := d.dstMod, srcEp := e, dstEp := d.target, txn := txn, offset := (d.offset + off) % 2 ^ 48, words := n / 32 }
  let note := fun (s : State) => s.modDesc e d.no fun x => { x with wait := x.wait.filter (fun w => w.1 != txn) ++ [(txn, off, n, again)] }
  let fail := fun (s : State) (st : Nat) => s.modDesc e d.no fun x => { x with wait := x.wait.filter (fun w => w.1 != txn), status := if x.status = 0 then st else x.status }
  if d.op = 2 then
    let (ok, s) := s.fabricSend { base with typ := 2 }
    if ok then note s else fail s 0x2A
  else match s.epReads E.ctx h (d.local_ + off) (n / 32) with
    | none => fail s 0x20
    | some (ws, m) =>
      let (ok, s) := s.fabricSend { base with typ := 0, data := ws, poison := m }
      let s := if m ≠ 0 then s.modDesc e d.no fun x => { x with status := if x.status = 0 then 0x21 else x.status } else s
      if ok then note s else fail s 0x2A
/-- A descriptor sends what it has still to send; a failure ends its sending. -/
def State.descPump (s : State) (e no : Nat) (h : HostMem) : Nat → State
  | 0 => s
  | k + 1 => match s.findDesc e no with
    | none => s
    | some d =>
      if d.sent ≥ d.bytes || (d.status != 0 && d.status != 0x21) || decide (s.fabricTxns.length ≥ 65535) then s
      else
        let n := min 2048 (d.bytes - d.sent)
        let used := s.fabricTxns
        let txn := (((upto s.fabric.nextTxn 65536).map (· % 65536)).find? fun x => !used.contains x).getD 0
        let s := (s.modFabric fun F => { F with nextTxn := (txn + 1) % 65536 }).modDesc e no fun x => { x with sent := x.sent + n }
        (s.descRequest e d d.sent n txn false h).descPump e no h k
/-- The tail word of an endpoint is read; `full` tells that its completion ring has no room (R542). -/
def execEndpointTailPoll (e : Fin 1024) (full : Bool) (host : HostMem) (s : State) : Res :=
  let E := s.endpoint e
  if !E.open_ || E.closing || full then .next (s.modEp e fun E => { E with full := full })
  else match s.ctxRead E.ctx host (pagePieces E.tailVa 4) with
    | .error _ => .next (s.ringFault e)
    | .ok b => .next (s.modEp e fun E => { E with full := false, tail := fld (ofBytes b) 0 12 % 2 ^ E.log2 })
/-- The endpoint's next descriptor, where it may be taken: its ring entry, with every earlier FENCE completed. A ring access that
faults closes the endpoint. -/
def State.nextDesc (s : State) (e : Nat) (h : HostMem) : Option FDesc × State :=
  let E := s.endpoint e
  if !E.open_ || E.closing || E.full || E.head == E.tail || E.descs.any (·.fence) || (s.lamp E.home).state == .outOfService then (none, s)
  else match s.ctxRead E.ctx h (pagePieces (E.sqVa + 64 * E.head) 64) with
    | .error _ => (none, s.ringFault e)
    | .ok b =>
      let g := fun (o n : Nat) => ofBytes ((b.drop o).take n)
      (some { no := E.descNo, op := g 0 1, fence := g 1 1 % 2 == 1, hop := g 1 1 / 2 % 8, target := g 2 2, dstMod := g 4 2 % 4096
              local_ := g 8 8, offset := g 0x10 8, bytes := g 0x18 8, value := g 0x20 8, user := g 0x28 8 }, s)
/-- The descriptor is taken from the ring. -/
def State.takeDesc (s : State) (e : Nat) (d : FDesc) : State :=
  s.modEp e fun E => { E with head := (E.head + 1) % 2 ^ E.log2, descNo := E.descNo + 1, descs := E.descs ++ [d] }
/-- WRITE and READ descriptors (OP 1 and 2). -/
def State.descMove (s : State) (e op : Nat) (h : HostMem) : State :=
  match s.nextDesc e h with
  | (some d, s) => if d.op ≠ op then s else ((s.takeDesc e d).descPump e d.no h 65536).descSettle e d.no
  | (none, s) => s
def execDescWrite (e : Fin 1024) (host : HostMem) (s : State) : Res := .next (s.descMove e 1 host)
def execDescRead (e : Fin 1024) (host : HostMem) (s : State) : Res := .next (s.descMove e 2 host)

/-- Every request's answer brings its descriptor nearer its end. -/
def State.descAnswer (s : State) (e txn : Nat) (f : FDesc → Nat → Nat → FDesc) (h : HostMem) : State :=
  match (s.endpoint e).descs.find? fun d => d.wait.any (·.1 == txn) with
  | none => s
  | some d => match d.wait.find? fun w => w.1 == txn with
    | none => s
    | some (_, off, n, _) =>
      let s := s.modDesc e d.no fun x => f { x with wait := x.wait.filter fun w => w.1 != txn } off n
      (s.descPump e d.no h 65536).descSettle e d.no
def FDesc.note (d : FDesc) (st : Nat) : FDesc := { d with status := if d.status = 0 then st else d.status }

/-- FABRIC_REQUEST_TIMEOUT: a request without an answer is sent once more on the present route; the second time its descriptor fails
LINK_FAILED (R535, R541). -/
def execFabricRequestTimeout (e : Fin 1024) (txn : BitVec 16) (host : HostMem) (s : State) : Res :=
  match (s.endpoint e).descs.find? fun d => d.wait.any (·.1 == txn.toNat) with
  | none => .next s
  | some d => match d.wait.find? fun w => w.1 == txn.toNat with
    | some (_, off, n, false) => if d.op = 1 ∨ d.op = 2 then .next ((s.descRequest e d off n txn.toNat true host).descSettle e d.no)
                                 else .next (s.modDesc e d.no fun x => { x with wait := x.wait.map fun w => if w.1 = txn.toNat then (w.1, w.2.1, w.2.2.1, true) else w })
    | _ => .next (s.descAnswer e txn.toNat (fun x _ _ => x.note 0x24) host)

/-! ### Requests at their destination (R541) -/

/-- The refusal of a request, if any: 1 REFUSED. -/
def State.epRefuses (s : State) (p : FPacket) (write : Bool) (bytes : Nat) : Bool :=
  let E := s.endpoint p.dstEp
  !E.open_ || E.closing || (if write then !E.acceptW else !E.acceptR) || (E.acceptMod != 0xFFF && E.acceptMod != p.srcMod) || decide (p.offset + bytes > E.winBytes)
def execFabricWrite (n : LampIx) (p : FPacket) (s : State) : Res :=
  match s.fabricHere n p with
  | none => .next s
  | some false => .next (s.fabricForward n p)
  | some true =>
    let E := s.endpoint p.dstEp
    if s.epRefuses p true (32 * p.data.length) then .next (s.fabricSend (fabricAnswer p 1)).2
    else
      let (ok, s) := s.epWrites E.ctx (E.winVa + p.offset) p.poison p.data
      .next (s.fabricSend (fabricAnswer p (if ok then 0 else 2))).2
/-- FABRIC_READ; `host` answers for a window in host memory. -/
def execFabricRead (n : LampIx) (p : FPacket) (host : HostMem) (s : State) : Res :=
  match s.fabricHere n p with
  | none => .next s
  | some false => .next (s.fabricForward n p)
  | some true =>
    let E := s.endpoint p.dstEp
    if s.epRefuses p false (32 * p.words) then .next (s.fabricSend (fabricAnswer p 1)).2
    else match s.epReads E.ctx host (E.winVa + p.offset) p.words with
      | none => .next (s.fabricSend (fabricAnswer p 2)).2
      | some (ws, m) => .next (s.fabricSend { fabricAnswer p 0 with words := p.words, data := ws, poison := m }).2
/-- FABRIC_WRITE_ACK; `host` holds local data in host memory that the descriptor has still to send. -/
def execFabricWriteAck (n : LampIx) (p : FPacket) (host : HostMem) (s : State) : Res :=
  match s.fabricHere n p with
  | none => .next s
  | some false => .next (s.fabricForward n p)
  | some true => .next (s.descAnswer p.dstEp p.txn (fun d _ b => if p.status = 0 then { d with done := d.done + b } else d.note (completionStatus p.status)) host)
/-- FABRIC_READ_DATA: the words go to the descriptor's local address, with their marks. -/
def execFabricReadData (n : LampIx) (p : FPacket) (s : State) : Res :=
  match s.fabricHere n p with
  | none => .next s
  | some false => .next (s.fabricForward n p)
  | some true =>
    let E := s.endpoint p.dstEp
    match E.descs.find? fun d => d.op == 2 && d.wait.any (·.1 == p.txn) with
    | none => .next s
    | some d =>
      let off := ((d.wait.find? fun w => w.1 == p.txn).getD (0, 0, 0, false)).2.1
      let (ok, s) := if p.status = 0 then s.epWrites E.ctx (d.local_ + off) p.poison p.data else (true, s)
      .next (s.descAnswer p.dstEp p.txn (fun d _ b =>
        if p.status ≠ 0 then d.note (completionStatus p.status) else if !ok then d.note 0x20
        else if p.poison ≠ 0 then { d.note 0x21 with done := d.done + b } else { d with done := d.done + b }) [])

/-! ### Group writes (R528, R543, R544) -/

/-- May groups be used here? -/
def State.groupsUsable (s : State) : Bool := s.fabric.groupsOk && decide (s.fabric.floor ≥ 0x300)
/-- The root's count of a write is complete: the sender's descriptor is told (here, or by a GROUP_ACK that carries the members
delivered). -/
def State.gwriteSettle (s : State) (w : GWrite) : State :=
  let G := s.gentry w.group
  if w.delivered + w.pruned < G.beneath then s
  else
    let s := s.modFabric fun F => { F with gwrites := F.gwrites.filter fun x => x != w }
    let st := if w.pruned > 0 ∧ w.status = 0 then 3 else w.status
    if w.srcMod = s.fabric.moduleId then
      s.descAnswer w.srcEp w.txn (fun d _ _ => { (if st = 0 then d else d.note (completionStatus st)) with done := w.delivered, sent := d.bytes }) []
    else (s.fabricSend { typ := 5, vl := 1, status := st, srcMod := s.fabric.moduleId, dstMod := w.srcMod, dstEp := w.srcEp, txn := w.txn, offset := w.delivered }).2
/-- The root counts an acknowledgement of a member, or members beneath a pruned branch (`count`). -/
def State.gwriteCount (s : State) (g srcMod srcEp txn delivered pruned st : Nat) : State :=
  match s.fabric.gwrites.find? fun w => w.group == g && w.srcMod == srcMod && w.srcEp == srcEp && w.txn == txn with
  | none => s
  | some w =>
    let w' := { w with delivered := w.delivered + delivered, pruned := w.pruned + pruned, status := if w.status = 0 then st else w.status }
    (s.modFabric fun F => { F with gwrites := F.gwrites.map fun x => if x = w then w' else x }).gwriteSettle w'
/-- A note for the root: a member's answer, or a branch pruned. It names the write's sender in its offset. -/
def groupNote (g srcMod srcEp txn status count me : Nat) : FPacket :=
  { typ := 5, vl := 1, status := status, srcMod := me, dstMod := 0xFFF, srcEp := srcEp, dstEp := g, txn := txn, offset := srcMod + 4096 * count }
/-- A note starts at this module: counted if it is the root, else sent up the tree. -/
def State.noteUp (s : State) (g srcMod srcEp txn status count : Nat) : State :=
  let G := s.gentry g
  if G.up = 31 then s.gwriteCount g srcMod srcEp txn (if status = 3 then 0 else count) (if status = 3 then count else 0) (if status = 3 then 0 else status)
  else if (s.lamp G.up).carries then s.fabricOut G.up (groupNote g srcMod srcEp txn status count s.fabric.moduleId) else s
/-- Members beneath one branch of a fork, the entry giving only their sum: exact for a single branch, else a free value (log 57). -/
def State.branchCount (s : State) (g : Nat) : Nat × State :=
  let G := s.gentry g
  let rest := G.beneath - b01 (G.localEp != 0x3FF)
  if (portsOf G.down).length ≤ 1 then (rest, s) else s.takeFree
/-- A branch is pruned for a write. -/
def State.pruneGroup (s : State) (p : FPacket) : State :=
  let (n, s) := s.branchCount p.dstEp
  s.noteUp p.dstEp p.srcMod p.srcEp p.txn 3 n
/-- A group write goes down from here: to this module's member, and by every branch; one over a link below major 3 or without a link
is pruned, one without credit waits in the branch's group buffer of 64 KiB. -/
def State.groupDown (s : State) (p : FPacket) : State :=
  let g := p.dstEp
  let G := s.gentry g
  let s := if G.localEp = 0x3FF then s
    else
      let E := s.endpoint G.localEp
      let (ok, st, s) := if s.epRefuses { p with dstEp := G.localEp } true (32 * p.data.length) then (false, 1, s)
        else let (ok, s) := s.epWrites E.ctx (E.winVa + p.offset) p.poison p.data; (ok, if ok then 0 else 2, s)
      s.noteUp g p.srcMod p.srcEp p.txn (if ok then 0 else st) 1
  (portsOf G.down).foldl (fun s n =>
    let L := s.lamp n
    if !L.carries || decide (L.ver < 0x300) || decide (p.hops + 1 > 15) then s.pruneGroup p
    else
      let q := { p with hops := p.hops + 1 }
      if L.gbuf.isEmpty && decide (cdiv (32 + 32 * p.data.length) 304 ≤ L.credits.headD 0) then s.fabricOut n q
      else s.modLamp n fun L => { L with gbuf := L.gbuf ++ [q] }) s
/-- Has every branch of a fork room for a copy? -/
def State.groupRoom (s : State) (p : FPacket) : Bool :=
  (portsOf (s.gentry p.dstEp).down).all fun n => decide (natSum ((s.lamp n).gbuf.map fun q => 32 + 32 * q.data.length) + 32 + 32 * p.data.length ≤ 65536)
/-- A group write at a module: on its way up to the root, or down from it. -/
def State.groupStep (s : State) (from_ : Option Nat) (p : FPacket) : State :=
  let G := s.gentry p.dstEp
  if !G.valid then s
  else if G.up = 31 then
    (s.modFabric fun F => { F with gwrites := F.gwrites ++ [{ group := p.dstEp, srcMod := p.srcMod, srcEp := p.srcEp, txn := p.txn }] }).groupDown p
  else if from_ = some G.up then s.groupDown p
  else if (s.lamp G.up).carries && decide ((s.lamp G.up).ver ≥ 0x300) && decide (p.hops < 15) then s.fabricOut G.up { p with hops := p.hops + 1 }
  else if p.srcMod = s.fabric.moduleId then s.descAnswer p.srcEp p.txn (fun d _ _ => d.note 0x2A) []
  else (s.fabricSend { typ := 5, vl := 1, status := 3, srcMod := s.fabric.moduleId, dstMod := p.srcMod, dstEp := p.srcEp, txn := p.txn }).2
/-- FABRIC_GROUP: the fork withholds credit, so that the packet waits, while a branch's buffer has no room. -/
def execFabricGroup (n : LampIx) (p : FPacket) (s : State) : Res :=
  if s.fabric.moduleId = 0xFFF || !(s.lamp n).carries then .next s
  else if !s.groupRoom p then .next s
  else .next (s.groupStep (some n.val) p)
/-- GROUP_ACK: a note on its way to the root, or the root's answer to the sender. -/
def execGroupAck (n : LampIx) (p : FPacket) (s : State) : Res :=
  if s.fabric.moduleId = 0xFFF || !(s.lamp n).carries then .next s
  else if p.dstMod = 0xFFF then .next (s.noteUp p.dstEp (p.offset % 4096) p.srcEp p.txn p.status (p.offset / 4096))
  else if p.dstMod = s.fabric.moduleId then
    .next (s.descAnswer p.dstEp p.txn (fun d _ _ => { (if p.status = 0 then d else d.note (completionStatus p.status)) with done := p.offset, sent := d.bytes }) [])
  else .next (s.fabricForward n p)
/-- GROUP_WRITE: the descriptor's words, 64 at a time, go to the group; where groups may not be used it completes FLOOR. -/
def State.groupDesc (s : State) (e : Nat) (d : FDesc) (h : HostMem) : Nat → State
  | 0 => s
  | k + 1 => match s.findDesc e d.no with
    | none => s
    | some x =>
      if x.sent ≥ x.bytes ∨ x.status ≠ 0 then s.descSettle e d.no
      else
        let n := min 2048 (x.bytes - x.sent)
        match s.epReads (s.endpoint e).ctx h (x.local_ + x.sent) (n / 32) with
        | none => (s.modDesc e d.no fun y => y.note 0x20).descSettle e d.no
        | some (ws, m) =>
          let used := s.fabricTxns
          let txn := (((upto s.fabric.nextTxn 65536).map (· % 65536)).find? fun z => !used.contains z).getD 0
          let s := (s.modFabric fun F => { F with nextTxn := (txn + 1) % 65536 }).modDesc e d.no fun y =>
            { y with sent := y.sent + n, wait := y.wait ++ [(txn, x.sent, n, false)] }
          let p : FPacket := { typ := 4, srcMod := s.fabric.moduleId, srcEp := e, dstEp := d.target % 256, txn := txn, offset := (x.offset + x.sent) % 2 ^ 48
                               words := n / 32, data := ws, poison := m }
          (s.groupStep none p).groupDesc e d h k
def execGroupWrite (e : Fin 1024) (host : HostMem) (s : State) : Res :=
  match s.nextDesc e host with
  | (some d, s) =>
    if d.op ≠ 3 then .next s
    else
      let s := s.takeDesc e d
      if !s.groupsUsable then .next (s.descDone e d 0x28 0)
      else if !(s.gentry (d.target % 256)).valid then .next (s.descDone e d 0x2A 0)
      else .next (s.groupDesc e d host (d.bytes / 2048 + 2))
  | (none, s) => .next s
/-- GROUP_BRANCH_PRUNE: a branch has had no credit for a write for 1 ms: its copy is dropped and its members counted. -/
def execGroupBranchPrune (n : LampIx) (p : FPacket) (s : State) : Res :=
  if !((s.lamp n).gbuf.contains p) then .next s
  else
    let s := s.modLamp n fun L => { L with gbuf := L.gbuf.erase p }
    .next ((s.pruneGroup p).breakGroup p.dstEp)

/-! ### Fabric hurdles (R545) -/

/-- The op and value of a contribution as its one payload word holds them: value in [63:0], op in [66:64], contributions in [127:96]. -/
def hurdleWord (op value count : Nat) : Word256 := BitVec.ofNat 256 (value % 2 ^ 64 + op * 2 ^ 64 + count * 2 ^ 96)
/-- The value of a completed generation goes down: to this module's member and by every branch. -/
def State.hurdleDown (s : State) (g value : Nat) : State :=
  let G := s.gentry g
  let s := s.modFabric fun F => { F with ghurdles := tput F.ghurdles g {} }
  let s := match (s.endpoint G.localEp).descs.find? fun d => d.op == 4 && d.target % 256 == g with
    | none => s
    | some d =>
      let E := s.endpoint G.localEp
      let (ok, s) := s.ctxWrite E.ctx (portOfFn (s.ctx E.ctx).fn) (pagePieces d.local_ 8) (toBytes value 8)
      s.descDone G.localEp d (if ok then 0 else 0x20) 8
  (portsOf G.down).foldl (fun s n =>
    if (s.lamp n).carries then s.fabricOut n { typ := 7, vl := 1, srcMod := s.fabric.moduleId, dstEp := g, words := 1, data := [hurdleWord 0 value 0] } else s) s
/-- Contributions come in at a module: combined, and passed up or completed when all of its own are in; ops that differ break it. -/
def State.contribute (s : State) (g op value count : Nat) : State :=
  let G := s.gentry g
  let H := tget s.fabric.ghurdles g
  let H' : GHurdle := if H.count = 0 then { count := count, op := op, value := value }
    else { H with count := H.count + count, value := hurdleOp H.op H.value value, broken := H.broken || H.op != op }
  let s := s.modFabric fun F => { F with ghurdles := tput F.ghurdles g H' }
  if H'.broken then s.breakGroup g
  else if H'.count < G.beneath then s
  else if G.up = 31 then s.hurdleDown g H'.value
  else if (s.lamp G.up).carries then
    (s.modFabric fun F => { F with ghurdles := tput F.ghurdles g { H' with passedUp := true } }).fabricOut G.up
      { typ := 6, srcMod := s.fabric.moduleId, dstEp := g, words := 1, data := [hurdleWord H'.op H'.value H'.count] }
  else s.breakGroup g
def execFabricHurdle (n : LampIx) (p : FPacket) (s : State) : Res :=
  let w := (p.data.headD 0).toNat
  if s.fabric.moduleId = 0xFFF || !(s.lamp n).carries || !(s.gentry (p.dstEp % 256)).valid then .next s
  else if p.status ≠ 0 then .next (s.breakGroup (p.dstEp % 256))
  else .next (s.contribute (p.dstEp % 256) (fld w 64 3) (fld w 0 64) (fld w 96 32))
def execHurdleDone (n : LampIx) (p : FPacket) (s : State) : Res :=
  let g := p.dstEp % 256
  if s.fabric.moduleId = 0xFFF || (s.gentry g).up != n.val || !(s.gentry g).valid then .next s
  else if p.status ≠ 0 then .next (s.breakGroup g)
  else .next (s.hurdleDown g (fld (p.data.headD 0).toNat 0 64))
/-- DESC_HURDLE: the descriptor waits for its generation and its value is contributed. -/
def execDescHurdle (e : Fin 1024) (host : HostMem) (s : State) : Res :=
  match s.nextDesc e host with
  | (some d, s) =>
    if d.op ≠ 4 then .next s
    else
      let s := s.takeDesc e d
      if !s.groupsUsable then .next (s.descDone e d 0x28 0)
      else if !(s.gentry (d.target % 256)).valid then .next (s.descDone e d 0x2A 0)
      else .next (s.contribute (d.target % 256) d.hop d.value 1)
  | (none, s) => .next s

end Sys2Proof.Machine
end

