-- ==== Sys2Proof/Machine/MgtOps.lean ====
section
/-! DEFINITION. Messages to Fufin: transports, headers, checks, answers (R629-R635, R653-R656). -/
namespace Sys2Proof.Machine

/-- Number of a transport in records and answers: 0-3 the mailboxes, 4-7 MCTP on PF0-PF3, 8 I3C. -/
def transportNo : Transport → Nat
  | .mailbox pf => pf.val
  | .pcie pf _ => 4 + pf.val
  | .i3c _ => 8
/-- The secured session that a transport names must be live; outside one there is nothing to check (R632). -/
def State.carried (s : State) : Transport → Bool
  | .mailbox _ => true
  | .pcie pf (some id) => (s.session (256 + pf) id.toNat).isSome
  | .i3c (some id) => (s.session 260 id.toNat).isSome
  | .pcie _ none | .i3c none => true
/-- May a control message come this way (R632)? -/
def controlVia : Transport → Bool
  | .mailbox pf => pf == 0
  | .pcie _ x => x.isSome
  | .i3c x => x.isSome
/-- Is the transport an MCTP one inside a secured session (R632)? -/
def secureVia : Transport → Bool
  | .mailbox _ => false
  | .pcie _ x => x.isSome
  | .i3c x => x.isSome
/-- Does a pair serve messages: active, or, for the few of recovery mode, in recovery (R629)? After an orderly stop only GET_STATUS is
served (R653). -/
def State.mgtServes (s : State) (inRecovery : Bool) (status : Bool) : Bool :=
  (s.foldAlive || (inRecovery && !s.power.lost && (s.fold.pair0.st == .recovery || s.fold.pair1.st == .recovery))) && (!s.start.stopped || status)

def State.mailbox (s : State) (pf : Nat) : Mailbox := tget s.fold.mail pf
def State.modMailbox (s : State) (pf : Nat) (f : Mailbox → Mailbox) : State := s.modFold fun F => { F with mail := tmod F.mail pf f }
/-- The request bytes in a mailbox's buffer. -/
def Mailbox.request (M : Mailbox) : List Byte := ((upto 0 (cdiv M.reqLen 4)).flatMap fun i => toBytes (tget M.req i) 4).take M.reqLen

/-- Fields packed little-endian in their order: bytes and value of each (log 60). -/
def packed (fs : List (Nat × Nat)) : List Byte := fs.flatMap fun f => toBytes f.2 f.1
/-- A field of a request's payload. -/
def payField (p : List Byte) (off n : Nat) : Nat := ofBytes ((p.drop off).take n)

/-- An answer goes back the way its request came (R631, R654): into the mailbox's response buffer, with the vector where it is asked
for, or as an MCTP message. -/
def State.mgtAnswer (s : State) (via : Transport) (op minor tag status : Nat) (payload : List Byte) : State :=
  let bytes := packed [(2, op), (1, minor), (1, 1), (2, tag), (1, status), (1, 0), (4, payload.length), (4, 0)] ++ payload
  match via with
  | .mailbox pf =>
    let s := s.modMailbox pf fun M => { M with
      resp := (upto 0 (cdiv bytes.length 4)).foldl (fun tb i => tput tb i (ofBytes ((bytes.drop (4 * i)).take 4))) []
      ready := true, busy := false, status := status, rspLen := bytes.length }
    if (s.mailbox pf).intEn then s.emit (.msix pf (s.mailbox pf).vector) else s
  | v => s.emit (.answer (transportNo v) op status (bytes.map (·.toNat)))

/-- A message of one opcode is served: its header is checked, a control message refused where its transport may not carry it, and
the body answers a status, a payload and the state (R483, R632-R634). `since` is the minor that brought it in. -/
def State.mgtServe (s : State) (via : Transport) (msg : List Byte) (op since : Nat) (control inRecovery status : Bool)
    (ok : List Byte → Bool) (body : List Byte → State → Nat × List (Nat × Nat) × State) : State :=
  let here := match via with | .mailbox pf => (s.mailbox pf).busy | _ => true
  let bytes := match via with | .mailbox pf => (s.mailbox pf).request | _ => msg
  let f := payField bytes
  let payload := bytes.drop 16
  let minor := min (f 2 1) 6
  let tag := f 4 2
  if !here || !s.carried via || decide (bytes.length < 16) || decide (f 0 2 ≠ op) || !s.mgtServes inRecovery status then s
  else if since > minor then s.mgtAnswer via op minor tag 0x10 []
  else if f 3 1 ≠ 0 ∨ f 6 2 ≠ 0 ∨ f 12 4 ≠ 0 ∨ f 8 4 ≠ payload.length ∨ payload.length > 4096 ∨ !ok payload then s.mgtAnswer via op minor tag 0x11 []
  else if control && !controlVia via then (s.mgtAnswer via op minor tag 0x13 []).unitEvent 0xA00E (transportNo via) [op]
  else
    let (st, fs, s) := body payload s
    s.mgtAnswer via op minor tag st (packed fs)

/-- MGT_SEND: a write of MGT_CTL with SEND set. An opcode that no message has, or a length out of range, is answered at once. -/
def State.mgtSend (s : State) (pf : HostIx) (v : Nat) : State :=
  let s := s.modMailbox pf fun M => { M with intEn := bit v 30, vector := fld v 19 11, reqLen := fld v 0 13 }
  if !bit v 31 || (s.mailbox pf).busy then s
  else
    let s := s.modMailbox pf fun M => { M with busy := true, ready := false }
    let M := s.mailbox pf
    let f := payField M.request
    let known := ([0x0001, 0x0002, 0x0010, 0x0011, 0x0012, 0x0020, 0x0021, 0x0030, 0x0031, 0x0032, 0x0033, 0x0040, 0x0041] : List Nat).contains (f 0 2)
    if (!known || decide (M.reqLen < 16) || decide (M.reqLen > 4112)) && s.mgtServes false false then
      s.mgtAnswer (.mailbox pf) (f 0 2) (min (f 2 1) 6) (f 4 2) 0x11 [] else s
def execMgtSend (pf : HostIx) (v : BitVec 32) (s : State) : Res := .next (s.mgtSend pf v.toNat)

end Sys2Proof.Machine
end

