-- ==== Sys2Proof/Machine/Maint.lean ====
section
/-! DEFINITION. Maintenance: requests, their checks and steps, firmware, licences, log rotation (R565, R641-R652, R666-R669). -/
namespace Sys2Proof.Machine

/-! ### Requests (R483, R648-R650) -/

/-- The kind of target of an activity; an FW_ACTIVATE's depends on its component. -/
def maintKind (act w2 : Nat) : Nat :=
  match act with
  | 1 | 2 => 2
  | 3 => 3
  | 4 | 5 => 1
  | 7 => (match w2 % 16 with | 1 => 5 | 2 => 1 | 3 => 2 | 4 => 3 | _ => 4)
  | _ => 0
/-- Targets of a kind. -/
def kindCount (k : Nat) : Nat := match k with | 1 => 144 | 2 => 20 | 3 => 18 | 4 => 4 | _ => 1
/-- The state code that a port's register shows (R4, R516). -/
def State.lampShown (s : State) (n : Nat) : Nat := if s.lampLicensed n then lampCode (s.lamp n).state else 8
/-- Pseudo-channels of a stack out of use or on their way out (R458, R464). -/
def Stack.outOfUse (K : Stack) : Nat := K.retired.length + K.pendingRetire.length + b01 K.migrating.isSome
/-- The checks of a maintenance request: status and whether it fails (R648). -/
def State.maintChecks (s : State) (act tkind target w2 w3 : Nat) : List (Nat × Bool) :=
  let R := s.region target
  [(0x11, act == 0 || decide (act > 9) || tkind != maintKind act w2 || decide (target ≥ kindCount tkind)),
   (0x11, match act with
    | 1 => decide (w3 ≥ 256)
    | 2 | 4 | 5 => w2 != 0 || w3 != 0
    | 3 => decide (w2 > 1) || w3 != 0
    | 6 => w3 == 0 || decide (w3 > 48 * 2 ^ 20)
    | 7 => decide (w2 ≥ 32) || w2 % 16 == 0 || decide (w2 % 16 > 5) || w3 != 0
    | 8 => w3 == 0 || decide (w3 > 4096)
    | _ => w3 != 0 || decide (w2 > 8192)),
   (0x13, act == 7 && decide (((s.fold.bank (w2 / 16 % 2)).comp (w2 % 16)).svn.val < s.ident.floors.getD (w2 % 16 - 1) 0)),
   (0x14, match act with
    | 2 => (s.stack target).state == .out
    | 3 => ([0, 7, 8] : List Nat).contains (s.lampShown target)
    | 4 => s.owner target != 0 || s.org.dead.contains target || s.org.clearing.contains target
    | 5 => s.org.dead.contains target || R.power == .off
    | 6 => s.bankUsed 0 && s.bankUsed 1
    | 7 => !(s.fold.bank (w2 / 16 % 2)).valid
    | _ => false),
   (0x12, act == 1 && decide ((s.stack target).outOfUse ≥ 2))]
/-- How many steps an activity takes. -/
def State.maintSteps (s : State) (J : Job) : Nat :=
  match J.activity with
  | 1 => J.testList.length
  | 2 => 8
  | 4 => 60
  | 5 => 8 * (s.activeTiles J.target).length
  | 6 => cdiv J.w3 (4 * 2 ^ 20)
  | 7 => if J.w2 % 16 = 1 then 9 else 1
  | 9 => cdiv (if J.w2 = 0 then 512 else J.w2) 64
  | _ => 1
/-- The job that a request would make. -/
def maintJob (act tkind target w2 w3 : Nat) : Job :=
  { kind := .maintenance, state := .queued, activity := act, tkind := tkind, target := target, w2 := w2, w3 := w3 }
/-- Would the request wait behind another? -/
def State.maintWaits (s : State) (J : Job) : Bool := (s.maintActive ++ s.maintQueue).any fun a => s.conflicts a.2 J
/-- Is the deferral queue full? -/
def State.maintFull (s : State) : Bool := decide (s.maintQueue.length ≥ 32)
/-- A request that passed its checks becomes a job: DEFERRED behind a conflict, RUNNING else. -/
def State.maintAdmit (s : State) (act tkind target w2 w3 : Nat) (owed : List Owed) : Nat × Nat × State :=
  let J := maintJob act tkind target w2 w3
  let waits := s.maintWaits J
  let (h, s) := s.newJob { J with owed := owed, steps := s.maintSteps J }
  if waits then (2, h, s.jobTo h .deferred)
  else (1, h, s.maintStart h)
/-- Fufin's own request; one that meets a full queue is kept for a retry (R650). -/
def State.ownAsk (s : State) (a : OwnAsk) : Nat × State :=
  if firstFail (s.maintChecks a.activity a.tkind a.target a.w2 a.w3) ≠ 0 then (0, s)
  else if s.maintWaits (maintJob a.activity a.tkind a.target a.w2 a.w3) && s.maintFull then (0, s.modFold fun F => { F with retry := F.retry ++ [a] })
  else
    let r := s.maintAdmit a.activity a.tkind a.target a.w2 a.w3 []
    (r.2.1, r.2.2)
/-- A maintenance request of one activity, by command, by message, or by Fufin. A code that no activity has is refused with the first
activity's row. -/
def State.maintAsk (s : State) (act : Nat) (a : MaintAsk) : State :=
  let takes := fun code => code == act || (act == 1 && (code == 0 || decide (code > 9)))
  match a with
  | .command fn q c =>
    let code := wf c.w1 0 8
    let (tk, tg, w2, w3) := (wf c.w1 8 8, wf c.w1 16 16, c.w2.toNat, c.w3.toNat)
    if !takes code then s
    else s.perform fn q.toNat 0x38 c false
      ([(0x11, sqStray c [msk 0 32, maskAll, maskAll]), (0x13, fn != 0)] ++ s.maintChecks code tk tg w2 w3 ++
        [(0x14, s.maintWaits (maintJob code tk tg w2 w3) && s.maintFull)])
      fun o s =>
        let (st, h, s) := s.maintAdmit code tk tg w2 w3 [o]
        ({ status := st, job := h, isJob := true }, s)
  | .message via msg =>
    let bytes := match via with | .mailbox pf => (s.mailbox pf).request | _ => msg
    let w1 := payField bytes 16 8
    if !takes (w1 % 256) then s
    else s.mgtServe via msg 0x0030 0 true false false (fun p => p.length == 24 && decide (payField p 0 8 < 2 ^ 32)) fun p s =>
      let (code, tk, tg, w2, w3) := (fld w1 0 8, fld w1 8 8, fld w1 16 16, payField p 8 8, payField p 16 8)
      let st := firstFail (s.maintChecks code tk tg w2 w3 ++ [(0x14, s.maintWaits (maintJob code tk tg w2 w3) && s.maintFull)])
      if st ≠ 0 then (st, [], s)
      else
        let (st, h, s) := s.maintAdmit code tk tg w2 w3 []
        (st, [(4, h)], s)
  | .fufin target w2 w3 =>
    if !s.foldUp then s
    else (s.ownAsk { activity := act, tkind := maintKind act w2.toNat, target := target.toNat, w2 := w2.toNat, w3 := w3.toNat }).2

def execStackTest (a : MaintAsk) (s : State) : Res := .next (s.maintAsk 1 a)
def execStackScrub (a : MaintAsk) (s : State) : Res := .next (s.maintAsk 2 a)
def execLinkRetrain (a : MaintAsk) (s : State) : Res := .next (s.maintAsk 3 a)
def execRegionRetest (a : MaintAsk) (s : State) : Res := .next (s.maintAsk 4 a)
def execRechar (a : MaintAsk) (s : State) : Res := .next (s.maintAsk 5 a)
def execFwStage (a : MaintAsk) (s : State) : Res := .next (s.maintAsk 6 a)
def execFwActivate (a : MaintAsk) (s : State) : Res := .next (s.maintAsk 7 a)
def execLicenceInstall (a : MaintAsk) (s : State) : Res := .next (s.maintAsk 8 a)
def execLogRotate (a : MaintAsk) (s : State) : Res := .next (s.maintAsk 9 a)

/-! ### What Fufin asks for itself (R641, R645, R650) -/

/-- With AUTO_ACTIVATE the next pending component is asked for: HBM_CTL by stack, LINK by port, TILE by unowned region and then by
paddock. HOST is never activated so. -/
def State.autoActivate (s : State) : State :=
  let F := s.fold
  let b := F.pendingBank
  let busy := (s.maintActive ++ s.maintQueue).any (fun a => a.2.activity == 7) || F.retry.any (fun a => a.activity == 7)
  if !F.autoActivate || busy || !s.foldUp then s
  else
    let pads := (s.host.paddocks.filter (·.2.live)).filterMap fun e => e.2.regions.find? fun r => (s.region r).runBank != b
    let next : Option (Nat × Nat × Nat) :=
      (if F.pendingFw.contains 3 then ((upto 0 20).find? fun k => (s.stack k).runBank != b && (s.stack k).working).map fun k => (3, 2, k) else none).orElse fun _ =>
      (if F.pendingFw.contains 4 then ((upto 0 18).find? fun n => (s.lamp n).runBank != b && s.lampShown n != 7).map fun n => (4, 3, n) else none).orElse fun _ =>
      (if F.pendingFw.contains 2 then ((upto 0 144).find? fun r => (s.region r).runBank != b && (s.region r).pendingBank != some b && s.owner r == 0 && !s.org.dead.contains r).map fun r => (2, 1, r) else none).orElse fun _ =>
      (if F.pendingFw.contains 2 then pads.head?.map fun r => (2, 1, r) else none)
    match next with
    | some (c, tk, tg) => (s.ownAsk { activity := 7, tkind := tk, target := tg, w2 := c + 16 * b, w3 := 0 }).2
    | none => s
/-- With AUTO_ROTATE a rotation of 512 blocks is asked for when fewer than 512 are free. -/
def State.autoRotate (s : State) : State :=
  let asked := (s.maintActive ++ s.maintQueue).any (fun a => a.2.activity == 9) || s.fold.retry.any (fun a => a.activity == 9)
  if s.fold.autoRotate && decide (s.fold.freeBlocks < 512) && !asked && s.foldUp then (s.ownAsk { activity := 9, w2 := 512 }).2 else s
/-- A re-characterisation that ageing asked for (R565). -/
def State.autoRechar (s : State) : State :=
  match s.start.recharWanted with
  | r :: rest =>
    let busy := (s.maintActive ++ s.maintQueue).any fun a => a.2.activity == 5 && a.2.target == r
    let s := { s with start := { s.start with recharWanted := rest } }
    if busy then s else (s.ownAsk { activity := 5, tkind := 1, target := r }).2
  | [] => s
/-- MAINT_REQUEST_RETRY: the oldest request of Fufin's own is made again; and with it what Fufin has still to ask for. -/
def execMaintRequestRetry (s : State) : Res :=
  if !s.foldUp then .next s
  else
    let s := match s.fold.retry with
      | a :: rest => ((s.modFold fun F => { F with retry := rest }).ownAsk a).2
      | [] => s
    .next (s.autoRechar.autoRotate.autoActivate)

/-! ### Licences (R622, R666-R668) -/

/-- The variant in force is raised: geometry, ports, and IDs that wait to be bound (R622). -/
def State.raiseVariant (s : State) (v : Variant) : State :=
  let old := (upto 0 540).filter s.licensed
  let ports := (upto 0 18).filter fun n => !s.lampLicensed n
  let s := { s with org := { s.org with variant := v } }
  let new := (upto 0 540).filter fun l => s.licensed l && !old.contains l
  let s := { s with org := { s.org with
      binds := new.foldl (fun tb l => tput tb l .hole) s.org.binds
      toBind := new.foldl setIns s.org.toBind } }
  let s := (ports.filter s.lampLicensed).foldl (fun s n =>
    (s.modLamp n fun L => if L.enable then { L with state := .training, step := 1 } else { L with state := .disabled }).cablePower n) s
  (((s.geoUpdate []).raise { code := 0x9105, detail := [s.org.variant.perField] })).bindWaiting
/-- The fields of a licence (R666): KIND, SEQ, VARIANT, HOURS, DEBUGGER, SERIAL; none where the object is malformed. -/
def licenceFields (bs : List Byte) : Option (Nat × Nat × Nat × Nat × Nat × Nat) :=
  let f := payField bs
  let cert := f 0x16 2
  let (kind, var, hours) := (f 5 1, f 0x14 1, f 0x15 1)
  let bad := decide (f 0 4 ≠ 0x4C434E59) || decide (f 4 1 ≠ 1) || decide (f 6 2 ≠ 0) || decide (f 0x48 24 ≠ 0) ||
    decide (bs.length ≠ 0x60 + cert + 96) || decide (bs.length > 4096) ||
    (match kind with
      | 1 => !(var == 2 || var == 3) || hours != 0 || f 0x18 48 != 0
      | 2 => var != 0 || hours == 0
      | _ => true)
  if bad then none else some (kind, f 0x10 4, var, hours, f 0x18 48, f 8 8)
/-- LICENCE_INSTALL's checks in their order, and what an accepted licence does. The status of a refusal, or 0. -/
def State.installLicence (s : State) (bs : List Byte) (certOk sigOk : Bool) : Nat × State :=
  match licenceFields bs with
  | none => (0x11, s)
  | some (kind, seq, var, hours, dbg, serial) =>
    if serial ≠ Config.serial.toNat || !certOk || !sigOk then (0x13, s)
    else if kind = 1 then
      if var ≤ variantCode s.org.variant then (0x14, s)
      else
        let s := s.modIdent fun I => { I with licences := I.licences ++ [var], fuseP := I.fuseP || var == 2, fuseF := I.fuseF || var == 3 }
        (0, (s.raiseVariant (variantOf var)).unitEvent 0xB003 0xFFFF [kind, seq])
    else
      let old := match s.ident.debugSeq with | some m => decide (seq ≤ m) | none => false
      if old then (0x14, s)
      else
        let s := s.modIdent fun I => { I with debugSeq := some seq, debugLic := some (dbg, s.time + hours * 3600000000000) }
        (0, s.unitEvent 0xB003 0xFFFF [kind, seq])

/-! ### Steps (R565, R641, R643, R646, R647, R651) -/

/-- What a step's end means for its job: go on, wait (the step has not ended), or end FAILED with a status. -/
inductive StepEnd where
  | on | wait | fail (status : Nat)
  deriving DecidableEq, Repr

/-- A status that the spec does not state for a failed job is open. -/
def State.failOpen (s : State) : StepEnd × State := let (v, s) := s.takeFree; (.fail (v % 256), s)
/-- The words of pseudo-channels in a range are read and written back (R452). -/
def State.scrubChannels (s : State) (k lo n : Nat) : State :=
  ((s.stack k).upset.filter fun e => let p := pcOfOff (32 * e.1); decide (lo ≤ p) && decide (p < lo + n)).foldl (fun s e => (s.hbmWord k e.1 false).2.2) s
/-- Log blocks erased, the oldest first; entries above the acknowledgement point are counted. -/
def State.eraseBlocks (s : State) (n : Nat) : Nat × State :=
  let gone := (s.fold.blocks.filter (·.closed)).take n
  let unread := natSum (gone.map fun b => (b.entries.filter fun l => l.seq > s.fold.ack).length)
  (unread, (s.modFold fun F => { F with blocks := F.blocks.drop gone.length }).drainLog)
/-- A pair of copies of a staged bank's tile image is written to HBM (R607, R643). -/
def State.stageCopies (s : State) : State :=
  let s := s.fold.stagedCopies.foldl (fun s c => s.setFrames c.2 .free) s
  let s := s.modFold fun F => { F with stagedCopies := [] }
  (upto 0 2).foldl (fun s _ =>
    let used := s.fold.stagedCopies.map fun c => stackEdge c.1
    match (upto 0 20).find? fun k => s.stackServes k && !used.contains (stackEdge k) with
    | none => s
    | some k => match s.findFrames k imageFrames 1 with
      | none => s
      | some fs => (s.setFrames fs .device).modFold fun F => { F with stagedCopies := F.stagedCopies ++ [(k, fs)] }) s
/-- A staged set is checked: digests, signature, security versions, and whether its FUFIN can take over (R643, R646, R669). -/
def State.checkSet (s : State) (f : FwSet) : Bool :=
  f.matches_ && f.signed && f.mirrors &&
  ((upto 1 5).all fun c => let x := f.comps.toList.getD (c - 1) {}; decide (x.svn.val ≥ s.ident.floors.getD (c - 1) 0) && decide (x.floor.val ≤ x.svn.val))
/-- The bank that staging writes gets its set: STAGED, or invalid. -/
def State.stageFw (s : State) (f : FwSet) : Bool × State :=
  let b := if s.bankUsed 0 then 1 else 0
  if s.checkSet f then (true, ((s.modFold fun F => F.setBank b { valid := true, fw := f }).stageCopies).unitEvent 0xA005 b [b])
  else (false, (s.modFold fun F => F.setBank b { valid := false, fw := f }).unitEvent 0xA006 b [b])
/-- The regions that a TILE activation reloads now take the bank; those in NAP or OFF at their next wake; those whose tiles failed
the digest keep theirs, to be tested (R647). -/
def State.tileActivate (s : State) (r bank : Nat) (bad : List Nat) : State :=
  (s.actGroup r).foldl (fun s q =>
    let R := s.region q
    if bad.contains q then s.modRegion q fun R => { R with testFirst := true }
    else if R.live then (s.modRegion q fun R => { R with runBank := bank, pendingBank := none }).activated 2 q bank
    else s.modRegion q fun R => { R with pendingBank := some bank }) s
/-- A step of a FUFIN activation ends: the standby loads, takes over, and the former active pair follows it. -/
def State.fufinStep (s : State) (step bank : Nat) : StepEnd × State :=
  match s.fold.activePair with
  | none => (.wait, s)
  | some a =>
    let other := s.fold.pair (!a)
    if other.st ≠ .held then s.failOpen
    else if step = 1 then (.on, s.modFold fun F => F.setPair (!a) { other with bank := bank })
    else if step = 4 then
      -- the alias key of the new image is derived at its takeover (R660)
      let s := s.takeover a .held
      let s := s.modIdent fun I => { I with aliasGen := I.aliasGen + 1 }
      (.on, (s.unitEvent 0xA001 (b01 (!a)) []).unitEvent 0xB00A 0xFFFF [s.ident.aliasGen])
    else if step = 6 then (.on, s.modFold fun F => F.setPair (!a) { other with bank := bank })
    else if step = 8 then (.on, (s.modFold fun F => F.setPair (!a) { other with st := .standby }).activated 1 0 bank)
    else (.on, s)
/-- The end of a step of a job, by activity. -/
def State.stepEnd (s : State) (j : Nat) (r : StepResult) : StepEnd × State :=
  let J := s.job j
  let k := J.target
  let bank := J.w2 / 16 % 2
  match J.activity with
  | 1 =>
    let K := s.stack k
    if K.state == .out then s.failOpen
    else if K.testing.isSome then (.wait, s)
    else if K.outOfUse ≥ 2 then (.fail 0x12, s)
    else (.on, s)
  | 2 => if (s.stack k).state == .out then s.failOpen else (.on, s.scrubChannels k (8 * J.step) 8)
  | 3 =>
    let L := s.lamp k
    if L.carries then (.on, s)
    else if r == .failed || L.waitRetry || L.state == .down || L.state == .outOfService then s.failOpen
    else (.wait, s)
  | 4 =>
    if s.org.dead.contains k || (s.region k).railOffLatched then s.failOpen
    else if J.step + 1 < J.steps || ((regionTiles k).all fun t => !s.fit t || s.start.tested.contains t) then (.on, s)
    else (.wait, s)
  | 5 =>
    if s.org.dead.contains k || (s.region k).power == .off then s.failOpen
    else if (s.padsIn k).any fun p => match (s.paddock p).resident with | some x => (s.job x).state == .running | none => false then (.wait, s)
    else match r, (s.activeTiles k)[J.step / 8]? with
      | .passes f, some t => (.on, s.lowerCeil t (J.step % 8) f.val)
      | _, _ => (.on, s)
  | 6 =>
    -- an update session's job goes with the session's messages (R644)
    if s.fold.upd.state != .idle && s.fold.upd.job == j then (.wait, s)
    else if r == .hostFailed then (.fail 0x21, s)
    else if J.step + 1 < J.steps then (.on, s)
    else match r with
      | .package f =>
        let (ok, s) := s.stageFw f
        if ok then (.on, s) else s.failOpen
      | _ => (.wait, s)
  | 7 =>
    match J.w2 % 16 with
    | 1 => s.fufinStep J.step bank
    | 2 => match r with
      | .digests bad =>
        if s.org.dead.contains k then s.failOpen
        else
          let s := s.tileActivate k bank (bad.map (·.val))
          if bad.isEmpty then (.on, s) else s.failOpen
      | _ => (.wait, s)
    | 3 =>
      let K := s.stack k
      if K.state == .out then s.failOpen
      else if K.migrating.isSome then (.wait, s)
      else (.on, ((s.modStack k fun K => { K with runBank := bank }).stackReset k).activated 3 k bank)
    | 4 =>
      if (s.lamp k).state == .outOfService then s.failOpen
      else (.on, ((s.modLamp k fun L => { L with runBank := bank }).lampReset k).activated 4 k bank)
    | _ =>
      let s := s.setPort k { s.port k with up := false, reads := [], runBank := bank }
      (.on, (s.resetFunction k).activated 5 k bank)
  | 8 => match r with
    | .licence bs c g =>
      let (st, s) := s.installLicence bs c g
      if st = 0 then (.on, s) else (.fail st, s.unitEvent 0xB004 0xFFFF [st])
    | .hostFailed => (.fail 0x21, s)
    | _ => (.wait, s)
  | 9 =>
    let want := if J.w2 = 0 then 512 else J.w2
    let (unread, s) := s.eraseBlocks (min 64 (want - 64 * J.step))
    (.on, s.modJob j fun J => { J with progress := J.progress + unread })
  | _ => (.on, s)
/-- MAINT_STEP_END: the step of a job ends. What failed ends the job; the last step ends it DONE; else a pending SUSPEND or CANCEL takes
effect, or the next step begins. A FUFIN activation past its takeover runs to its end (R646, R651). -/
def execMaintStepEnd (job : BitVec 32) (r : StepResult) (s : State) : Res :=
  let j := job.toNat
  let J := s.job j
  let busy := J.state == .running || J.state == .suspending || J.state == .cancelling
  if !J.live || J.kind != JobKind.maintenance || !busy || !s.foldUp then .next s
  else
    let (e, s) := s.stepEnd j r
    match e with
    | .wait => .next s
    | .fail st => .next (s.maintEnd j .failed st).resetSettle
    | .on =>
      let s := s.modJob j fun J => { J with step := J.step + 1 }
      let J := s.job j
      if J.step ≥ J.steps then
        let s := if J.activity = 9 then
            let s := s.unitEvent 0xA00A 0xFFFF [if J.w2 = 0 then 512 else J.w2]
            if J.progress > 0 then s.unitEvent 0xA00B 0xFFFF [J.progress] else s
          else s
        .next ((s.maintEnd j .done 0).autoActivate).resetSettle
      else if J.state = .cancelling ∧ !(J.activity = 7 ∧ J.step ≥ 5) then .next (s.maintEnd j .cancelled 0).resetSettle
      else if J.state = .suspending ∧ !(J.activity = 7 ∧ J.w2 % 16 = 1) then
        let s := (s.jobTo j .suspended).answerOwed j (fun o => o.kind == 1) 0
        if J.resumeNext then
          .next ((((s.modJob j fun J => { J with holdHost := false, resumeNext := false }).jobTo j .running).answerOwed j (fun o => o.kind == 2) 0).stepStart j)
        else .next s
      else .next (s.stepStart j)

end Sys2Proof.Machine
end

