-- ==== Sys2Proof/Machine/Fold.lean ====
section
/-! DEFINITION. The Fold controller: event records, ERR rings, pairs, the event log, power and telemetry messages (R336, R625-R641,
R653-R655, R686-R690). -/
namespace Sys2Proof.Machine

/-! ### Event records (R686-R690) -/

/-- Do two records come from one unit? Those keep their order. -/
def sameUnit (a b : EventRec) : Bool := a.node == b.node && a.region == b.region && a.unit == b.unit && a.ctx == b.ctx
/-- Fufin suspends the job that owns a tile whose column waits for its bypass, by the DEVICE hold (R82, R423, R498). -/
def State.bypassHold (s : State) (e : EventRec) : State :=
  if e.code ≠ 0x1004 ∨ !s.foldUp ∨ (s.tile e.node).arr.pendingBypass.isEmpty then s
  else match (s.paddock (s.tag e.node)).resident with
    | some j => if (s.job j).terminal then s else s.holdJob j fun J => { J with holdDev := true }
    | none => s
/-- EVENT: a record reaches the Fold; no record of its unit may be before it. With no pair active it is lost. -/
def execEvent (i : BitVec 16) (s : State) : Res :=
  match s.events[i.toNat]? with
  | none => .next s
  | some e =>
    if (s.events.take i.toNat).any (sameUnit e) then .next s
    else
      let s := { s with events := s.events.eraseIdx i.toNat }
      .next (if s.foldAlive then ((s.record e).autoRotate).bypassHold e else s.modFold fun F => { F with gap := true })
/-- ERR_HEAD_WRITE. -/
def execErrHeadWrite (fn : FnIx) (head : BitVec 9) (s : State) : Res :=
  .next { s with errs := tmod s.errs fn fun E => { E with head := head.toNat } }
/-- ERR_CNT_READ: the occurrences of a class since the last read. -/
def execErrCntRead (fn : FnIx) (c : Fin 5) (s : State) : Res :=
  .next { s.emit (.regRead (readerFn fn) (0xA0010 + 4 * c.val) (tget (tget s.errs fn).cnt c)) with
    errs := tmod s.errs fn fun E => { E with cnt := tput E.cnt c 0 } }
/-- ERR_LOST_READ. -/
def execErrLostRead (fn : FnIx) (s : State) : Res :=
  .next { s.emit (.regRead (readerFn fn) 0xA0024 (tget s.errs fn).lost) with errs := tmod s.errs fn fun E => { E with lost := 0 } }

/-! ### Pairs (R627-R629) -/

/-- The time within which a second mismatch of a pair is its last: 24 h. -/
def missNs : Nat := 86400000000000
/-- LOCKSTEP_MISMATCH: the pair stops; the standby takes over from the active one. A second mismatch within 24 h records it failed. -/
def execLockstepMismatch (b : Bool) (s : State) : Res :=
  let P := s.fold.pair b
  let was := P.st
  if !(was == .active || was == .standby || was == .recovery) then .next s
  else
    let again := P.misses.any fun t => s.time < t + missNs
    let left : PairState := if again then .failed else .stopped
    let other := (s.fold.pair (!b)).st
    let s := if was == .active && other == .standby then (s.takeover b left).unitEvent 0xA002 (b01 b) []
             else s.modFold fun F => F.setPair b { F.pair b with st := left }
    let s := s.modFold fun F => F.setPair b { F.pair b with misses := s.time :: P.misses, restart := !again }
    let s := if was == .standby then s.unitEvent 0xA003 (b01 b) [] else s
    .next (if again then s.defect 0x0C (if was == .active then 0xA002 else 0xA003) [b01 b] else s)
/-- WATCHDOG_RESTART: a stopped pair is restarted once; it passes its self-test and boots, or stays stopped. With a pair active it
copies the mirror and is standby; else it runs in recovery mode. -/
def execWatchdogRestart (b : Bool) (passes : Bool) (s : State) : Res :=
  let P := s.fold.pair b
  if P.st ≠ .stopped ∨ !P.restart then .next s
  else if !passes then .next (s.modFold fun F => F.setPair b { P with restart := false })
  else if s.foldAlive then .next ((s.modFold fun F => F.setPair b { P with st := .standby, restart := false }).unitEvent 0xA004 (b01 b) [])
  else .next (s.modFold fun F => F.setPair b { P with st := .recovery, restart := false })

/-! ### The log (R639-R641, R655) -/

/-- LOG_BLOCK_SEAL: the block in use is full, or a second has passed since its first entry; `replaced` tells of a flash block that
failed to program and was replaced (R630). -/
def execLogBlockSeal (replaced : Bool) (s : State) : Res :=
  if !s.foldAlive then .next s
  else
    let s := s.sealLog
    let s := if replaced then (s.modFold fun F => { F with replaced := F.replaced + 1 }).unitEvent 0xA00C 0xFFFF [s.fold.blockNo] else s
    .next s.autoRotate
/-- The acknowledgement point only rises. -/
def State.logAck (s : State) (seq : Nat) : State := s.modFold fun F => { F with ack := max F.ack seq }
/-- MGT_LOG_ACK_WRITE: from PF0 only. -/
def execMgtLogAckWrite (pf : HostIx) (seq : BitVec 64) (s : State) : Res := .next (if pf = 0 then s.logAck seq.toNat else s)
/-- MGT_LOG_LOST_READ. -/
def execMgtLogLostRead (pf : HostIx) (s : State) : Res :=
  .next ((s.emit (.regRead (readerFn pf) 0x9002C (s.mailbox pf).lost)).modMailbox pf fun M => { M with lost := 0 })

/-! ### Power and telemetry messages (R336) -/

/-- POWER: a command of the Fold to a region controller. A state is entered only where its conditions hold (R557-R560). -/
def execPower (r : RegionIx) (c : PowerCmd) (s : State) : Res :=
  let R := s.region r
  match c with
  | .wake => .next (if R.power == .nap || R.power == .off then s.wantWake r else s.modRegion r fun R => if R.power == .idle then { R with power := .on } else R)
  | .idle => .next (if R.power == .on && !R.tripped && s.unitsIdle r then s.modRegion r fun R => { R with power := .idle } else s)
  | .nap => .next (if R.live && s.mayNap r then s.toNap r else s)
  | .off => .next (if (R.live || (R.power == .nap && !R.tripped)) && s.mayOff r then s.loseState r else s)
  | .fmult f => .next (if f.val ≥ 16 ∧ f.val ≤ s.upperLimit r then s.askFmult r f.val else s)
  | .grant mw => .next (s.modRegion r fun R => { R with grant := mw.toNat })
/-- TELEMETRY: sensor and counter reports of a node reach the Fold; eye margins are those of R637. -/
def execTelemetry (node : Fin 672) (report : List (BitVec 16 × BitVec 32)) (s : State) : Res :=
  let numbers := report.flatMap fun e => [e.1.toNat, e.2.toNat]
  let s := { s with net := { s.net with telemetry := (s.net.telemetry.filter fun e => e.1 != node.val) ++ [(node.val, numbers)] } }
  .next (report.foldl (fun s (e : BitVec 16 × BitVec 32) =>
    let id := e.1.toNat
    if 0x800 ≤ id ∧ id < 0x800 + 162 ∧ lampNode ((id - 0x800) / 9) = node.val then s.modFold fun F => { F with eyes := tput F.eyes (id - 0x800) e.2.toNat } else s) s)

end Sys2Proof.Machine
end

