-- ==== Sys2Proof/Machine/Mgt.lean ====
section
/-! DEFINITION. The Fufin message set, sensors, orderly stop (R595, R635-R641, R653, R708). -/
namespace Sys2Proof.Machine

/-! ### Sensors (R637, R708) -/

/-- The sensor IDs in ascending order. -/
def sensorIds : List Nat :=
  upto 0x001 576 ++ upto 0x300 144 ++ upto 0x400 144 ++ upto 0x500 144 ++ upto 0x600 36 ++ upto 0x640 36 ++ upto 0x700 20 ++
  upto 0x720 42 ++ upto 0x760 42 ++ upto 0x800 162 ++ upto 0x900 6 ++ upto 0x910 6
/-- Is a number within `n` of a first ID? -/
def inIds (id first n : Nat) : Bool := decide (first ≤ id) && decide (id < first + n)
/-- A sensor's reading in its unit: none where there is no such sensor, `some none` where it is unavailable. -/
def State.sensor (s : State) (id : Nat) : Option (Option Nat) :=
  let P := s.power
  if inIds id 1 576 then
    let R := s.region ((id - 1) / 4)
    let k := (id - 1) % 4
    some (if R.excluded.contains k then none else some (R.temps.getD k 0))
  else if inIds id 0x300 144 then some (some (s.region (id - 0x300)).voltMv)
  else if inIds id 0x400 144 then some (some (tget P.computeMa (id - 0x400) / 100))
  else if inIds id 0x500 144 then some (some (tget P.transitMa (id - 0x500) / 10))
  else if inIds id 0x600 36 then some (some (tget P.brickDa (id - 0x600)))
  else if inIds id 0x640 36 then some (some (tget P.brickTemp (id - 0x640)))
  else if inIds id 0x700 20 then some (some (s.stack (id - 0x700)).temp)
  else if inIds id 0x720 42 then some (some (tget P.edgeCa (id - 0x720)))
  else if inIds id 0x760 42 then some (some (tget P.edgeTemp (id - 0x760)))
  else if inIds id 0x800 162 then some (some (tget s.fold.eyes (id - 0x800)))
  else match id with
    | 0x900 => some (P.inlets.1.map (· / 10))
    | 0x901 => some (P.inlets.2.map (· / 10))
    | 0x902 => some (P.outlets.1.map (· / 10))
    | 0x903 => some (P.outlets.2.map (· / 10))
    | 0x904 => some P.flows.1
    | 0x905 => some P.flows.2
    | 0x910 => some (some P.feedDv.1)
    | 0x911 => some (some P.feedDv.2)
    | 0x912 => some (some P.convW.1)
    | 0x913 => some (some P.convW.2)
    | 0x914 => some (some (P.foldCw / 100))
    | 0x915 => some (some P.inputW)
    | _ => none
/-- Warning, critical and fatal thresholds of a sensor in its unit, and whether they are crossed from above. -/
def thresholds (id : Nat) : List (Option Nat) × Bool :=
  if inIds id 1 576 then ([some 95, some 105, some 110], false)
  else if inIds id 0x400 144 then ([some 1400, some 1600, some 2000], false)
  else if inIds id 0x500 144 then ([none, some 2000, none], false)
  else if inIds id 0x600 36 then ([some 1000, some 1250, some 1400], false)
  else if inIds id 0x640 36 then ([some 100, some 110, some 120], false)
  else if inIds id 0x700 20 then ([some 85, some 95, some 100], false)
  else if inIds id 0x760 42 then ([some 95, some 105, none], false)
  else if inIds id 0x800 162 then ([some 12, some 8, some 4], true)
  else if inIds id 0x900 2 then ([some 40, some 45, some 50], false)
  else if inIds id 0x902 2 then ([some 50, some 55, some 60], false)
  else if inIds id 0x904 2 then ([some 240, some 180, some 120], true)
  else ([none, none, none], false)

/-! ### Reading messages (R635) -/

/-- The word of MGT_STAT as a function sees it (R654). -/
def State.mgtStat (s : State) (pf : Option Nat) : Nat :=
  let F := s.fold
  let M := match pf with | some p => s.mailbox p | none => {}
  atBit (b01 s.foldAlive) 31 1 + atBit (b01 F.standbyOk) 30 1 + atBit (b01 (F.activePair.getD false)) 29 1 + atBit (b01 M.ready) 27 1 +
  atBit (b01 M.busy) 26 1 + atBit F.activeBank 25 1 + atBit (b01 (F.bank (1 - F.activeBank)).valid) 24 1 + atBit s.maintQueue.length 18 6
def mailboxOf : Transport → Option Nat
  | .mailbox pf => some pf.val
  | _ => none

/-- GET_VERSION; a message over MCTP whose opcode no message has is answered with its row. -/
def execGetVersion (via : Transport) (msg : List Byte) (s : State) : Res :=
  let f := payField msg
  let known := ([0x0001, 0x0002, 0x0010, 0x0011, 0x0012, 0x0020, 0x0021, 0x0030, 0x0031, 0x0032, 0x0033, 0x0040, 0x0041] : List Nat).contains (f 0 2)
  if (mailboxOf via).isNone && !known && decide (msg.length ≥ 16) && s.carried via && s.mgtServes false false then
    .next (s.mgtAnswer via (f 0 2) (min (f 2 1) 6) (f 4 2) 0x11 [])
  else .next (s.mgtServe via msg 0x0001 0 false false false (·.isEmpty) fun _ s => (0, [(1, 1), (1, 6)], s))
/-- GET_STATUS: the fields of MGT_STAT, component versions per bank, start kind and count. -/
def execGetStatus (via : Transport) (msg : List Byte) (s : State) : Res :=
  .next (s.mgtServe via msg 0x0002 0 false true true (·.isEmpty) fun _ s =>
    let vs := fun b => (s.fold.bank b).fw.comps.toList.map fun (c : FwComp) => (4, c.version.toNat)
    (0, [(4, s.mgtStat (mailboxOf via))] ++ vs 0 ++ vs 1 ++ [(1, b01 s.start.cold), (4, s.fold.starts)], s))
/-- The entries that flash holds, oldest first. -/
def Fold.held (F : Fold) : List LogEntry := F.blocks.flatMap (·.entries)
def Fold.oldest (F : Fold) : Nat := match F.held with | l :: _ => l.seq | [] => 0
def Fold.newest (F : Fold) : Nat := match F.held.getLast? with | some l => l.seq | none => 0
/-- LOG_INFO: oldest and newest SEQ, sealed and free blocks, lost entries. -/
def execLogInfo (via : Transport) (msg : List Byte) (s : State) : Res :=
  .next (s.mgtServe via msg 0x0010 0 false true false (·.isEmpty) fun _ s =>
    let F := s.fold
    (0, [(8, F.oldest), (8, F.newest), (4, (F.blocks.filter (·.closed)).length), (4, F.freeBlocks), (4, F.dropped)], s))
/-- A block's seal (R638). -/
def LogBlock.seal (b : LogBlock) : List Byte :=
  packed [(8, b.no), (8, (b.entries.head?.map (·.seq)).getD 0), (2, b.entries.length), (2, b.key), (12, 0)] ++
  toBytes (Config.sign b.key (b.entries.map fun l => ofBytes l.bytes)) 96
/-- READ_LOG: entries in SEQ order with the seals of their sealed blocks; `bad` names blocks whose signature fails now (R640). -/
def execReadLog (via : Transport) (msg : List Byte) (bad : List (BitVec 32)) (s : State) : Res :=
  .next (s.mgtServe via msg 0x0011 0 false true false
    (fun p => p.length == 12 && decide (1 ≤ payField p 8 4) && decide (payField p 8 4 ≤ 60)) fun p s =>
      let F := s.fold
      let first := max (payField p 0 8) F.oldest
      let es := (F.held.filter fun l => l.seq ≥ first).take (payField p 8 4)
      let bs := F.blocks.filter fun b => b.entries.any fun l => es.contains l
      let sealed := bs.filter (·.closed)
      let wrong := sealed.filter fun b => bad.any fun n => n.toNat == b.no
      let s := (wrong.filter fun b => !b.told).foldl (fun s b => s.unitEvent 0xA00D 0xFFFF [b.no]) s
      let s := s.modFold fun F => { F with blocks := F.blocks.map fun b => if wrong.any (fun w => w.no == b.no) then { b with told := true } else b }
      (if wrong.isEmpty then 0 else 0x21,
       es.map (fun l => (64, ofBytes l.bytes)) ++ sealed.map (fun b => (128, ofBytes b.seal)), s))
/-- LOG_ACK (R641). -/
def execLogAck (via : Transport) (msg : List Byte) (s : State) : Res :=
  .next (s.mgtServe via msg 0x0012 3 true true false (fun p => p.length == 8) fun p s =>
    (0, [], s.modFold fun F => { F with ack := max F.ack (payField p 0 8) }))
/-- A defect-map record's 32 bytes (R611). -/
def Defect.bytes (d : Defect) : List Byte :=
  let b := packed [(1, d.kind), (1, 0), (2, d.cause), (4, Config.packWhere d.kind d.where_ % 2 ^ 32), (8, d.time), (4, d.seq), (8, d.detail)]
  b ++ toBytes (crc32 b) 4
/-- READ_DEFECTS. -/
def execReadDefects (via : Transport) (msg : List Byte) (s : State) : Res :=
  .next (s.mgtServe via msg 0x0020 4 false false false
    (fun p => p.length == 8 && decide (1 ≤ payField p 4 4) && decide (payField p 4 4 ≤ 126)) fun p s =>
      let ds := (s.org.defects.filter fun d => d.seq ≥ payField p 0 4).take (payField p 4 4)
      (0, ds.map fun d => (32, ofBytes d.bytes), s))
/-- READ_TELEMETRY: readings of sensors in ascending ID from the first asked for. What stands for an unavailable one is open. -/
def execReadTelemetry (via : Transport) (msg : List Byte) (s : State) : Res :=
  .next (s.mgtServe via msg 0x0021 0 false true false
    (fun p => p.length == 8 && decide (1 ≤ payField p 4 4) && decide (payField p 4 4 ≤ 1000)) fun p s =>
      let ids := (sensorIds.filter fun i => i ≥ payField p 0 4).take (payField p 4 4)
      let r := ids.foldl (fun (acc : List (Nat × Nat) × State) i =>
        match acc.2.sensor i with
        | some (some v) => (acc.1 ++ [(4, v)], acc.2)
        | _ => let (v, s) := acc.2.takeFree; (acc.1 ++ [(4, v)], s)) ([], s)
      (0, r.1, r.2))

/-! ### Maintenance by message (R498, R635) -/

/-- Is a handle that of a maintenance job? -/
def State.isMaint (s : State) (j : Nat) : Bool := (s.job j).live && (s.job j).kind == JobKind.maintenance
/-- MAINT_QUERY: the fields of QUERY. -/
def execMaintQuery (via : Transport) (msg : List Byte) (s : State) : Res :=
  .next (s.mgtServe via msg 0x0031 0 false false false (fun p => p.length == 4) fun p s =>
    let j := payField p 0 4
    let J := s.job j
    let ran := J.runNs + (match J.runFrom with | some f => s.time - f | none => 0)
    if s.isMaint j then (0, [(8, J.queryWord), (8, ran / 1000)], s) else (0x15, [], s))
/-- MAINT_CTL: SUSPEND, RESUME or CANCEL, with the answers of R498. -/
def execMaintCtl (via : Transport) (msg : List Byte) (s : State) : Res :=
  .next (s.mgtServe via msg 0x0032 0 true false false
    (fun p => p.length == 8 && decide (1 ≤ payField p 4 4) && decide (payField p 4 4 ≤ 3)) fun p s =>
      let j := payField p 0 4
      let k := payField p 4 4
      if !s.isMaint j then (0x15, [], s)
      else
        let a := s.jobAnswer j k false
        (a, [], if a = 0x14 ∨ a = 0x12 then s else (s.jobAct j k false).resetSettle))
/-- LIST_MAINT: handle, activity, target, state and place in the queue (from 1; 0 outside it) of every job not terminal. -/
def execListMaint (via : Transport) (msg : List Byte) (s : State) : Res :=
  .next (s.mgtServe via msg 0x0033 0 false false false (·.isEmpty) fun _ s =>
    let queue := s.maintQueue.map (·.1)
    (0, (s.maintActive ++ s.maintQueue).flatMap fun e =>
      [(4, e.1), (1, e.2.activity), (4, e.2.target), (1, jobCode e.2.state), (1, if queue.contains e.1 then queue.idxOf e.1 + 1 else 0)], s))

/-! ### Orderly stop (R595, R653) -/

/-- With FORCE every maintenance job is cancelled and every physical function reset; what the resets leave on the tiles goes with the
compute rails. -/
def State.forceStop (s : State) : State :=
  let s := ((s.maintActive ++ s.maintQueue).map (·.1)).foldl (fun s j => s.maintEnd j .cancelled 0) s
  let s := (upto 0 4).foldl (fun s p => s.resetFunction p) s
  let saved := (s.host.frames.filter fun e => match e.2 with | .save _ => true | _ => false).map (·.1)
  let s := s.freeFrames saved
  let s := { s with
    host := { s.host with paddocks := [] }
    org := { s.org with lent := [], clearing := [], clearingTiles := [], toFill := [], stranded := [] } }
  s.resetSettle
/-- The steps of a stop: regions OFF, stacks in self-refresh, Lamug ports DOWN, the log sealed, the orderly-stop record. -/
def State.orderlyStop (s : State) : State :=
  let s := (upto 0 144).foldl (fun s r => if s.org.dead.contains r then s else s.loseState r) s
  let s := (upto 0 20).foldl (fun s k => s.modStack k fun K => if K.working then { K with selfRefresh := true } else K) s
  let s := (upto 0 18).foldl (fun s n => if ([0, 7, 8] : List Nat).contains (s.lampShown n) then s else s.lampDown n .down) s
  s.sealLog.modStart fun x => { x with stopRecord := true, stopped := true }
/-- STOP. -/
def execStop (via : Transport) (msg : List Byte) (s : State) : Res :=
  .next (s.mgtServe via msg 0x0040 0 true true false (fun p => p.length == 4 && decide (payField p 0 4 < 2)) fun p s =>
    let held := (s.host.paddocks.any fun e => e.2.live) || !(s.maintActive ++ s.maintQueue).isEmpty
    if payField p 0 4 = 0 ∧ held then (0x14, [], s)
    else (0, [], (if payField p 0 4 = 1 then s.forceStop else s).orderlyStop))
/-- NEXT_COLD. -/
def execNextCold (via : Transport) (msg : List Byte) (s : State) : Res :=
  .next (s.mgtServe via msg 0x0041 6 true false false (fun p => p.length == 4 && decide (payField p 0 4 < 2)) fun p s =>
    (0, [], s.modStart fun x => { x with nextCold := payField p 0 4 == 1 }))

end Sys2Proof.Machine
end

