-- ==== Sys2Proof/Machine/Pldm.lean ====
section
/-! DEFINITION. MCTP control, I3C addresses, PLDM monitoring and firmware update (R631, R632, R636, R644). -/
namespace Sys2Proof.Machine

/-! ### MCTP and I3C (R631) -/

/-- The endpoint of a transport: PF0-PF3, 4 for I3C; none for a mailbox, which is no MCTP endpoint. -/
def endpointNo : Transport → Option Nat
  | .mailbox _ => none
  | .pcie pf _ => some pf.val
  | .i3c _ => some 4
/-- An MCTP request that the Fold answers; the body gives the numbers of the answer. Messages are numbered 0x100 + command for MCTP
control, 0x1000 * (1 + type) + command for PLDM. -/
def State.mctpServe (s : State) (via : Transport) (no : Nat) (inRecovery : Bool) (body : Nat → State → Nat × List Nat × State) : State :=
  match endpointNo via with
  | none => s
  | some e =>
    if !s.carried via || !s.mgtServes inRecovery false then s
    else
      let (st, fs, s) := body e s
      s.emit (.answer (transportNo via) no st fs)

/-- SET_ENDPOINT_ID: 0 and 0xFF name no endpoint. -/
def execSetEndpointId (via : Transport) (eid : BitVec 8) (s : State) : Res :=
  .next (s.mctpServe via 0x101 false fun e s =>
    if eid = 0 ∨ eid = 0xFF then (2, [], s) else (0, [eid.toNat], s.modFold fun F => { F with eids := tput F.eids e eid.toNat }))
def execGetEndpointId (via : Transport) (s : State) : Res := .next (s.mctpServe via 0x102 false fun e s => (0, [tget s.fold.eids e], s))
/-- GET_MCTP_VERSION_SUPPORT: which versions, the spec does not state; the number of the edition it names is answered. -/
def execGetMctpVersionSupport (via : Transport) (typ : BitVec 8) (s : State) : Res :=
  .next (s.mctpServe via 0x104 false fun _ s =>
    if ([0, 1, 5, 6, 0x7E] : List Nat).contains typ.toNat then (let (v, s) := s.takeFree; (0, [v], s)) else (0x80, [], s))
/-- GET_MESSAGE_TYPE_SUPPORT: MCTP control is implied; PLDM, SPDM, secured messages, vendor-defined PCI messages. -/
def execGetMessageTypeSupport (via : Transport) (s : State) : Res := .next (s.mctpServe via 0x105 false fun _ s => (0, [1, 5, 6, 0x7E], s))
/-- GET_VENDOR_DEFINED_MESSAGE_SUPPORT: one set, Fufin's, under a PCI vendor ID that the spec does not give. -/
def execGetVendorDefinedMessageSupport (via : Transport) (selector : BitVec 8) (s : State) : Res :=
  .next (s.mctpServe via 0x106 false fun _ s => if selector = 0 then (let (v, s) := s.takeFree; (0, [0xFF, 0, v % 2 ^ 16, 1], s)) else (2, [], s))
/-- ENTDAA: the bus controller assigns a dynamic address. -/
def execEntdaa (addr : BitVec 7) (s : State) : Res := .next (if s.fold.i3cAddr.isNone then s.modFold fun F => { F with i3cAddr := some addr.toNat } else s)
/-- SETDASA: a dynamic address for the target at the static address 0x3A. -/
def execSetdasa (static addr : BitVec 7) (s : State) : Res := .next (if static = 0x3A then s.modFold fun F => { F with i3cAddr := some addr.toNat } else s)

/-! ### Platform monitoring (R636, R637) -/

/-- GET_PDR_REPOSITORY_INFO: one record for each sensor. -/
def execGetPdrRepositoryInfo (via : Transport) (s : State) : Res := .next (s.mctpServe via 0x3050 true fun _ s => (0, [sensorIds.length], s))
/-- GET_PDR: the record of the sensor with that number in ascending order: sensor ID and thresholds. -/
def execGetPdr (via : Transport) (handle : BitVec 32) (s : State) : Res :=
  .next (s.mctpServe via 0x3051 true fun _ s =>
    match sensorIds[handle.toNat]? with
    | some id => let t := thresholds id; (0, [id] ++ t.1.map (·.getD 0) ++ [b01 t.2], s)
    | none => (0x82, [], s))
/-- GET_SENSOR_READING: the reading, or that it is unavailable. -/
def execGetSensorReading (via : Transport) (id : BitVec 16) (s : State) : Res :=
  .next (s.mctpServe via 0x3011 true fun _ s =>
    match s.sensor id.toNat with
    | none => (0x80, [], s)
    | some none => (0, [0], s)
    | some (some v) => (0, [1, v], s))
/-- GET_SENSOR_THRESHOLDS: warning, critical and fatal, each with whether there is one. -/
def execGetSensorThresholds (via : Transport) (id : BitVec 16) (s : State) : Res :=
  .next (s.mctpServe via 0x3012 true fun _ s =>
    if (s.sensor id.toNat).isNone then (0x80, [], s)
    else (0, (thresholds id.toNat).1.flatMap fun t => match t with | some v => [1, v] | none => [0, 0], s))
/-- SET_EVENT_RECEIVER. -/
def execSetEventReceiver (via : Transport) (eid : BitVec 8) (s : State) : Res :=
  .next (s.mctpServe via 0x3004 true fun _ s => (0, [], s.modFold fun F => { F with receiver := some (transportNo via, eid.toNat) }))
/-- THRESHOLD_CROSSING: a sensor is beyond a threshold of its PDR (0 warning, 1 critical, 2 fatal): a PlatformEventMessage to the receiver,
once per sensor per second. -/
def execThresholdCrossing (id : BitVec 16) (level : Fin 3) (s : State) : Res :=
  let i := id.toNat
  let t := thresholds i
  match s.sensor i, t.1.getD level none, s.fold.receiver with
  | some (some v), some limit, some (tr, eid) =>
    let crossed := if t.2 then decide (v ≤ limit) else decide (v ≥ limit)
    let recent := match tget s.fold.crossed i with | some at_ => decide (s.time < at_ + 1000000000) | none => false
    .next (if !crossed || recent || !s.foldUp then s
      else (s.modFold fun F => { F with crossed := tput F.crossed i (some s.time) }).emit (.answer tr 0x300A eid [i, level.val, v]))
  | _, _, _ => .next s

/-! ### Firmware update (R632, R644) -/

/-- An update message: inside a secured session on MCTP only; refused elsewhere. -/
def State.updServe (s : State) (via : Transport) (no : Nat) (body : Nat → State → Nat × List Nat × State) : State :=
  s.mctpServe via no false fun e s =>
    if !secureVia via then (0x13, [], s.unitEvent 0xA00E (transportNo via) [no]) else body e s
def State.modUpd (s : State) (f : Update → Update) : State := s.modFold fun F => { F with upd := f F.upd }
/-- A step of the session in a state where it may be made; elsewhere it is answered that the state forbids it. -/
def State.updStep (s : State) (via : Transport) (no : Nat) (st : List UpdState) (body : State → Nat × List Nat × State) : State :=
  s.updServe via no fun e s => if st.contains s.fold.upd.state && s.fold.upd.by_ == e then body s else (0x84, [], s)
/-- The session ends, and its job with it if that still runs. -/
def State.endUpdate (s : State) : State :=
  let j := s.fold.upd.job
  let s := s.modUpd fun _ => {}
  if s.isMaint j && !(s.job j).terminal then s.maintEnd j .cancelled 0 else s

def execQueryDeviceIdentifiers (via : Transport) (s : State) : Res :=
  .next (s.updServe via 0x6001 fun _ s => (0, [Config.serial.toNat], s))
/-- GET_FIRMWARE_PARAMETERS: versions of the components of the active bank and of the other. -/
def execGetFirmwareParameters (via : Transport) (s : State) : Res :=
  .next (s.updServe via 0x6002 fun _ s =>
    let vs := fun b => (s.fold.bank b).fw.comps.toList.map fun (c : FwComp) => c.version.toNat
    (0, vs s.fold.activeBank ++ vs (1 - s.fold.activeBank), s))
/-- REQUEST_UPDATE: ALREADY_IN_UPDATE_MODE beside another session, RETRY_REQUEST_UPDATE while its job would be DEFERRED; else the session
opens with an FW_STAGE job. -/
def execRequestUpdate (via : Transport) (bytes : BitVec 32) (s : State) : Res :=
  .next (s.updServe via 0x6010 fun e s =>
    let n := bytes.toNat
    if s.fold.upd.state ≠ .idle then (0x81, [], s)
    else if firstFail (s.maintChecks 6 0 0 0 n) ≠ 0 then (0x8A, [], s)
    else if s.maintWaits (maintJob 6 0 0 0 n) then (0x8E, [], s)
    else
      let r := s.maintAdmit 6 0 0 0 n []
      (0, [], r.2.2.modUpd fun _ => { state := .learn, job := r.2.1, by_ := e }))
/-- PASS_COMPONENT_TABLE: one component of the set; the last leaves the session ready to transfer. -/
def execPassComponentTable (via : Transport) (comp : Fin 6) (last : Bool) (s : State) : Res :=
  .next (s.updStep via 0x6013 [.learn] fun s =>
    if comp.val = 0 then (0x02, [], s)
    else (0, [0], s.modUpd fun U => { U with passed := setIns U.passed comp.val, state := if last then .ready else .learn }))
/-- UPDATE_COMPONENT: the transfer of a component that was passed. -/
def execUpdateComponent (via : Transport) (comp : Fin 6) (bytes : BitVec 32) (s : State) : Res :=
  .next (s.updStep via 0x6014 [.ready] fun s =>
    if !s.fold.upd.passed.contains comp.val then (0x02, [], s)
    else (0, [0], s.modUpd fun U => { U with state := .download, comp := comp.val, size := bytes.toNat, got := 0 }))
/-- REQUEST_FIRMWARE_DATA: what the Fold asked for arrives, at most 4,096 bytes and no more than the component has. A CANCEL of the job
takes effect here. -/
def execRequestFirmwareData (n : BitVec 16) (s : State) : Res :=
  let U := s.fold.upd
  if U.state ≠ .download ∨ !s.foldUp then .next s
  else if (s.job U.job).state = .cancelling then .next s.endUpdate
  else if n.toNat > 4096 ∨ U.got + n.toNat > U.size then .next s
  else .next (s.modUpd fun U => { U with got := U.got + n.toNat })
/-- TRANSFER_COMPLETE: every byte has come. -/
def execTransferComplete (s : State) : Res :=
  let U := s.fold.upd
  .next (if U.state = .download ∧ U.got = U.size then s.modUpd fun U => { U with state := .verify } else s)
/-- VERIFY_COMPLETE: the component matches, or is to be sent again. -/
def execVerifyComplete (ok : Bool) (s : State) : Res :=
  .next (if s.fold.upd.state = .verify then s.modUpd fun U => { U with state := if ok then .apply else .ready } else s)
/-- APPLY_COMPLETE: the component is in the bank; with the last, the whole set `f` is checked, and the staging job ends. -/
def execApplyComplete (f : FwSet) (s : State) : Res :=
  let U := s.fold.upd
  if U.state ≠ .apply then .next s
  else
    let s := s.modUpd fun U => { U with state := .ready, applied := setIns U.applied U.comp }
    if (s.fold.upd.applied.length < s.fold.upd.passed.length) then .next s
    else
      let (ok, s) := s.stageFw f
      if ok then .next ((s.maintEnd U.job .done 0).modUpd fun U => { U with state := .activate })
      else
        let (v, s) := s.takeFree
        .next ((s.maintEnd U.job .failed (v % 256)).modUpd fun _ => {})
/-- ACTIVATE_FIRMWARE: FUFIN's takeover is asked for, the other components are pending; the session is over. The estimated time is open. -/
def execActivateFirmware (via : Transport) (selfContained : Bool) (s : State) : Res :=
  .next (s.updStep via 0x601A [.activate] fun s =>
    if selfContained then (0x86, [], s)
    else
      let b := if s.bankUsed 0 then 1 else 0
      let (v, s) := s.takeFree
      let s := s.modFold fun F => { F with pendingFw := [2, 3, 4], pendingBank := b, upd := {} }
      let s := (s.ownAsk { activity := 7, tkind := 5, target := 0, w2 := 1 + 16 * b }).2
      (0, [v % 2 ^ 16], s.autoActivate))
def updCode : UpdState → Nat
  | .idle => 0 | .learn => 1 | .ready => 2 | .download => 3 | .verify => 4 | .apply => 5 | .activate => 6
/-- PLDM_GET_STATUS: the session's state and how far it is. -/
def execPldmGetStatus (via : Transport) (s : State) : Res :=
  .next (s.updServe via 0x601B fun _ s => (0, [updCode s.fold.upd.state, s.fold.upd.comp, s.fold.upd.got], s))
def execCancelUpdateComponent (via : Transport) (s : State) : Res :=
  .next (s.updStep via 0x601C [.download, .verify, .apply] fun s => (0, [], s.modUpd fun U => { U with state := .ready, got := 0 }))
def execCancelUpdate (via : Transport) (s : State) : Res :=
  .next (s.updStep via 0x601D [.learn, .ready, .download, .verify, .apply, .activate] fun s => (0, [], s.endUpdate))

end Sys2Proof.Machine
end

