-- ==== Sys2Proof/Machine/Identity.lean ====
section
/-! DEFINITION. SPDM, secured sessions, measurements, PCIe IDE, debug access (R660-R665, R670-R681). -/
namespace Sys2Proof.Machine

/-! ### Places and answers (R598, R662, R663). Response and error codes are those of DSP0274 (log 61) -/

/-- Does a place answer: a function's DOE from the end of the third phase of a start while its port is up, MCTP from then on, a Lamug
port once it authenticates? -/
def State.spdmHere (s : State) (a : SpdmAt) : Bool :=
  s.foldUp && (s.start.phase == 0 || decide (s.start.phase ≥ 4)) &&
  match a with
  | .doe fn => (s.port (pfOf fn)).up && (decide (fn.val < 4) || (s.func fn).vfOn)
  | .pcie pf => (s.port pf).up
  | .i3c => true
  | .lamp n => (s.lamp n).carries || (s.lamp n).state == .authenticating
def State.responder (s : State) (a : SpdmAt) : Responder := tget s.ident.responders (placeNo a)
def State.modResponder (s : State) (a : SpdmAt) (f : Responder → Responder) : State :=
  s.modIdent fun I => { I with responders := tmod I.responders (placeNo a) f }
/-- A message leaves a place. -/
def State.spdmSay (s : State) (a : SpdmAt) (code : Nat) (body : List Nat) : State := s.emit (.answer (16 + placeNo a) code 0 body)
/-- An ERROR: 0x01 InvalidRequest, 0x04 UnexpectedRequest, 0x06 DecryptError, 0x0B InvalidSession, 0x0E SessionLimitExceeded,
0x0F LargeResponse, 0x41 VersionMismatch. -/
def State.spdmError (s : State) (a : SpdmAt) (e : Nat) : State := s.spdmSay a 0x7F [e]
/-- A request at a place that answers, in the order that DSP0274 gives a connection: 0 any, 1 after GET_VERSION, 2 after
GET_CAPABILITIES, 3 after NEGOTIATE_ALGORITHMS. -/
def State.spdmServe (s : State) (a : SpdmAt) (level : Nat) (body : State → State) : State :=
  let R := s.responder a
  if !s.spdmHere a then s
  else if (decide (level ≥ 1) && !R.asked) || (decide (level ≥ 2) && !R.caps) || (decide (level ≥ 3) && !R.algs) then s.spdmError a 0x04
  else body s

/-- SPDM_GET_VERSION begins the connection anew: versions 1.2 and 1.3. -/
def execSpdmGetVersion (a : SpdmAt) (s : State) : Res :=
  .next (s.spdmServe a 0 fun s =>
    (s.modResponder a fun R => { asked := true, chunkId := R.chunkId }).spdmSay a 0x04 [0x12, 0x13])
/-- The capabilities of R662 as names of bits: CERT, CHAL, MEAS with signature, MEAS_FRESH, ENCRYPT, MAC, MUT_AUTH, KEY_EX, HBEAT,
KEY_UPD, ENCAP, CHUNK, at the places DSP0274 gives them. -/
def spdmCaps : Nat := [1, 2, 4, 5, 6, 7, 8, 9, 13, 14, 12, 17].foldl (fun n i => n + 2 ^ i) 0
/-- GET_CAPABILITIES, in the version that the requester takes; the data transfer size is 4,096. -/
def execGetCapabilities (a : SpdmAt) (version : BitVec 8) (s : State) : Res :=
  .next (s.spdmServe a 1 fun s =>
    if version = 0x12 ∨ version = 0x13 then
      (s.modResponder a fun R => { R with version := some version.toNat, caps := true }).spdmSay a 0x61 [version.toNat, spdmCaps, 4096]
    else s.spdmError a 0x41)
/-- NEGOTIATE_ALGORITHMS: does the requester offer ECDSA P-384, SHA-384, secp384r1 and AES-256-GCM? -/
def execNegotiateAlgorithms (a : SpdmAt) (offers : Bool) (s : State) : Res :=
  .next (s.spdmServe a 2 fun s =>
    if offers then (s.modResponder a fun R => { R with algs := true }).spdmSay a 0x63 [] else s.spdmError a 0x01)

/-- Bank and entry of the FUFIN that a pair runs. -/
def State.fufinOf (s : State) (b : Bool) : FwComp := (s.fold.bank (s.fold.pair b).bank).comp 1
def State.activeFufin (s : State) : FwComp := s.fufinOf (s.fold.activePair.getD false)
/-- The chain of slot 0: the alias certificate names the key, the FWIDs and the security version (R661). -/
def State.chain (s : State) : List Byte :=
  let f := s.activeFufin
  let k := (aliasKey f.digest.toNat f.svn.val).2.getD (0, 0)
  Config.certChain s.ident.aliasGen [k.1, k.2, ofBytesBE (sha384 Config.bootRom), f.digest.toNat, f.svn.val]
/-- GET_DIGESTS: slot 0's digest, or no slot where attestation is unavailable (R661). -/
def execGetDigests (a : SpdmAt) (s : State) : Res :=
  .next (s.spdmServe a 3 fun s => s.spdmSay a 0x01 (if s.ident.attest then [1, ofBytesBE (sha384 s.chain)] else [0]))
/-- A response of more than 4,096 bytes is kept for CHUNK_GET. -/
def State.spdmBytes (s : State) (a : SpdmAt) (code : Nat) (bytes : List Nat) : State :=
  if bytes.length ≤ 4096 then s.spdmSay a code bytes
  else
    let id := ((s.responder a).chunkId + 1) % 256
    (s.modResponder a fun R => { R with chunkId := id, chunkOut := bytes, chunkNext := 0 }).spdmSay a 0x7F [0x0F, id]
/-- GET_CERTIFICATE: a portion of slot 0's chain. -/
def execGetCertificate (a : SpdmAt) (slot : BitVec 8) (offset length : BitVec 16) (s : State) : Res :=
  .next (s.spdmServe a 3 fun s =>
    let c := s.chain
    if slot ≠ 0 ∨ s.ident.attest = false ∨ offset.toNat > c.length then s.spdmError a 0x01
    else s.spdmBytes a 0x02 (((c.drop offset.toNat).take length.toNat).map (·.toNat)))
/-- A signature with the alias key in use. -/
def State.aliasSign (s : State) (m : List Nat) : Nat := Config.sign s.ident.aliasGen m
/-- CHALLENGE of slot 0: signed with the alias key over the nonce. -/
def execChallenge (a : SpdmAt) (slot : BitVec 8) (nonce : BitVec 256) (s : State) : Res :=
  .next (s.spdmServe a 3 fun s =>
    if slot ≠ 0 ∨ s.ident.attest = false then s.spdmError a 0x01
    else
      let d := ofBytesBE (sha384 s.chain)
      s.spdmSay a 0x03 [d, s.aliasSign [nonce.toNat, d]])

/-! ### Measurements (R664) -/

/-- A map with a bit for each instance: the bank it runs. -/
def State.bankMap (s : State) (c : Nat) : Nat := (s.instances c).foldr (fun b n => b % 2 + 2 * n) 0
/-- The digest of a component in both banks, and its map. -/
def State.measComp (s : State) (c bytes : Nat) : Nat :=
  ofBytesBE (sha384 (toBytesBE (s.fold.bankA.comp c).digest.toNat 48 ++ toBytesBE (s.fold.bankB.comp c).digest.toNat 48 ++ toBytes (s.bankMap c) bytes))
/-- A measurement block as it is now; none beyond the ninth. -/
def State.measure (s : State) : Nat → Option Nat
  | 1 => some (ofBytesBE (sha384 Config.bootRom))
  | 2 => some s.activeFufin.digest.toNat
  | 3 => some (match s.fold.activePair with
    | some b => if (s.fold.pair (!b)).st = .standby then (s.fufinOf (!b)).digest.toNat else 0
    | none => 0)
  | 4 => some (s.measComp 2 18)
  | 5 => some (s.measComp 3 3)
  | 6 => some (s.measComp 4 3)
  | 7 => some (s.measComp 5 1)
  | 8 => some (ofBytesBE (sha384 (Config.packLicences
      (s.ident.licences ++ [match s.ident.debugLic with | some d => d.1 | none => 0, variantCode s.org.variant] ++ s.ident.floors))))
  | 9 => some (atBit (b01 s.ident.debugLic.isSome) 0 1 + atBit s.ident.consents.length 8 8 +
      atBit (s.ident.ide.filter fun e => e.2.secure).length 16 8 +
      (upto 0 18).foldl (fun n k => n + atBit (b01 (s.lamp k).encrypt) (24 + k) 1) 0)
  | _ => none
/-- GET_MEASUREMENTS: 0 asks how many there are, 0xFF for all; signed over the nonce where a signature is asked for. -/
def execGetMeasurements (a : SpdmAt) (index : BitVec 8) (sig : Bool) (nonce : BitVec 256) (s : State) : Res :=
  .next (s.spdmServe a 3 fun s =>
    let blocks := if index = 0xFF then some ((upto 1 9).filterMap s.measure) else if index = 0 then some [] else (s.measure index.toNat).map fun b => [b]
    match blocks with
    | none => s.spdmError a 0x01
    | some bs =>
      if sig && !s.ident.attest then s.spdmError a 0x01
      else s.spdmSay a 0x60 ((if index = 0 then [9] else [bs.length]) ++ bs ++ (if sig then [s.aliasSign (nonce.toNat :: bs)] else [])))

/-! ### Sessions (R663, R665) -/

/-- Secured sessions that a place may still open: two for a function, four over the MCTP endpoints together, one for a Lamug port. -/
def State.sessionRoom (s : State) (place : Nat) : Bool :=
  let n := fun (p : Session → Bool) => (s.ident.sessions.filter p).length
  if place < 256 then decide (n (fun x => x.place == place) < 2)
  else if place < 261 then decide (n (fun x => decide (256 ≤ x.place) && decide (x.place < 261)) < 4)
  else decide (n (fun x => x.place == place) < 1)
/-- KEY_EXCHANGE: a session's handshake begins; with a requester that can be authenticated (`mutual`), its certificate is asked for. -/
def execKeyExchange (a : SpdmAt) (slot : BitVec 8) (mutual_ : Bool) (nonce : BitVec 256) (s : State) : Res :=
  .next (s.spdmServe a 3 fun s =>
    if slot ≠ 0 ∨ s.ident.attest = false then s.spdmError a 0x01
    else if !s.sessionRoom (placeNo a) then s.spdmError a 0x0E
    else
      let id := s.ident.nextSession
      let s := s.modIdent fun I => { I with sessions := I.sessions ++ [{ id := id, place := placeNo a }], nextSession := id + 1 }
      let s := if mutual_ then s.modResponder a fun R => { R with encap := 1, encapSession := id } else s
      s.spdmSay a 0x64 [id, b01 mutual_, Config.exchange id, s.aliasSign [nonce.toNat, id, Config.exchange id]])
/-- A session ends on an error: event 0xB001. -/
def State.sessionError (s : State) (a : SpdmAt) (id : Nat) : State :=
  (s.endSessions fun x => x.place == placeNo a && x.id == id).unitEvent 0xB001 (placeNo a) [placeNo a, id]
/-- FINISH: the handshake is over, if what it carries verifies; the requester was authenticated where its certificate was taken. -/
def execFinish (a : SpdmAt) (session : BitVec 32) (ok : Bool) (s : State) : Res :=
  .next (s.spdmServe a 3 fun s =>
    let id := session.toNat
    let R := s.responder a
    match s.ident.sessions.find? fun x => x.place == placeNo a && x.id == id && !x.up with
    | none => s.spdmError a 0x0B
    | some x =>
      if R.encap ≠ 0 ∧ R.encapSession = id then s.spdmError a 0x04
      else if !ok then (s.sessionError a id).spdmError a 0x06
      else (s.modSession (placeNo a) id fun y => { y with up := true, mutual_ := x.key != 0 }).spdmSay a 0x65 [id])
/-- GET_ENCAPSULATED_REQUEST: the device asks the requester for its digests, then for its certificate. -/
def execGetEncapsulatedRequest (a : SpdmAt) (s : State) : Res :=
  .next (s.spdmServe a 3 fun s =>
    match (s.responder a).encap with
    | 1 => s.spdmSay a 0x6A [0x81]
    | 2 => s.spdmSay a 0x6A [0x82]
    | _ => s.spdmError a 0x04)
/-- DELIVER_ENCAPSULATED_RESPONSE: digests, then a certificate chain, whose verdict and leaf-key hash it has; a chain that does not
verify is a failed authentication. -/
def execDeliverEncapsulatedResponse (a : SpdmAt) (ok : Bool) (leaf : BitVec 384) (s : State) : Res :=
  .next (s.spdmServe a 3 fun s =>
    let R := s.responder a
    match R.encap with
    | 1 => (s.modResponder a fun R => { R with encap := 2 }).spdmSay a 0x6B [0x82]
    | 2 =>
      if ok then
        let s := s.modSession (placeNo a) R.encapSession fun x => { x with key := leaf.toNat }
        (s.modResponder a fun R => { R with encap := 0, encapSession := 0 }).spdmSay a 0x6B [0]
      else
        let s := s.modResponder a fun R => { R with encap := 0, encapSession := 0 }
        (s.sessionError a R.encapSession).spdmError a 0x01
    | _ => s.spdmError a 0x04)
/-- A request inside a live session. -/
def State.inSession (s : State) (a : SpdmAt) (session : BitVec 32) (body : Session → State → State) : State :=
  if !s.spdmHere a then s
  else match s.session (placeNo a) session.toNat with
    | none => s.spdmError a 0x0B
    | some x => body x s
def execEndSession (a : SpdmAt) (session : BitVec 32) (s : State) : Res :=
  .next (s.inSession a session fun x s => (s.spdmSay a 0x6C [x.id]).endSessions fun y => y.place == placeNo a && y.id == x.id)
def execHeartbeat (a : SpdmAt) (session : BitVec 32) (s : State) : Res := .next (s.inSession a session fun x s => s.spdmSay a 0x68 [x.id])
/-- HEARTBEAT_TIMEOUT: the session ends. -/
def execHeartbeatTimeout (a : SpdmAt) (session : BitVec 32) (s : State) : Res :=
  .next (s.endSessions fun y => y.place == placeNo a && y.id == session.toNat)
/-- SPDM_KEY_UPDATE on a DOE or MCTP session: 1 UpdateKey, 2 UpdateAllKeys, 3 VerifyNewKey. A link's keys have their own row. -/
def execSpdmKeyUpdate (a : SpdmAt) (session : BitVec 32) (op : BitVec 8) (s : State) : Res :=
  .next (match a with
    | .lamp _ => s
    | _ => s.inSession a session fun x s =>
      if op = 1 ∨ op = 2 then (s.modSession (placeNo a) x.id fun y => { y with updates := y.updates + 1 }).spdmSay a 0x69 [op.toNat]
      else if op = 3 then s.spdmSay a 0x69 [3]
      else s.spdmError a 0x01)
/-- CHUNK_SEND: parts of a large request arrive in order; with the last, the request is whole, and is served as a message of its
own. -/
def execChunkSend (a : SpdmAt) (handle : BitVec 8) (seq : BitVec 16) (last : Bool) (part : List (BitVec 8)) (s : State) : Res :=
  .next (s.spdmServe a 2 fun s =>
    let R := s.responder a
    let here := if seq = 0 then true else R.chunkId == handle.toNat && R.chunkNext == seq.toNat
    if !here || decide (part.length > 4096) then s.spdmError a 0x01
    else
      let got := (if seq = 0 then [] else R.chunkIn) ++ part.map (·.toNat)
      (s.modResponder a fun R => { R with
        chunkId := handle.toNat, chunkIn := if last then [] else got, chunkNext := if last then 0 else seq.toNat + 1, chunkOut := [] }).spdmSay a 0x05 [handle.toNat, seq.toNat])
/-- CHUNK_GET: the next part of a large response. -/
def execChunkGet (a : SpdmAt) (handle : BitVec 8) (seq : BitVec 16) (s : State) : Res :=
  .next (s.spdmServe a 2 fun s =>
    let R := s.responder a
    if R.chunkOut.isEmpty || R.chunkId != handle.toNat || R.chunkNext != seq.toNat then s.spdmError a 0x01
    else
      let rest := R.chunkOut.drop 4096
      (s.modResponder a fun R => { R with chunkOut := rest, chunkNext := if rest.isEmpty then 0 else R.chunkNext + 1 }).spdmSay a 0x06
        ([handle.toNat, seq.toNat, b01 rest.isEmpty] ++ R.chunkOut.take 4096))

/-! ### PCIe IDE (R670, R671) -/

/-- An IDE_KM request: inside a secured session on the DOE of the port's physical function; refused on a virtual one. -/
def State.ideServe (s : State) (fn : FnIx) (session : BitVec 32) (body : Nat → State → State) : State :=
  s.inSession (.doe fn) session fun _ s => if fn.val < 4 then body fn.val s else s.spdmError (.doe fn) 0x01
def State.ide (s : State) (p k : Nat) : Ide := tget s.ident.ide (8 * p + k)
def State.modIde (s : State) (p k : Nat) (f : Ide → Ide) : State := s.modIdent fun I => { I with ide := tmod I.ide (8 * p + k) f }
/-- A stream is Secure while a key set runs in both directions. -/
def Ide.settle (x : Ide) : Ide :=
  let on := (x.running.contains 0 && x.running.contains 1) || (x.running.contains 2 && x.running.contains 3)
  { x with secure := on, insecure := x.insecure && !on }
/-- IDE_KM_QUERY: one link stream and four selective streams, of two address blocks each. -/
def execIdeKmQuery (fn : FnIx) (session : BitVec 32) (s : State) : Res :=
  .next (s.ideServe fn session fun p s => s.spdmSay (.doe fn) 0x7E [1, p, 1, 4, 2])
/-- KEY_PROG: a key of stream 0 (link) or 1-4, key set 0 or 1, receive (0) or transmit (1). -/
def execKeyProg (fn : FnIx) (session : BitVec 32) (stream : BitVec 8) (set_ : Bool) (dir : Bool) (s : State) : Res :=
  .next (s.ideServe fn session fun p s =>
    let k := 2 * b01 set_ + b01 dir
    if stream.toNat > 4 then s.spdmSay (.doe fn) 0x7E [3, stream.toNat, 3]
    else if (s.ide p stream.toNat).running.contains k then s.spdmSay (.doe fn) 0x7E [3, stream.toNat, 4]
    else (s.modIde p stream.toNat fun x => { x with keys := setIns x.keys k }).spdmSay (.doe fn) 0x7E [3, stream.toNat, 0])
/-- K_SET_GO: a key set that has been programmed runs in a direction. -/
def execKSetGo (fn : FnIx) (session : BitVec 32) (stream : BitVec 8) (set_ : Bool) (dir : Bool) (s : State) : Res :=
  .next (s.ideServe fn session fun p s =>
    let k := 2 * b01 set_ + b01 dir
    if stream.toNat > 4 ∨ (s.ide p stream.toNat).keys.contains k = false then s.spdmError (.doe fn) 0x01
    else (s.modIde p stream.toNat fun x => ({ x with running := setIns x.running k } : Ide).settle).spdmSay (.doe fn) 0x7E [5, stream.toNat])
/-- K_SET_STOP: a key set stops, and its key is gone. -/
def execKSetStop (fn : FnIx) (session : BitVec 32) (stream : BitVec 8) (set_ : Bool) (dir : Bool) (s : State) : Res :=
  .next (s.ideServe fn session fun p s =>
    let k := 2 * b01 set_ + b01 dir
    if stream.toNat > 4 then s.spdmError (.doe fn) 0x01
    else (s.modIde p stream.toNat fun x => ({ x with running := setDel x.running k, keys := setDel x.keys k } : Ide).settle).spdmSay (.doe fn) 0x7E [5, stream.toNat])
/-- IDE_INTEGRITY_FAILURE: the stream is Insecure until it is keyed again; an Insecure link stream takes the link down. -/
def execIdeIntegrityFailure (p : HostIx) (stream : Fin 5) (s : State) : Res :=
  if (s.ide p stream).secure = false then .next s
  else
    let s := (s.modIde p stream fun _ => { insecure := true }).unitEvent 0xB006 p [p.val, stream.val]
    if stream.val = 0 then execHostLinkDown p s else .next s

/-! ### Debug access (R678-R681) -/

/-- A vendor-defined answer to a debug message: opcode, status, what it carries. -/
def State.debugSay (s : State) (a : SpdmAt) (op status : Nat) (body : List Nat) : State := s.spdmSay a 0x7E ([op, status] ++ body)
/-- DEBUG_CONSENT. A later consent of the context replaces the one that stands. -/
def execDebugConsent (fn : FnIx) (session : BitVec 32) (ctx : CtxIx) (key : BitVec 384) (scope : BitVec 8) (minutes : BitVec 16) (s : State) : Res :=
  .next (s.inSession (.doe fn) session fun _ s =>
    let held := match s.ident.debugLic with | some d => d.1 == key.toNat | none => false
    if !held || !s.ctxMine fn ctx then s.debugSay (.doe fn) 0x0101 0x13 []
    else if scope.toNat ≥ 4 ∨ minutes = 0 ∨ minutes.toNat > 1440 then s.debugSay (.doe fn) 0x0101 0x11 []
    else
      let s := s.endConsents fun x => x.ctx == ctx.val
      let s := s.modIdent fun I => { I with
        consents := I.consents ++ [{ ctx := ctx, key := key.toNat, scope := scope.toNat, until_ := s.time + minutes.toNat * 60000000000 }] }
      (s.raise { code := 0xB008, ctx := some ctx.val, fn := fn, detail := [1] }).debugSay (.doe fn) 0x0101 0 [])
/-- DEBUG_WITHDRAW: a context of the function's withdraws its consent. -/
def execDebugWithdraw (fn : FnIx) (session : BitVec 32) (ctx : CtxIx) (s : State) : Res :=
  .next (s.inSession (.doe fn) session fun _ s =>
    (if s.ctxMine fn ctx then s.endConsents fun x => x.ctx == ctx.val else s).debugSay (.doe fn) 0x0102 0 [])
/-- CONSENT_EXPIRY: a consent's minutes have elapsed. -/
def execConsentExpiry (ctx : CtxIx) (s : State) : Res := .next (s.endConsents fun x => x.ctx == ctx.val)
/-- DEBUG_LICENCE_EXPIRY: the licence's hours are over. -/
def execDebugLicenceExpiry (s : State) : Res := .next (if s.ident.debugLic.isSome then s.endDebug else s)

/-- Words of a memory and the bitmap of their marks, each mark covering `unit` bytes. -/
def markMap (marked : Nat → Bool) (off n unit : Nat) : Nat :=
  (upto 0 (n / unit)).foldr (fun i a => b01 (marked (off + unit * i)) + 2 * a) 0
/-- What a debug read finds in a tile that stands on the die. What lies where in accumulators, slots and registers is open: those bytes
are free. -/
def State.debugTile (s : State) (t source core off n : Nat) : List Nat × State :=
  match source with
  | 0 => ([markMap (fun o => s.marked (spdKey t o)) off n 32] ++ (s.bytes (spdKey t off) n).map (·.toNat), s)
  | 1 => ([markMap (fun o => s.marked (privKey t core o)) off n 8] ++ (s.bytes (privKey t core off) n).map (·.toNat), s)
  | _ => (upto 0 n).foldl (fun (acc : List Nat × State) _ => let (v, s) := acc.2.takeFree; (acc.1 ++ [v % 256], s)) ([0], s)
/-- The same of a tile in a save area. -/
def State.debugSaved (s : State) (b : SavedTile) (source core off n : Nat) : List Nat × State :=
  let at_ := fun (l : List (Nat × Byte)) (k : Nat) => match l.find? fun e => e.1 == k with | some e => e.2.toNat | none => 0
  match source with
  | 0 => ([markMap (fun o => b.spdMarks.contains o) off n 32] ++ (upto off n).map (at_ b.spd), s)
  | 1 => ([markMap (fun o => b.privMarks.contains (2 ^ 17 * core + o)) off n 8] ++ (upto off n).map fun o => at_ b.priv (2 ^ 17 * core + o), s)
  | _ => s.debugTile 0 2 0 off n
/-- Is the source one, the core one, and the range inside the source and of whole words? -/
def debugRange (source core off n : Nat) : Bool :=
  decide (source ≤ 4) && decide (core ≤ 1) && decide (32 ≤ n) && decide (n ≤ 4032) && n % 32 == 0 && off % 32 == 0 &&
  decide (off + n ≤ (match source with | 0 => 2 ^ 23 | 1 => 2 ^ 17 | 2 => 2 ^ 19 | 3 => 160 * 1024 | _ => 4096))
/-- DEBUG_READ. -/
def execDebugRead (a : SpdmAt) (session : BitVec 32) (paddock lid : BitVec 16) (source core : BitVec 8) (offset : BitVec 32) (n : BitVec 16)
    (s : State) : Res :=
  .next (s.inSession a session fun x s =>
    let place := match a with | .doe fn => fn == 0 | .pcie _ | .i3c => true | .lamp _ => false
    let key := match s.ident.debugLic with | some d => d.1 | none => 0
    let say := fun (s : State) (st : Nat) (body : List Nat) => s.debugSay a 0x0110 st body
    let (p, l) := (paddock.toNat, lid.toNat)
    let P := s.paddock p
    let may := fun (bit_ : Nat) => s.ident.consents.any fun c => c.ctx == P.ctx && c.key == key && bit c.scope bit_
    if !place || !x.mutual_ || s.ident.debugLic.isNone || x.key != key then say s 0x13 []
    else if !debugRange source.toNat core.toNat offset.toNat n.toNat then say s 0x11 []
    else if !P.live then say s 0x15 []
    else if !may 0 && !may 1 then say s 0x13 []
    else if P.releasing || !(s.members p).contains l then say s 0x15 []
    else
      let done := fun (r : List Nat × State) =>
        say (r.2.raise { code := 0xB009, ctx := some P.ctx, fn := s.paddockFn p, paddock := p, unit := x.id % 2 ^ 16, lid := l, detail := [n.toNat, key] }) 0 r.1
      match P.resident with
      | some j =>
        if (s.job j).state = .cancelling then say s 0x15 []
        else if !P.frozen then say s 0x14 []
        else if !may 0 then say s 0x13 []
        else match s.tileOf l with
          | some t => done (s.debugTile t source.toNat core.toNat offset.toNat n.toNat)
          | none => say s 0x15 []
      | none =>
        match P.jobs.find? fun j => (s.job j).saved with
        | none => say s 0x15 []
        | some j =>
          if !may 1 then say s 0x13 []
          else match (s.job j).area.tiles.find? fun b => b.lid == l with
            | some b => done (s.debugSaved b source.toNat core.toNat offset.toNat n.toNat)
            | none => say s 0x15 [])

end Sys2Proof.Machine
end

