-- ==== Sys2Proof/Machine/Module.lean ====
section
/-! DEFINITION. The module as a whole: the fall and rise of the Fold supply, connectors, boundary scan (R553, R595, R692, R704, R713-R720). -/
namespace Sys2Proof.Machine

/-! ### The module reset (R553, R595, R692, R704) -/

/-- What a tile keeps: column bypasses, those declared since among them, and the scratchpad's spare words. -/
def Tile.bare (T : Tile) : Tile :=
  let A := T.arr
  { arr := { bypass := A.pendingBypass.foldl (fun tb k => tput tb (k / 65) (k % 65 + 1)) A.bypass, exhausted := A.exhausted }
    spd := { spares := T.spd.spares, spareOut := T.spd.spareOut } }
/-- What a region keeps: rails that are off for good. -/
def Region.bare (R : Region) : Region :=
  { railOffLatched := R.railOffLatched, pllFailed := R.pllFailed, runBank := R.runBank, transitLock := R.transitLock || !R.railOffLatched }
/-- What a stack keeps: repairs, made hard, retirements, saved training, and that its edge domain has failed. -/
def Stack.bare (K : Stack) : Stack :=
  { state := if K.edgeFailed then .out else .inReset, lost := K.edgeFailed, edgeFailed := K.edgeFailed
    retired := K.retired, hardRepairs := K.hardRepairs ++ K.softRepairs, trainingSaved := K.trainingSaved, runBank := K.runBank }
/-- What a Lamug port keeps: saved equalisation with its peer, and its firmware; one whose edge domain or tile is lost is out. -/
def Lamp.bare (L : Lamp) (out : Bool) : Lamp :=
  { saved := L.saved, hello := L.hello, runBank := L.runBank, offer := L.offer, offerPrev := L.offerPrev, state := if out then .outOfService else .down }
/-- What the Fold keeps in flash: banks, log, counters, MGT settings, failed pairs. The pair active at the last stop is active again,
or the other where that failed. -/
def Fold.bare (F : Fold) : Fold :=
  let a := match F.activePair with | some b => b | none => F.pair0.st == .failed
  let pair := fun (P : FoldPair) (me : Bool) => { P with st := if P.st = .failed then .failed else if me then .active else .standby, restart := false }
  { pair0 := pair F.pair0 (!a), pair1 := pair F.pair1 a, activeBank := F.activeBank, bankA := F.bankA, bankB := F.bankB
    seq := F.seq, blocks := F.blocks, blockNo := F.blockNo, ack := F.ack, gap := F.gap || !F.buffer.isEmpty, chain := F.chain
    replaced := F.replaced, autoRotate := F.autoRotate, autoActivate := F.autoActivate, starts := F.starts }
/-- What is left without the Fold supply: flash, fuses, and what stands outside. Everything else is as right after reset. -/
def State.bare (s : State) : State :=
  let r := State.reset
  let P := s.power
  let dead := fun (n : Nat) => P.masked.contains (288 + n)
  { s with
    mem := [], marks := [], net := { r.net with twinned := s.net.twinned }, mmu := r.mmu, errs := [], events := [], rates := []
    org := { s.org with lent := [], stranded := [], lost := [], moving := none, clearing := [], clearingTiles := [], toFill := [], retest := [],
                        geoGen := 0, geoChanged := [] }
    tiles := tmap Tile.bare s.tiles
    regions := tmap Region.bare s.regions
    hbms := (upto 0 20).map fun k => (k, (s.stack k).bare)
    host := { r.host with ports := (upto 0 4).foldl (fun tb p =>
      tput tb p { perst := (s.port p).perst, out := dead (20 + p), runBank := (s.port p).runBank }) [] }
    power := { r.power with
      feeds := P.feeds, convs := P.convs, fsense := P.fsense, brickFailed := P.brickFailed, moved := P.moved, masked := P.masked
      hostCap := P.hostCap, order := P.order, napUs := P.napUs, offMs := P.offMs, ceil := P.ceil, lowerings := P.lowerings }
    start := {
      first := s.start.first, fastCount := s.start.fastCount, stopRecord := s.start.stopRecord, nextCold := s.start.nextCold }
    pins := { r.pins with cabPres := s.pins.cabPres }
    fabric := { r.fabric with ports := (upto 0 18).foldl (fun tb n => tput tb n ((s.lamp n).bare
      (dead (24 + n) || s.org.dead.contains (regionOf (edgeTile (lampNode n)))))) [] }
    fold := s.fold.bare
    ident := { s.ident with attest := true, debugLic := none, sessions := [], responders := [], consents := [], ide := [] } }
/-- BUS_UNDERVOLTAGE: with no converter left the 54 V bus falls: event 0x800C is the log's last record, and the module is lost. After an
orderly stop the log is closed already, and the stop's record stands. -/
def execBusUndervoltage (s : State) : Res :=
  if s.power.lost || s.power.convs.1 || s.power.convs.2 then .next s
  else
    let s := if s.start.stopped then s
      else
        let s := if s.foldAlive then (s.record { code := 0x800C }).sealLog else s
        s.modStart fun x => { x with stopRecord := false }
    let s := s.bare
    .next { s with power := { s.power with lost := true } }
/-- Is there saved training for every stack and every enabled, licensed Lamug port? -/
def State.trainingKept (s : State) (enabled : List Nat) : Bool :=
  ((upto 0 20).all fun k => (s.stack k).trainingSaved || (s.stack k).edgeFailed) && enabled.all fun n => (s.lamp n).saved.isSome
/-- MODULE_RESET: the Fold supply rises again with a feed live, and a start begins: a fast one after an orderly stop, with saved training,
with calibration, defect map and bindings `intact`, and no cold start asked for; else a cold one. -/
def execModuleReset (feedA feedB intact : Bool) (s : State) : Res :=
  if !s.power.lost || !(feedA || feedB) then .next s
  else
    let S := s.start
    let fast := S.stopRecord && intact && !S.nextCold && !S.first && s.trainingKept ((upto 0 18).filter s.lampLicensed)
    let s := s.bare
    let s := { s with
      power := { s.power with lost := false, feeds := (feedA, feedB), convs := (feedA && s.power.fsense.1, feedB && s.power.fsense.2) }
      start := { s.start with phase := 1, cold := !fast, began := s.time, stopRecord := false }
      fold := { s.fold with starts := s.fold.starts + 1 } }
    .next ((upto 0 18).foldl (fun s n => s.cablePower n) s)

/-! ### Connectors (R535, R717, R719) -/

/-- A link that loses its cable or its retimers' power is down. -/
def State.cableLost (s : State) (n : Nat) : State :=
  let L := s.lamp n
  if L.carries || L.state == .training || L.state == .authenticating then s.lampFail n 2 else s
/-- CAB_PRES_CHANGE: CAB_PRES_N goes low as a cable is mated, high as it is unmated. -/
def execCabPresChange (n : LampIx) (low : Bool) (s : State) : Res :=
  let s := ({ s with pins := { s.pins with cabPres := setPut s.pins.cabPres n low } }).cablePower n
  .next (if low then s else s.cableLost n)
/-- CAB_PWR_OVERCURRENT: the power is off; the port stays DOWN, and retries with power restored. -/
def execCabPwrOvercurrent (n : LampIx) (s : State) : Res :=
  if !s.pins.cabPwr.contains n then .next s
  else
    let s := ({ s with pins := { s.pins with cabPwr := setDel s.pins.cabPwr n } }).cableLost n
    .next (s.modLamp n fun L => if L.state = .down then { L with waitRetry := true } else L)
/-- JSB_UNMATE: nothing resets; TRST_N is pulled low, and with it the test port is in its reset. Messages over I3C are whole or not there,
so that one cut short leaves nothing. -/
def execJsbUnmate (s : State) : Res := .next { s with pins := { s.pins with tapIr := 4, tapDrive := 0 } }

/-! ### Boundary scan (R720) -/

/-- A TAP instruction and what it makes the pins do. -/
def State.tap (s : State) (ir drive : Nat) : State := { s with pins := { s.pins with tapIr := ir, tapDrive := drive } }
/-- May the test port take the pins: from the module reset until the second phase of a start ends, and after an orderly stop? -/
def State.tapMay (s : State) : Bool := !s.power.lost && (s.start.phase == 1 || s.start.phase == 2 || s.start.stopped)
/-- An instruction that takes the pins acts as BYPASS outside its windows. -/
def State.tapTake (s : State) (ir drive : Nat) : State := if s.tapMay then s.tap ir drive else s.tap 0 0
/-- BYPASS, which every code without an instruction acts as. -/
def execBypass (s : State) : Res := .next (s.tap 0 0)
/-- SAMPLE: the cells hold the pins: FSENSE, CAB_PRES_N, the CAB_PWR enables, PERST_N, and the JSB signals and REFCLK detection as given. -/
def execSample (others : BitVec 32) (s : State) : Res :=
  let b := fun (l : List Nat) => (upto 0 18).map fun n => b01 (l.contains n)
  let seen := [b01 s.power.fsense.1, b01 s.power.fsense.2] ++ b s.pins.cabPres ++ b s.pins.cabPwr ++ ((upto 0 4).map fun p => b01 (s.port p).perst) ++ [others.toNat]
  let s := s.tap 1 0
  .next { s with pins := { s.pins with cells := Config.packCells seen } }
def execPreload (cells : BitVec 64) (s : State) : Res :=
  let s := s.tap 2 0
  .next { s with pins := { s.pins with cells := cells.toNat } }
def execExtest (s : State) : Res := .next (s.tapTake 3 1)
/-- IDCODE: version 1, part 0x9A09, manufacturer 0x4E5. -/
def execIdcode (s : State) : Res := .next ((s.tap 4 0).emit (.answer 0x1149 4 0 [0x19A099CB]))
def execClamp (s : State) : Res := .next (s.tapTake 5 1)
def execHighz (s : State) : Res := .next (s.tapTake 6 2)

end Sys2Proof.Machine
end

