-- ==== Sys2Proof/Machine/Scratch.lean ====
section
/-! DEFINITION. The scratchpad's own steps: port arbitration, flushes, write-back, zone sweeps, patrol, zero-fill (R162-R196). -/
namespace Sys2Proof.Machine

/-! ### Port arbitration (R167-R169) -/

/-- Place of a requester in the tie order: drain, feeder, loader, transfer engine, network, core 0, core 1. -/
def tieRank (n : Nat) : Nat := match n with | 2 => 0 | 0 => 1 | 1 => 2 | k => k

/-- Is request `a` considered before `b`? -/
def reqBefore (a b : PortReq) : Bool := decide (a.age > b.age) || (a.age == b.age && decide (tieRank a.requester ≤ tieRank b.requester))

/-- Insertion into the order of consideration. -/
def insReq (r : PortReq) : List PortReq → List PortReq
  | [] => [r]
  | x :: t => if reqBefore r x && !(reqBefore x r) then r :: x :: t else x :: insReq r t

/-- Grants from the oldest: a request is served whole when all its banks are free on its port. -/
def grantReqs (busyR busyW : List Nat) : List PortReq → List PortReq × List PortReq
  | [] => ([], [])
  | r :: t =>
    let banks := r.words.map bankOf
    let busy := if r.write then busyW else busyR
    if setsDisjoint banks busy then
      let (g, w) := grantReqs (if r.write then busyR else banks ++ busyR) (if r.write then banks ++ busyW else busyW) t
      (r :: g, w)
    else
      let (g, w) := grantReqs busyR busyW t
      (g, r :: w)
where
  setsDisjoint (a b : List Nat) : Bool := !(a.any b.contains)

/-- SPD_PORT_ARBITRATION: requests already raised grow older; those newly raised join, one per requester and port; the
arbiters grant for the next tick, and the waiting ones are counted (R168, R169, R195). -/
def execSpdPortArbitration (t : TileIx) (raised : List PortReq) (s : State) : Res :=
  let d := (s.tile t).spd
  let old := d.requests.map fun r => { r with age := min (r.age + 1) 4095 }
  let all := raised.foldl (fun l r => if l.any fun x => x.requester == r.requester && x.write == r.write then l else l ++ [{ r with age := min r.age 4095 }]) old
  let sorted := all.foldl (fun l r => insReq r l) []
  let held := sorted.filter fun r => r.words.any (s.tile t).spdBlocked
  let (g, w) := grantReqs [] [] (sorted.filter fun r => !(r.words.any (s.tile t).spdBlocked))
  let waiting := held ++ w
  let counts := (waiting.map (·.requester)).eraseDups.foldl (fun c k => tput c k ((tget c k + 1) % 2 ^ 64)) d.wait
  .next (s.modSpd t fun d => { d with requests := all.filter waiting.contains, granted := g, wait := counts })

/-! ### Flushes and write-back -/

/-- CB_FLUSH_TIMEOUT (R172, rule 2). -/
def execCbFlushTimeout (t : TileIx) (word : Fin 262144) (s : State) : Res := .next (s.cbFlush t word)

/-- SPD_ECC_WRITEBACK: the corrected word is written back and read again; an error found again moves the word to a spare
(R178, R182). -/
def execSpdEccWriteback (t : TileIx) (word : Fin 262144) (again : Bool) (s : State) : Res :=
  if (s.tile t).spd.checkBack.contains word.val then
    let s := s.modSpd t fun d => { d with checkBack := setDel d.checkBack word, upset := tput d.upset word 0 }
    if again then
      let weight := (s.tile t).codeWeight (sheetOf word)
      let s := (s.spdErr t word 1 .scrubber 0x01).spdEvent t (if weight then 0x2002 else 0x2001) word 1 .scrubber
      .next (s.spdRepair t word .scrubber)
    else .next s
  else .next s

/-! ### Zones (R176, R180, R189) -/

/-- The sheets whose zone a write of SPD_ZONEn changes, ascending. -/
def changedSheets (old new n : Nat) : List Nat := ((upto 0 32).filter fun b => bit old b != bit new b).map fun b => 32 * n + b

/-- A write of SPD_ZONEn: changed sheets are swept in ascending order; during a sweep a second write waits. Answers
whether the write was taken. -/
def State.zoneWrite (s : State) (u : CoreId) (n value : Nat) : Bool × State :=
  let T := s.tile u.tile
  if !T.spd.sweep.isEmpty || T.spd.fillRow.isSome then (false, s)
  else
    let ch := changedSheets (T.reg (0xA00 + n)) value n
    if ch.isEmpty then (true, s)
    else (true, s.modTile u.tile fun T => { (T.setReg (0xA00 + n) value) with spd := { T.spd with sweep := ch, sweepRow := 0, sweepBy := u.core } })

/-- SPD_ZONE_WRITE by a core. -/
def execSpdZoneWrite (u : CoreId) (n : Fin 8) (value : BitVec 32) (s : State) : Res := .next (s.zoneWrite u n value.toNat).2

/-- One word of a sweep: read under the old code, written back under the new one. -/
def State.sweepWord (s : State) (t word : Nat) : State :=
  let who := coreReq (s.tile t).spd.sweepBy
  let (r, s) := s.spdRead t who word
  s.spdPut t word r.bytes (r.poison || r.again)

/-- ZONE_SWEEP_ROW (R180). -/
def execZoneSweepRow (t : TileIx) (s : State) : Res :=
  let d := (s.tile t).spd
  match d.sweep with
  | [] => .next s
  | sheet :: rest =>
    let s := (upto (1024 * sheet + 32 * d.sweepRow) 32).foldl (fun s w => s.sweepWord t w) s
    .next (s.modSpd t fun d => if d.sweepRow ≥ 31 then { d with sweep := rest, sweepRow := 0 } else { d with sweepRow := d.sweepRow + 1 })

/-! ### Patrol and zero-fill -/

/-- The word at an address of a bank (R163). -/
def bankWord (bank addr : Nat) : Nat := 32 * addr + (bank + 32 - addr % 32) % 32

/-- SCRUB_STEP: the patrol reads the next word of a bank and treats it as any read does (R183). -/
def execScrubStep (t : TileIx) (bank : Fin 32) (s : State) : Res :=
  let T := s.tile t
  let a := tget T.spd.patrol bank
  let word := bankWord bank a
  if !bit (T.reg 0xA08) 1 || T.detectOnly || T.spdBlocked word then .next s
  else
    let (_, s) := s.spdCheck t .scrubber word
    .next (s.modSpd t fun d => { d with patrol := tput d.patrol bank ((a + 1) % 8192) })

/-- ZERO_FILL_ROW: one row run of 32 zero words; after row 8,191 the tile is filled (R187). -/
def execZeroFillRow (t : TileIx) (s : State) : Res :=
  match (s.tile t).spd.fillRow with
  | none => .next s
  | some g =>
    if !s.ticking t then .next s else
    let s := (upto (32 * g) 32).foldl (fun s w => s.spdPut t w (List.replicate 32 0) false) s
    if g < 8191 then .next (s.modSpd t fun d => { d with fillRow := some (g + 1) })
    else
      let s := s.modSpd t fun d => { d with fillRow := none }
      .next { s with org := { s.org with toFill := setDel s.org.toFill t } }

/-! ### Registers that a read clears -/

/-- SPD_REMOTE_READ: the refusal count is returned and cleared; SOURCE stays (R193). -/
def State.readRemote (s : State) (t : Nat) : Nat × State :=
  let v := (s.tile t).reg 0xA0B
  (v, s.modTile t fun T => T.setReg 0xA0B (v - v % 65536))
/-- SEQ_RERUN's count is returned and cleared (R297). -/
def State.readRerun (s : State) (t : Nat) : Nat × State := ((s.tile t).reg 0x811, s.modTile t fun T => T.setReg 0x811 0)

/-- A reader of tile registers, numbered for the log of reads: the tile's cores, or the Fold controller (R16). -/
def readerNo (t reader : Nat) : Nat := if reader = 2 then 0xF01D else 2 * t + reader

def execSpdRemoteRead (t : TileIx) (reader : Fin 3) (s : State) : Res :=
  let (v, s) := s.readRemote t
  .next (s.emit (.regRead (readerNo t reader) 0xA0B v))
def execSeqRerunRead (t : TileIx) (reader : Fin 3) (s : State) : Res :=
  let (v, s) := s.readRerun t
  .next (s.emit (.regRead (readerNo t reader) 0x811 v))

end Sys2Proof.Machine
end

