-- ==== Sys2Proof/Machine/TileRegs.lean ====
section
/-! DEFINITION. Registers on the die: 64-bit pairs, tile system registers, router, region and HBM controller registers (R13-R16,
R88-R90, R118, R119, R159, R160, R189-R195, R243-R247, R296, R297, R346-R351, R381-R389, R438-R440, R467-R469, R623). -/
namespace Sys2Proof.Machine

/-! ### 64-bit pairs (R16) -/

/-- The key under which a reader or writer other than a core keeps what R16 gives it: functions by fn * 2^32, the Fold by
2^40 + node * 2^16, plus the address of LO. -/
def regKey : RegBy → Nat → Nat
  | .host fn, a => fn.val * 2 ^ 32 + a
  | .core _, a => a
  | .fold node, a => 2 ^ 40 + node.val * 2 ^ 16 + a
/-- Addresses from LO to HI. -/
def pairStep : RegBy → Nat
  | .host _ => 4
  | _ => 1
/-- The upper half captured at the reader's last read of LO. -/
def State.shadowOf (s : State) (w : RegBy) (a : Nat) : Option Nat :=
  match w with
  | .core u => tget (s.core u).shadow a
  | _ => tget s.fold.shadow (regKey w a)
def State.setShadow (s : State) (w : RegBy) (a v : Nat) : State :=
  match w with
  | .core u => s.modCore u fun c => { c with shadow := tput c.shadow a (some v) }
  | _ => s.modFold fun F => { F with shadow := tput F.shadow (regKey w a) (some v) }
/-- The LO that a writer has written and not yet committed. -/
def State.heldOf (s : State) (w : RegBy) (a : Nat) : Option Nat :=
  match w with
  | .core u => tget (s.core u).heldLo a
  | _ => tget s.fold.heldLo (regKey w a)
def State.setHeld (s : State) (w : RegBy) (a : Nat) (v : Option Nat) : State :=
  match w with
  | .core u => s.modCore u fun c => { c with heldLo := tput c.heldLo a v }
  | _ => s.modFold fun F => { F with heldLo := tput F.heldLo (regKey w a) v }

/-- Bits written with 1 are cleared (W1C). -/
def w1c (r v mask : Nat) : Nat := r - (r &&& (v &&& mask))

/-! ### Tile system registers: values -/

/-- ARR_COLMAP (R88). -/
def Arrays.colMap (A : Arrays) : Nat :=
  (upto 0 4).foldl (fun v a =>
    let b := tget A.bypass a
    v + 2 ^ (8 * a) * (atBit (b01 (b != 0)) 7 1 + atBit (b01 (A.exhausted.contains a)) 6 1 + if b = 0 then 0 else (b - 1) % 64)) 0
/-- SEQ_STAT (R296). -/
def Tile.seqStat (T : Tile) : Nat :=
  let q := T.seqr
  let held := fun c => (q.queue.filter fun e => e.core == c).length
  let inside := ((T.arr.waves.filter (·.valid)).map (·.pass)).eraseDups.length
  let linkWait := match q.passes.find? fun p => !p.done with | some p => decide (p.linkWait > 0) | none => false
  let readers := ((q.passes.filter fun p => !p.done).map (·.entry)) ++ q.queue
  let sheetWait := readers.any fun e => if e.isDrain then q.waitsForReader e else q.waitsForDrain e
  atBit (held 1) 27 5 + atBit (held 0) 22 5 + atBit (min inside 3) 20 2 + atBit (b01 q.load.isSome) 19 1
    + atBit (b01 q.drain.isSome) 18 1 + atBit (b01 linkWait) 17 1 + atBit (b01 sheetWait) 16 1
/-- XFR_STAT (R438). -/
def Tile.xfrStat (T : Tile) : Nat :=
  (upto 0 16).foldl (fun v c =>
    let x := tget T.chans c
    v + b01 (x.wait.any fun h => h.fault.isSome && h.resolved.isNone) * 2 ^ (16 + c) + b01 x.open_ * 2 ^ c) 0
/-- SPD_REPAIR (R194). -/
def Spd.repairWord (d : Spd) : Nat := (match d.spareOut with | some b => 2 ^ 31 + atBit b 26 5 | none => 0) + d.spares.length % 1024
/-- Sides of a tile whose verge links are in scheduled mode, coded as SCH_CTL.LINKS. -/
def State.activeLinks (s : State) (t : Nat) : Nat := (upto 0 4).foldl (fun v d => v + b01 (s.vergeSched t d) * 2 ^ d) 0
def schCode : SchState → Nat
  | .idle => 0 | .running => 1 | .boundary => 2 | .fault => 3 | .aborting => 4
/-- SCH_LINKINFO (R387). -/
def Tile.linkInfo (T : Tile) (t : Nat) : Nat :=
  (upto 0 4).foldl (fun v d =>
    let c := tget T.sched.cal d
    let there := (neighbour t d).isSome
    v + 2 ^ (8 * d) * (128 * b01 c.failed + 64 * b01 c.calibrated + 32 * b01 c.pending + 16 * b01 (halfLink t d) + if there then linkL t d % 16 else 0)) 0
/-- CLK_INFO (R388). -/
def Region.clkInfo (R : Region) : Nat := 128 * b01 (R.pendingFmult.isSome || R.changing.isSome || R.slewTo.isSome) + R.fmult
/-- Does a reader see what the dispatch unit holds in a layer slot (R160)? -/
def State.seesSlot (s : State) (w : RegBy) (t k : Nat) : Bool :=
  match w with
  | .core _ => (s.slot (regionOf t) k).heldBy == some (s.tag t) && s.tag t != 0
  | _ => true
/-- The dispatch unit's registers 0x900-0x90B (R160). -/
def State.dspReg (s : State) (w : RegBy) (t n : Nat) : Nat :=
  let r := regionOf t
  let see := fun k f => if s.seesSlot w t k then f (s.slot r k) else (0 : Nat)
  let flying := fun (L : LayerSlot) => (L.bundles.filter (·.sent)).length
  match n with
  | 0x900 => atBit (see 1 fun L => b01 L.heldBy.isSome) 31 1 + atBit (see 0 fun L => b01 L.heldBy.isSome) 30 1
      + atBit (see 0 flying + see 1 flying) 15 13 + (see 0 (·.tokens.length) + see 1 (·.tokens.length)) % 2 ^ 15
  | 0x901 => atBit (see 1 (·.step)) 16 16 + see 0 (·.step) % 65536
  | 0x90A => (s.region r).dspErr
  | 0x90B => 0
  | n =>
    let k := (n - 0x902) / 4
    let v := match (n - 0x902) % 4 with
      | 0 => see k (·.sent)
      | 1 => see k (·.spilled)
      | 2 => see k (·.dropped)
      | _ => see k (·.lost)
    v % 2 ^ 32
/-- A core's own registers; no other reader has any (R243-R247). -/
def State.coreReg (s : State) (u : CoreId) (n : Nat) : Nat :=
  let c := s.core u
  let p := s.tag u.tile
  match n with
  | 0x000 => atBit p 16 16 + atBit (s.lidOr u.tile) 6 10 + u.core.val
  | 0x001 => atBit (s.members p).length 16 16 + s.rank u.tile % 65536
  | 0x002 => 0x02020000 + s.imageLevel u % 65536
  | 0x004 => c.fcsr
  | 0x006 => c.evec.toNat
  | 0x008 => c.epc.toNat
  | 0x00A => c.ecause
  | 0x00B => c.eval.toNat
  | 0x00E => c.ticks
  | 0x010 => s.time
  | 0x012 => c.retired
  | _ => 0
/-- Are the FLT registers a reader's (R438)? -/
def State.fltMine (s : State) (w : RegBy) : Bool := match w with | .core u => s.isHandler u | _ => false

/-- LO of a pair of tile system registers? -/
def tilePair (n : Nat) : Bool :=
  [0x006, 0x008, 0x00B, 0x00E, 0x010, 0x012, 0x802, 0x804, 0x808, 0x80A, 0xA10, 0xA12, 0xA14, 0xA16, 0xA18, 0xA1A, 0xA1C,
   0xB02, 0xB04, 0xB08, 0xB10, 0xB12, 0xC06, 0xC08, 0xC28, 0xC2A].contains n
/-- What a tile system register holds: 64 bits where `n` is the LO of a pair. -/
def State.tileLive (s : State) (w : RegBy) (t n : Nat) : Nat :=
  let T := s.tile t
  let pair := T.reg n + T.reg (n + 1) * 2 ^ 32
  if n < 0x100 then (match w with | .core u => s.coreReg u n | _ => 0)
  else if 0x900 ≤ n ∧ n ≤ 0x90B then s.dspReg w t n
  else if 0xB01 ≤ n ∧ n ≤ 0xB07 ∧ !s.fltMine w then 0
  else if 0xA10 ≤ n ∧ n ≤ 0xA1D then tget T.spd.wait ((n - 0xA10) / 2)
  else match n with
    | 0x800 => T.arr.colMap
    | 0x802 => T.arr.passes
    | 0x804 => T.arr.bubbles
    | 0x806 => wrap 11 T.seqr.anchorA + wrap 11 T.seqr.anchorB * 2 ^ 11
    | 0x808 => T.arr.dropVec
    | 0x80A => T.arr.dropGrp
    | 0x810 => T.seqStat
    | 0xA08 => T.reg n + 256 * b01 (!T.spd.sweep.isEmpty)
    | 0xA0C => T.spd.repairWord
    | 0xB00 => T.xfrStat
    | 0xB01 => T.reg n / 2 ^ 30 * 2 ^ 30 + min T.notes.length 64
    | 0xB02 => (T.notes.headD (0, 0)).1
    | 0xB04 => pair
    | 0xB06 => 0
    | 0xB08 => pair
    | 0xB0B => 2 ^ 31 * b01 (s.xtcBusy t)
    | 0xB10 => T.xtcHit
    | 0xB12 => T.xtcMiss
    | 0xC00 => 2 ^ 31 * b01 T.net.fenced + 2 ^ 30 * b01 (s.activeLinks t != 0) + T.net.requests.length % 8192
    | 0xC04 => 2 ^ 31 * b01 T.net.drvBusy + T.reg n % 8
    | 0xC06 => T.net.tx
    | 0xC08 => T.net.rx
    | 0xC20 => T.reg n &&& 0xF0
    | 0xC21 => atBit (s.activeLinks t) 8 4 + 128 * b01 T.sched.stalled + 64 * b01 T.sched.loadBusy + schCode T.sched.state
    | 0xC25 => atBit T.sched.segs 20 12 + T.sched.sigma % 2 ^ 20
    | 0xC26 => T.sched.done
    | 0xC28 => T.sched.slips
    | 0xC2A => T.sched.holds
    | 0xC2D => T.linkInfo t
    | 0xC2F => (s.region (regionOf t)).clkInfo
    | 0xC40 => atBit T.spore.state 29 3 + 2 ^ 28 * b01 T.spore.verified + atBit T.spore.received.length 11 11 + T.spore.count % 2048
    | 0xC41 => atBit (min T.spore.fromFold 65535) 16 16 + T.spore.gleaned % 65536
    | n => T.reg n

/-! ### Tile system registers: reads that change something, and writes -/

/-- What a read of a register, or of LO, does besides: fields that reading clears, and the notice that a read takes. -/
def State.tileRead (s : State) (w : RegBy) (t n : Nat) : State :=
  match n with
  | 0x811 => (s.readRerun t).2
  | 0xA0B => (s.readRemote t).2
  | 0xB02 => match w with | .core u => (s.fltNote u).2 | _ => s
  | _ => s

/-- May a writer write a pair? Others ignore both halves. -/
def State.tilePairRw (s : State) (w : RegBy) (n : Nat) : Bool :=
  match n with
  | 0x006 | 0x008 | 0x00B => (match w with | .core _ => true | _ => false)
  | 0xB04 => s.fltMine w
  | 0xB08 => true
  | _ => false
/-- A pair is committed. -/
def State.tilePut64 (s : State) (w : RegBy) (t n v : Nat) : State :=
  match n, w with
  | 0x006, .core u => s.modCore u fun c => { c with evec := BitVec.ofNat 64 v }
  | 0x008, .core u => s.modCore u fun c => { c with epc := BitVec.ofNat 64 v }
  | 0x00B, .core u => s.modCore u fun c => { c with eval := BitVec.ofNat 64 v }
  | 0xB04, _ => s.modTile t fun T => (T.setReg 0xB04 (v % 2 ^ 32)).setReg 0xB05 (v / 2 ^ 32 % 2 ^ 32)
  | 0xB08, _ => s.modTile t fun T => (T.setReg 0xB08 (fld v 12 20 * 4096)).setReg 0xB09 (v / 2 ^ 32 % 2 ^ 32)
  | _, _ => s
/-- SCH_CTL (R381): LINKS, then ABORT, then GO. -/
def State.schCtl (s : State) (t v : Nat) : State :=
  let s := if (s.tile t).sched.state == .running then s else s.modTile t fun T => T.setReg 0xC20 (v &&& 0xF0)
  let s := if bit v 1 then s.schAbort t else s
  if bit v 0 then s.schGo t else s
/-- CORE_FCSR (R245). -/
def fcsrWrite (old v : Nat) : Nat := atBit (if fld v 5 3 ≥ 5 then fld old 5 3 else fld v 5 3) 5 3 + v % 32
/-- A write of a 32-bit tile system register, whether it was taken: a write of a zone during a sweep waits (R180). -/
def State.tileWrite (s : State) (w : RegBy) (t n v : Nat) : Bool × State :=
  let T := s.tile t
  let byFold := match w with | .fold _ => true | _ => false
  let set := fun (x : Nat) => (true, s.modTile t fun T => T.setReg n x)
  if 0xA00 ≤ n ∧ n ≤ 0xA07 then s.zoneWrite (match w with | .core u => u | _ => mkCore t 0) (n - 0xA00) v
  else if 0xC48 ≤ n ∧ n ≤ 0xC53 then (if byFold then set v else (true, s))
  else match n with
    | 0x004 => (true, match w with | .core u => s.modCore u fun c => { c with fcsr := fcsrWrite c.fcsr v } | _ => s)
    | 0x00A => (true, match w with | .core u => s.modCore u fun c => { c with ecause := v % 256 } | _ => s)
    | 0x801 => set (w1c (T.reg n) v 0xFFF)
    | 0x807 => set (w1c (T.reg n) v 0xFFFF)
    | 0x90A => (true, s.modRegion (regionOf t) fun R => { R with dspErr := w1c R.dspErr v 15 })
    | 0x90B => (true, match w with | .core u => if bit v 0 then s.balReset u else s | _ => s)
    | 0xA08 => set (if byFold then v &&& 0xF003 else setFld (T.reg n) 1 1 (fld v 1 1))
    | 0xA09 => set (w1c (T.reg n) v 0x3F)
    | 0xB01 => if s.fltMine w then set (w1c (T.reg n) v (2 ^ 31 + 2 ^ 30)) else (true, s)
    | 0xB06 => (true, match w with
        | .core u => if v % 4 = 1 ∨ v % 4 = 2 then s.fltRes u (T.reg 0xB04 + T.reg 0xB05 * 2 ^ 32) (v % 4 == 1) else s
        | _ => s)
    | 0xB07 => (true, match w with | .core u => s.fltHead u v | _ => s)
    | 0xB0A => (true, s.xtcInv t v)
    | 0xC01 => set (if byFold then v else setFld (T.reg n) 0 16 v)
    | 0xC02 => (true, s.droveCmd t v)
    | 0xC03 => set (fld v 5 18 * 32)
    | 0xC05 => set (w1c (T.reg n) v 0x3F)
    | 0xC20 => (true, s.schCtl t v)
    | 0xC22 => set (v % 2048)
    | 0xC23 => set (fld v 4 19 * 16)
    | 0xC24 => (true, s.schLoad t v)
    | 0xC27 => (true, s.schLimit t v)
    | 0xC2C => set (w1c (T.reg n) v 15)
    | 0xC2E => set (v % 65536)
    | 0xC40 => (true, if byFold && decide (fld v 29 3 ≤ 5) then s.modSpore t fun p => { p with state := fld v 29 3 } else s)
    | 0xC42 => if byFold then set v else (true, s)
    | _ => (true, s)

/-! ### Router, region and HBM controller registers (R351, R389, R467-R469)

The spec gives the first two no addresses: the model puts RTR_CFG at 0x1000 of every tile's router, RCK_CTL at 0x2000, RCK_STAT at
0x2001 and RCK_STRETCH1-4 at 0x2002-0x2009 of the router of the region's first tile (DESIGN CHOICE, log 10). -/

/-- Sets routers' configuration. -/
def Router.cfg (R : Router) : Nat := atBit R.bank 9 1 + R.overhold
/-- HBM_STAT, of a stack that has lost an edge port or not. -/
def Stack.stat (K : Stack) (degraded : Bool) : Nat :=
  let out := K.retired ++ (match K.testing with | some p => if K.testData then [p] else [] | none => [])
  atBit (match K.state with | .inService => b01 degraded | .out => 2 | .inReset => 3) 30 2 + atBit K.rate 28 2
    + 2 ^ 27 * b01 K.selfRefresh + 2 ^ 26 * b01 K.migrating.isSome + 2 ^ 25 * b01 K.testing.isSome
    + 2 ^ 24 * b01 (decide (K.retired.length ≥ 2)) + atBit (out.getD 1 0x7F) 7 7 + atBit (out.getD 0 0x7F) 0 7
/-- HBM_PROGRESS. -/
def Stack.progress (K : Stack) : Nat :=
  match K.migrating, K.testing with
  | some p, _ => atBit p 25 7 + K.migPtr / 256 % 2 ^ 22
  | none, some p => atBit p 25 7 + atBit K.testPart 22 3
  | none, none => 0
/-- The stack whose controller answers at an edge node. -/
def stackAt (node : Nat) : Option Nat := (upto 0 20).find? fun k => (stackNodes k).head? == some node
def foldPair (node n : Nat) : Bool :=
  if node < 576 then (if n < 0x1000 then tilePair n else [0x2002, 0x2004, 0x2006, 0x2008].contains n && tileInRegion (regionOf node) 0 == node)
  else n == 5 && (stackAt node).isSome
/-- What a register that the Fold reaches holds. -/
def State.foldLive (s : State) (node : Fin 672) (n : Nat) : Nat :=
  if node.val < 576 then
    let R := s.region (regionOf node)
    if n < 0x1000 then s.tileLive (.fold node) node n
    else if n = 0x1000 then (s.router node).cfg
    else if tileInRegion (regionOf node) 0 ≠ node then 0
    else match n with
      | 0x2000 => atBit R.rckStretchMax 14 2 + R.fmultReq
      | 0x2001 => 2 ^ 31 * b01 R.transitLock + 2 ^ 30 * b01 R.regionLock + 2 ^ 29 * b01 R.stopped + R.fmult
      | 0x2002 => tget R.stretch 1
      | 0x2004 => tget R.stretch 2
      | 0x2006 => tget R.stretch 3
      | 0x2008 => tget R.stretch 4
      | _ => 0
  else match stackAt node with
    | none => 0
    | some k =>
      let K := s.stack k
      match n with
      | 0 => K.stat (s.stackDegraded k)
      | 1 => atBit K.scrubHours 24 8 + K.srIdle
      | 2 => K.progress
      | 3 => K.ce
      | 4 => K.ue
      | 5 => fld K.errAddr 5 31 * 32 + K.errKind % 4 * 2 ^ 62
      | 7 => K.temp
      | _ => 0
/-- What a read by the Fold does besides. -/
def State.foldRead (s : State) (node : Fin 672) (n : Nat) : State :=
  if node.val < 576 then (if n < 0x1000 then s.tileRead (.fold node) node n else s)
  else match stackAt node with
    | none => s
    | some k => if n = 3 then s.modStack k fun K => { K with ce := 0 } else if n = 4 then s.modStack k fun K => { K with ue := 0 } else s
/-- RCK_CTL. -/
def State.rckCtl (s : State) (r v : Nat) : State :=
  let s := s.modRegion r fun R => { R with rckStretchMax := fld v 14 2 }
  let f := v % 128
  if 16 ≤ f ∧ f ≤ 74 then (s.modRegion r fun R => { R with fmultReq := f }).askFmult r f else s
/-- A write by the Fold of a 32-bit register. -/
def State.foldWrite (s : State) (node : Fin 672) (n v : Nat) : State :=
  if node.val < 576 then
    if n < 0x1000 then (s.tileWrite (.fold node) node n v).2
    else if s.org.dead.contains (regionOf node) then s
    else if n = 0x1000 then
      let o := v % 256
      s.modRouter node fun R => { R with bank := fld v 9 1, overhold := if 40 ≤ o ∧ o ≤ 255 then o else R.overhold }
    else if n = 0x2000 ∧ tileInRegion (regionOf node) 0 = node then s.rckCtl (regionOf node) v
    else s
  else match stackAt node with
    | none => s
    | some k => if n = 1 then s.modStack k fun K => { K with srIdle := v % 65536, scrubHours := if fld v 24 8 = 0 then K.scrubHours else fld v 24 8 } else s

end Sys2Proof.Machine
end

