-- ==== Sys2Proof/Machine/HostRegs.lean ====
section
/-! DEFINITION. A function's control space: the blocks FNC, QDB, JOB, MMU, PWR, LNK, MGT, ERR and GEO (R17, R41-R49, R436, R437,
R507-R509, R546-R549, R590-R593, R654-R656, R689, R690). -/
namespace Sys2Proof.Machine

/-- Does a function see an offset (R41)? A virtual function sees FNC, QDB, JOB and ERR, once the host has enabled it. -/
def State.hostSees (s : State) (fn a : Nat) : Bool :=
  if fn < 4 then true else (s.func fn).vfOn && (decide (a < 0x60000) || (decide (0xA0000 ≤ a) && decide (a < 0xB0000)))

/-- LO of a pair? -/
def hostPair (a : Nat) : Bool :=
  [0x20, 0x28, 0x5000C, 0x64000, 0x90014, 0x9001C, 0x90024].contains a ||
  (decide (0x60000 ≤ a) && decide (a < 0x64000) && [0x08, 0x10, 0x18, 0x20, 0x34].contains (a % 0x40)) ||
  (decide (0x74000 ≤ a) && decide (a < 0x76400) && a % 16 == 0) ||
  (decide (0x80000 ≤ a) && decide (a < 0x84800) && a % 0x400 == 0x14)

/-! ### Reading -/

/-- A paddock as a function sees it: its own by number, another's as 0xFFFE (R47). -/
def State.padCode (s : State) (fn p : Nat) : Nat := if p = 0 then 0 else if (s.ctx (s.paddock p).ctx).fn = fn then p else 0xFFFE
/-- FNC (R507). -/
def State.fncReg (s : State) (fn a : Nat) : Nat :=
  let F := s.func fn
  match a with
  | 0x00 => atBit (if fn < 4 then 0 else (fn - 4) % 63 + 1) 10 6 + atBit (portOfFn fn) 8 2 + fn % 256
  | 0x04 => 0x02040109
  | 0x08 => F.hver
  | 0x0C => F.nver
  | 0x10 => b01 (F.enabled || F.enableHeld)
  | 0x14 => 2 ^ 31 * b01 F.ready + 2 ^ 30 * b01 F.verFail + 2 ^ 29 * b01 F.resetting
  | 0x18 => atBit (s.fnQueues fn) 16 16 + atBit (s.fnContexts fn) 8 8 + s.fnQuota fn % 256
  | 0x1C => atBit (s.queuesUsed fn) 16 16 + atBit (s.contextsUsed fn) 8 8 + s.regionsUsed fn % 256
  | 0x20 => F.asq
  | 0x28 => F.acq
  | 0x30 => F.aqa
  | _ => 0
/-- QDB (R508). -/
def State.qdbReg (s : State) (fn a : Nat) : Nat :=
  let n := (a - 0x10000) / 16
  let Q := s.queue fn n
  if n ≥ 4096 ∨ !Q.made then 0
  else match a % 16 with
    | 0 => Q.sqTail
    | 4 => Q.cqHead
    | 8 => 2 ^ 31 * b01 Q.stopped + atBit Q.cause 28 3 + Q.sqHead % 65536
    | _ => 0
/-- JOB (R509). -/
def State.jobReg (s : State) (fn a : Nat) : Nat :=
  let j := (s.func fn).jobSel
  let J := s.job j
  let mine := s.jobMine fn j
  let all := s.host.jobs.filter fun e => e.2.live && e.2.fn == fn
  match a with
  | 0x50000 => j
  | 0x50004 => if mine then atBit (jobCode J.state) 28 4 + atBit J.holds 24 3 + 2 ^ 23 * b01 J.saved + 2 ^ 22 * b01 (J.kind == .maintenance)
                 + s.padCode fn J.paddock else 0xF0000000
  | 0x50008 => if mine then J.status % 256 else 0
  | 0x5000C => if mine then (J.runNs + (match J.runFrom with | some f => s.time - f | none => 0)) / 1000 else 0
  | 0x50018 => (s.func fn).ctlStat
  | 0x5001C => atBit (all.filter fun e => !e.2.terminal).length 16 16 + (all.filter fun e => e.2.terminal).length % 65536
  | _ => 0
/-- MMU (R436, R437). -/
def State.mmuReg (s : State) (fn a : Nat) : Nat :=
  let c := (a - 0x60000) / 0x40
  if a < 0x64000 then
    if !s.pfCtx fn c then 0
    else
      let m := s.mmuCtx c
      match a % 0x40 with
      | 0x00 => 2 ^ 31 + 2 ^ 30 * b01 m.sva + atBit m.pasid 8 20 + (s.ctx c).fn % 256
      | 0x04 => atBit (s.mmu.faults.filter fun f => f.ctx == c).length 16 16 + 2 * b01 m.badRes + b01 m.fqFull
      | 0x08 => m.root
      | 0x10 => m.svaBase
      | 0x18 => m.svaLimit
      | 0x20 => m.fqBase
      | 0x28 => 2 ^ 31 * b01 m.intEn + atBit m.vector 16 11 + m.log2 % 32
      | 0x2C => m.head
      | 0x30 => m.tail
      | 0x34 => m.res
      | _ => 0
  else match a with
    | 0x64000 => tget s.mmu.invAddr fn
    | 0x64008 => tget s.mmu.invCmd fn
    | 0x6400C => 2 ^ 31 * b01 (s.mmuBusy fn) + tget s.mmu.invDone fn % 65536
    | _ => 0
/-- The region entry of PWR (R591). -/
def State.pwrRegion (s : State) (r i : Nat) : Nat :=
  let R := s.region r
  match i with
  | 0 =>
    let st := if s.org.dead.contains r then 4 else match R.power with | .on => 0 | .idle => 1 | .nap => 2 | .off => 3
    atBit st 29 3 + 2 ^ 28 * b01 R.tripped + 2 ^ 27 * b01 R.forced + 2 ^ 26 * b01 R.untrusted + 2 ^ 25 * b01 R.pacing
      + atBit R.fmult 18 7 + atBit (s.upperLimit r) 11 7 + R.voltMv % 2048
  | 1 => atBit (R.measMw / 100) 16 16 + R.estMw / 100 % 65536
  | 2 => atBit (tget s.power.transitMa r / 10) 16 16 + tget s.power.computeMa r / 100 % 65536
  | _ => (upto 0 4).foldl (fun v k => v + (if R.excluded.contains k then 255 else R.temps.getD k 0 % 256) * 2 ^ (8 * k)) 0
/-- The edge-domain entry of PWR (R592). -/
def State.pwrEdge (s : State) (k : Nat) : Nat :=
  atBit (if k < 20 then min (s.stack k).throttle s.power.memRate else if k < 24 then 16 else s.lampLanes (k - 24)) 24 8
    + atBit (tget s.power.edgeTemp k) 16 8 + tget s.power.edgeCa k % 65536
/-- PWR (R590-R593). -/
def State.pwrReg (s : State) (a : Nat) : Nat :=
  let P := s.power
  if 0x71000 ≤ a ∧ a < 0x71900 then s.pwrRegion ((a - 0x71000) / 16) (a % 16 / 4)
  else if 0x72000 ≤ a ∧ a < 0x72120 then
    let b := (a - 0x72000) / 8
    if a % 8 = 0 then atBit (s.headroom b) 16 16 + tget P.brickDa b % 65536
    else 2 ^ 31 * b01 (P.brickFailed.contains b) + 2 ^ 30 * b01 (P.brickLimit.contains b) + atBit (partner b) 24 6 + atBit (tget P.brickTemp b) 16 8
  else if 0x73000 ≤ a ∧ a < 0x730A8 then s.pwrEdge ((a - 0x73000) / 4)
  else if 0x74000 ≤ a ∧ a < 0x76400 then
    let t := (a - 0x74000) / 16
    match a % 16 with
    | 0 => (upto 0 8).foldl (fun v k => v + s.ceil t k % 128 * 2 ^ (8 * k)) 0
    | 8 => 2 ^ 31 * b01 (s.lidOf t).isSome + 2 ^ 30 * b01 ((upto 0 8).any fun k => (tget P.ceil (8 * t + k)).isSome) + min (tget P.lowerings t) 255
    | _ => 0
  else match a with
    | 0x70000 => P.hostCap
    | 0x70004 => atBit P.cap 16 16 + P.foldCap % 65536
    | 0x70008 => atBit (P.order.getD 0 0) 4 2 + atBit (P.order.getD 1 0) 2 2 + P.order.getD 2 0 % 4
    | 0x7000C => atBit (P.recent.foldl max 0) 16 16 + P.inputW % 65536
    | 0x70010 => 2 ^ 31 * b01 P.feeds.1 + 2 ^ 30 * b01 P.feeds.2 + 2 ^ 29 * b01 P.convs.1 + 2 ^ 28 * b01 P.convs.2
        + 2 ^ 27 * b01 (P.alerts.any fun n => !P.masked.contains n) + 2 ^ 26 * b01 P.lowest
    | 0x70014 => atBit P.feedDv.2 16 16 + P.feedDv.1 % 65536
    | 0x70018 => atBit P.convW.2 16 16 + P.convW.1 % 65536
    | 0x7001C => P.foldCw % 65536
    | 0x70020 => atBit P.offMs 16 16 + P.napUs % 65536
    | 0x70024 => P.pdkSel
    | 0x70028 => if (s.paddock P.pdkSel).live then tget P.targets P.pdkSel else 0
    | _ => 0
/-- A set of lanes as a bit map. -/
def laneMap (l : List Nat) : Nat := l.foldl (fun v k => v ||| 2 ^ k) 0
/-- LNK (R546-R549). -/
def State.lnkReg (s : State) (a : Nat) : Nat :=
  let F := s.fabric
  if a < 0x84800 then
    let L := s.lamp ((a - 0x80000) / 0x400)
    match a % 0x400 with
    | 0x00 => 256 * b01 L.lowPwr + 128 * b01 L.encrypt + b01 L.enable
    | 0x04 => atBit (lampCode L.state) 28 4 + 2 ^ 27 * b01 L.encrypted + 2 ^ 26 * b01 L.savedUsed + L.ver % 65536
    | 0x08 => atBit L.rxBypass 28 4 + atBit L.txBypass 24 4 + atBit (laneMap L.rxFailed) 9 9 + laneMap L.txFailed % 512
    | 0x0C => atBit L.peer.2 24 8 + L.peer.1 % 4096
    | 0x10 => L.perr % 128
    | 0x14 => L.fec
    | 0x1C => L.ue
    | 0x20 => L.replayed
    | 0x24 => 2 ^ 31 * b01 L.saved.isSome
    | _ => 0
  else if 0x88040 ≤ a ∧ a < 0x88080 then tget F.stage ((a - 0x88040) / 4)
  else match a with
    | 0x88000 => F.moduleId
    | 0x88004 => atBit (F.floor / 256) 24 8 + atBit (F.floor % 256) 16 8 + (F.heard.length + 1) % 8192
    | 0x88008 => 4096 * b01 F.fmgrOn + F.fmgr
    | 0x8800C => atBit F.rtTable 12 5 + F.rtDest
    | 0x88010 => if F.rtTable ≥ 19 then 0 else tget F.routes (4096 * F.rtTable + F.rtDest)
    | 0x88080 => F.epIndex
    | 0x88084 => 2 ^ 31 * b01 (F.eps.any fun e => e.2.closing) + F.epResult
    | _ => 0
/-- MGT (R654-R656). -/
def State.mgtReg (s : State) (fn a : Nat) : Nat :=
  let F := s.fold
  let M := s.mailbox fn
  if 0x91000 ≤ a ∧ a < 0x92010 then tget M.req ((a - 0x91000) / 4)
  else if 0x93000 ≤ a ∧ a < 0x94010 then tget M.resp ((a - 0x93000) / 4)
  else match a with
    | 0x90000 => 0x0106
    | 0x90004 => s.mgtStat (some fn)
    | 0x90008 => 2 ^ 30 * b01 M.intEn + atBit M.vector 19 11 + M.reqLen
    | 0x9000C => atBit M.status 24 8 + M.rspLen % 8192
    | 0x90010 => 2 * b01 F.autoRotate + b01 F.autoActivate
    | 0x90014 => F.newest
    | 0x9001C => F.oldest
    | 0x90024 => F.ack
    | 0x9002C => M.lost
    | _ => 0
/-- ERR (R689, R690). -/
def State.errReg (s : State) (fn a : Nat) : Nat :=
  let E := tget s.errs fn
  if 0xA8000 ≤ a then
    let i := (a - 0xA8000) / 64
    if E.ring.any fun e => e.1 == i then ofBytes ((({ tget E.ring i with chain := 0 } : LogEntry).bytes.drop (a % 64)).take 4) else 0
  else match a with
    | 0xA0000 => 2 ^ 31 * b01 E.overflow + (E.tail + 512 - E.head) % 512
    | 0xA0004 => 2 ^ 31 * b01 E.intEn + atBit E.vector 20 11 + E.minClass % 8
    | 0xA0008 => E.head
    | 0xA000C => E.tail
    | 0xA0024 => E.lost
    | _ => if 0xA0010 ≤ a ∧ a ≤ 0xA0020 then tget E.cnt ((a - 0xA0010) / 4) else 0
/-- The edge entry `k` of GEO (R49). -/
def State.geoEdge (s : State) (k : Nat) : Nat :=
  let node := if k < 20 then (stackNodes k).headD 0 else if k < 24 then hostNode (k - 20) else if k < 42 then lampNode (k - 24) else if k = 42 then 587 else 635
  let side := if node < 600 then 0 else if node < 624 then 1 else if node < 648 then 2 else 3
  let t := edgeTile node
  let lost := fun (b : Bool) => if b then 2 else 0
  let typ := if k < 20 then 0 else if k < 24 then 1 else if k < 42 then 2 else 3
  let st := if k < 20 then (match (s.stack k).state with | .inService => b01 (s.stackDegraded k) | _ => 2)
    else if k < 24 then lost (s.port (k - 20)).out
    else if k < 42 then (if !s.lampLicensed (k - 24) then 3 else lost ((s.lamp (k - 24)).state == .outOfService))
    else lost (s.org.dead.contains (regionOf t))
  let inst := if k < 20 then k else if k < 24 then k - 20 else if k < 42 then k - 24 else k - 42
  atBit typ 30 2 + atBit side 28 2 + atBit (if side % 2 = 1 then ty t else tx t) 23 5 + atBit (if k < 20 then 3 else 1) 20 3 + atBit st 18 2 + inst
/-- GEO (R42-R49). -/
def State.geoReg (s : State) (fn a : Nat) : Nat :=
  let o := s.org
  let ids := (upto 0 540).filter s.licensed
  if 0x101000 ≤ a ∧ a < 0x105380 then (s.geoEntry fn ((a - 0x101000) / 32)).getD (a % 32 / 4) 0
  else if 0x106000 ≤ a ∧ a < 0x106900 then
    let r := (a - 0x106000) / 16
    let slot := fun k => let t := tileInRegion r k; if !s.fit t then 0xFFFD else s.lidOr t
    match a % 16 with
    | 0 => 2 ^ 31 * b01 (o.dead.contains r) + 2 ^ 30 * b01 (o.clearing.contains r) + atBit (brickOfRegion r) 24 6 + atBit (r / 16) 20 4
        + if o.retest.contains r then 0xFFFE else s.padCode fn (s.owner r)
    | 4 => slot 1 * 2 ^ 16 + slot 0
    | 8 => slot 3 * 2 ^ 16 + slot 2
    | _ => 0
  else if 0x107000 ≤ a ∧ a < 0x1072C0 then (if a % 16 = 0 then s.geoEdge ((a - 0x107000) / 16) else 0)
  else match a with
    | 0x100000 => 0x0100
    | 0x100004 => o.geoGen
    | 0x100008 => atBit 16 25 5 + atBit 8 20 5 + atBit 16 15 5 + atBit 8 10 5 + atBit 24 5 5 + 24
    | 0x10000C =>
      let bound := (ids.filter fun l => (s.tileOf l).isSome).length
      let holes := (ids.filter fun l => (s.tileOf l).isNone && !o.toBind.contains l).length
      atBit holes 20 10 + atBit bound 10 10 + 9 * o.variant.perField
    | 0x100010 => match o.variant with | .e => 1 | .p => 2 | .f => 3
    | _ => 0

/-- What a register of a function's control space holds: 64 bits at the LO of a pair. -/
def State.hostLive (s : State) (fn a : Nat) : Nat :=
  if !s.hostSees fn a then 0
  else if a < 0x10000 then s.fncReg fn a
  else if a < 0x50000 then s.qdbReg fn a
  else if a < 0x60000 then s.jobReg fn a
  else if a < 0x70000 then s.mmuReg fn a
  else if a < 0x80000 then s.pwrReg a
  else if a < 0x90000 then s.lnkReg a
  else if a < 0xA0000 then s.mgtReg fn a
  else if a < 0xB0000 then s.errReg fn a
  else if 0x100000 ≤ a ∧ a < 0x200000 then s.geoReg fn a
  else 0

/-- What a read clears (RC). -/
def State.hostRead' (s : State) (fn a : Nat) : State :=
  if !s.hostSees fn a then s
  else if 0xA0010 ≤ a ∧ a ≤ 0xA0020 then { s with errs := tmod s.errs fn fun E => { E with cnt := tput E.cnt ((a - 0xA0010) / 4) 0 } }
  else if a = 0xA0024 then { s with errs := tmod s.errs fn fun E => { E with lost := 0 } }
  else if a = 0x9002C then s.modMailbox fn fun M => { M with lost := 0 }
  else if 0x80000 ≤ a ∧ a < 0x84800 ∧ a % 0x400 = 0x1C then s.modLamp ((a - 0x80000) / 0x400) fun L => { L with ue := 0 }
  else if 0x80000 ≤ a ∧ a < 0x84800 ∧ a % 0x400 = 0x20 then s.modLamp ((a - 0x80000) / 0x400) fun L => { L with replayed := 0 }
  else s

/-! ### Writing -/

/-- May a function write a pair? -/
def State.hostPairRw (s : State) (fn a : Nat) : Bool :=
  s.hostSees fn a &&
  match a with
  | 0x20 | 0x28 => true
  | 0x64000 => true
  | 0x90024 => fn == 0
  | _ => decide (0x60000 ≤ a) && decide (a < 0x64000)
/-- A pair is committed. -/
def State.hostPut64 (s : State) (fn a v : Nat) : State :=
  let page := v / 4096 * 4096
  let on := (s.func fn).enabled || (s.func fn).enableHeld
  let c := (a - 0x60000) / 0x40
  if a = 0x20 then (if on then s else s.modFunc fn fun F => { F with asq := page })
  else if a = 0x28 then (if on then s else s.modFunc fn fun F => { F with acq := page })
  else if a = 0x64000 then { s with mmu := { s.mmu with invAddr := tput s.mmu.invAddr fn page } }
  else if a = 0x90024 then s.logAck v
  else if !s.pfCtx fn c then s
  else
    let m := s.mmuCtx c
    match a % 0x40 with
    -- ignored where the tables are device-managed (R485)
    | 0x08 => if (s.ctx c).hostTables then s.setMmuCtx c { m with root := v / 2 ^ 20 * 2 ^ 20 } else s
    | 0x10 => s.setMmuCtx c { m with svaBase := page }
    | 0x18 => s.setMmuCtx c { m with svaLimit := page }
    | 0x20 => s.setMmuCtx c { m with fqBase := page }
    | 0x34 => s.setMmuCtx c { m with res := v }
    | _ => s
def State.fncWrite (s : State) (fn a v : Nat) : State :=
  let F := s.func fn
  match a with
  | 0x08 => s.setFunc fn { F with hver := v }
  | 0x10 => if bit v 0 then s.fncEnable fn else s.fncDisable fn
  | 0x30 => if F.enabled || F.enableHeld then s else s.setFunc fn { F with aqa := atBit (fld v 16 5) 16 5 + v % 32 }
  | _ => s
def State.qdbWrite (s : State) (fn a v : Nat) : State :=
  let q := (a - 0x10000) / 16
  if q ≥ 4096 then s
  else match a % 16 with
    | 0 => s.sqTail fn q (v % 65536)
    | 4 => s.cqHead fn q (v % 65536)
    | _ => s
def State.jobWrite (s : State) (fn a v : Nat) : State :=
  match a with
  | 0x50000 => s.modFunc fn fun F => { F with jobSel := v }
  | 0x50014 =>
    match v % 8 with
    | 1 => s.jobCtl fn 1 (bit v 3)
    | 2 => s.jobCtl fn 2 false
    | 4 => s.jobCtl fn 3 false
    | _ => s
  | _ => s
def State.mmuWrite (s : State) (fn a v : Nat) : State :=
  let c := (a - 0x60000) / 0x40
  if a < 0x64000 then
    if !s.pfCtx fn c then s
    else
      let m := s.mmuCtx c
      match a % 0x40 with
      | 0x00 => s.svaWrite fn c (bit v 30) (fld v 8 20)
      | 0x04 => if bit v 1 then s.setMmuCtx c { m with badRes := false } else s
      | 0x28 =>
        let n := v % 32
        s.setMmuCtx c { m with intEn := bit v 31, vector := fld v 16 11, log2 := if 6 ≤ n ∧ n ≤ 16 then n else m.log2 }
      | 0x2C => s.setFqHead c (v % 65536)
      | 0x3C => if v % 4 = 1 ∨ v % 4 = 2 then s.fqRes fn c m.res (v % 4 == 1) else s
      | _ => s
  else if a = 0x64008 then s.mmuInv fn v
  else s
/-- PWR_CAP and its fellows, from PF0 (R566, R590). -/
def State.pwrWrite (s : State) (a v : Nat) : State :=
  match a with
  | 0x70000 => s.modPower fun P => { P with hostCap := max 3500 (min 12000 (v % 65536)) }
  | 0x70008 =>
    let l := [fld v 4 2, fld v 2 2, fld v 0 2]
    if l.contains 3 || l.eraseDups.length < 3 then s else s.modPower fun P => { P with order := l }
  | 0x70020 => s.modPower fun P => { P with offMs := fld v 16 16, napUs := v % 65536 }
  | 0x70024 => s.modPower fun P => { P with pdkSel := v % 65536 }
  | 0x70028 =>
    let f := v % 128
    if (s.paddock s.power.pdkSel).live && (f == 0 || (decide (16 ≤ f) && decide (f ≤ 74))) then s.modPower fun P => { P with targets := tput P.targets P.pdkSel f } else s
  | _ => s
/-- LNK_PCTL: RESET, then the fields. -/
def State.pctlWrite (s : State) (n v : Nat) : State :=
  let s := if bit v 1 && (s.lamp n).state != .outOfService then s.lampReset n else s
  (s.modLamp n fun L => { L with lowPwr := bit v 8, encrypt := bit v 7 }).lampEnable n (bit v 0)
/-- LNK, from PF0. A close through this row reads host rings that answer zeros; EP_CLOSE carries what the host answers. -/
def State.lnkWrite (s : State) (a v : Nat) : State :=
  if a < 0x84800 then
    let n := (a - 0x80000) / 0x400
    match a % 0x400 with
    | 0x00 => s.pctlWrite n v
    | 0x10 => s.modLamp n fun L => { L with perr := w1c L.perr v 127 }
    | 0x24 => if bit v 0 then s.modLamp n fun L => { L with saved := none } else s
    | _ => s
  else if 0x88040 ≤ a ∧ a < 0x88080 then s.modFabric fun F => { F with stage := tput F.stage ((a - 0x88040) / 4) v }
  else match a with
    | 0x88000 => s.lnkModule (v % 4096)
    | 0x88008 => s.modFabric fun F => { F with fmgrOn := bit v 12, fmgr := v % 4096 }
    | 0x8800C => s.modFabric fun F => { F with rtTable := fld v 12 5, rtDest := v % 4096 }
    | 0x88010 => s.lnkRtData v
    | 0x88080 =>
      match fld v 16 2 with
      | 1 => s.epOpen (v % 1024)
      | 2 => s.epClose (v % 1024) []
      | 3 => s.groupWrite (v % 256)
      | _ => s.modFabric fun F => { F with epIndex := v % 1024 }
    | _ => s
def State.mgtWrite (s : State) (pf : HostIx) (a v : Nat) : State :=
  if 0x91000 ≤ a ∧ a < 0x92010 then
    (if (s.mailbox pf).busy then s else s.modMailbox pf fun M => { M with req := tput M.req ((a - 0x91000) / 4) v })
  else match a with
    | 0x90008 => s.mgtSend pf v
    | 0x90010 => if pf = 0 then s.modFold fun F => { F with autoRotate := bit v 1, autoActivate := bit v 0 } else s
    | _ => s
def State.errWrite (s : State) (fn a v : Nat) : State :=
  match a with
  | 0xA0000 => if bit v 31 then { s with errs := tmod s.errs fn fun E => { E with overflow := false } } else s
  | 0xA0004 => { s with errs := tmod s.errs fn fun E => { E with intEn := bit v 31, vector := fld v 20 11, minClass := v % 8 } }
  | 0xA0008 => { s with errs := tmod s.errs fn fun E => { E with head := v % 512 } }
  | _ => s
/-- A write of a 32-bit register of a function's control space; PWR and LNK take writes of PF0 only (R17). -/
def State.hostWrite (s : State) (fn a v : Nat) : State :=
  if !s.hostSees fn a then s
  else if a < 0x10000 then s.fncWrite fn a v
  else if a < 0x50000 then s.qdbWrite fn a v
  else if a < 0x60000 then s.jobWrite fn a v
  else if a < 0x70000 then s.mmuWrite fn a v
  else if a < 0x80000 then (if fn = 0 then s.pwrWrite a v else s)
  else if a < 0x90000 then (if fn = 0 then s.lnkWrite a v else s)
  else if a < 0xA0000 then (if h : fn < 4 then s.mgtWrite ⟨fn, h⟩ a v else s)
  else if a < 0xB0000 then s.errWrite fn a v
  else s

end Sys2Proof.Machine
end

