-- ==== Sys2Proof/Machine/RegCmd.lean ====
section
/-! DEFINITION. Register accesses by functions, tidy cores and the Fold: 64-bit pairs, access codes, system-register instructions, and
the register messages of the control network (R13-R16, R215, R226, R336). -/
namespace Sys2Proof.Machine

/-! ### One access (R13-R16) -/

def readerNum : RegBy → Nat
  | .host fn => readerFn fn
  | .core u => readerCore u
  | .fold _ => 0xF01D
/-- A register as an answer names it: the Fold's with its node. -/
def regShown : RegBy → Nat → Nat
  | .fold node, a => node.val * 2 ^ 16 + a
  | _, a => a
/-- LO of a pair? -/
def regPair : RegBy → Nat → Bool
  | .host _, a => hostPair a
  | .core _, a => tilePair a
  | .fold node, a => foldPair node a
/-- What a register holds: 64 bits at the LO of a pair. -/
def State.regLive (s : State) : RegBy → Nat → Nat
  | .host fn, a => s.hostLive fn a
  | .core u, a => s.tileLive (.core u) u.tile a
  | .fold node, a => s.foldLive node a
/-- What a read of a register, or of LO, does besides. -/
def State.regEffect (s : State) : RegBy → Nat → State
  | .host fn, a => s.hostRead' fn a
  | .core u, a => s.tileRead (.core u) u.tile a
  | .fold node, a => s.foldRead node a
/-- May a pair be written by a writer? -/
def State.regPairRw (s : State) : RegBy → Nat → Bool
  | .host fn, a => s.hostPairRw fn a
  | .core u, a => s.tilePairRw (.core u) a
  | .fold node, a => decide (node.val < 576) && decide (a < 0x1000) && s.tilePairRw (.fold node) a
def State.regPut64 (s : State) : RegBy → Nat → Nat → State
  | .host fn, a, v => s.hostPut64 fn a v
  | .core u, a, v => s.tilePut64 (.core u) u.tile a v
  | .fold node, a, v => s.tilePut64 (.fold node) node a v
/-- A write of a register that is no pair; whether it was taken. -/
def State.regPut (s : State) : RegBy → Nat → Nat → Bool × State
  | .host fn, a, v => (true, s.hostWrite fn a v)
  | .core u, a, v => s.tileWrite (.core u) u.tile a v
  | .fold node, a, v => (true, s.foldWrite node a v)
/-- Is `a` the HI of a pair? -/
def regHi (w : RegBy) (a : Nat) : Bool := decide (pairStep w ≤ a) && regPair w (a - pairStep w) && !regPair w a

/-- A read (R16): of LO, which captures HI for the reader; of HI, which answers what was captured, or the live half; of any other. -/
def State.readReg (s : State) (w : RegBy) (a : Nat) : Nat × State :=
  if regPair w a then
    let v := s.regLive w a
    (v % 2 ^ 32, (s.regEffect w a).setShadow w a (v / 2 ^ 32 % 2 ^ 32))
  else if regHi w a then
    let lo := a - pairStep w
    ((s.shadowOf w lo).getD (s.regLive w lo / 2 ^ 32 % 2 ^ 32), s)
  else (s.regLive w a % 2 ^ 32, s.regEffect w a)
/-- A write of LO is held for its writer; a pair that the writer may not write is left alone. -/
def State.writeLo (s : State) (w : RegBy) (a v : Nat) : State := if s.regPairRw w a then s.setHeld w a (some (v % 2 ^ 32)) else s
/-- A write of HI commits both halves: with the LO held for the writer, which is used up, or with the current LO. -/
def State.writeHi (s : State) (w : RegBy) (lo v : Nat) : State :=
  if s.regPairRw w lo then
    let low := (s.heldOf w lo).getD (s.regLive w lo % 2 ^ 32)
    (s.regPut64 w lo (v % 2 ^ 32 * 2 ^ 32 + low)).setHeld w lo none
  else s
/-- A write of any register; whether it was taken. -/
def State.writeReg (s : State) (w : RegBy) (a v : Nat) : Bool × State :=
  if regPair w a then (true, s.writeLo w a v)
  else if regHi w a then (true, s.writeHi w (a - pairStep w) v)
  else s.regPut w a v

/-- Is an access one of 32 aligned bits (R15)? Those of cores and of the Fold always are. -/
def regAccess (w : RegBy) (a bytes : Nat) : Bool := match w with | .host _ => bytes == 4 && a % 4 == 0 | _ => true

/-- REGISTER_WRITE. -/
def execRegisterWrite (by_ : RegBy) (addr : BitVec 32) (bytes : Fin 65) (v : BitVec 32) (s : State) : Res :=
  .next (if regAccess by_ addr.toNat bytes then (s.writeReg by_ addr.toNat v.toNat).2 else s)
/-- REG64_LO_READ; a read of any other register is served with it. An access that is not one of 32 aligned bits answers all ones. -/
def execReg64LoRead (by_ : RegBy) (addr : BitVec 32) (bytes : Fin 65) (s : State) : Res :=
  if regAccess by_ addr.toNat bytes then
    let (v, s) := s.readReg by_ addr.toNat
    .next (s.emit (.regRead (readerNum by_) (regShown by_ addr.toNat) v))
  else .next (s.emit (.regRead (readerNum by_) (regShown by_ addr.toNat) (2 ^ (8 * bytes.val) - 1)))
/-- REG64_LO_WRITE. -/
def execReg64LoWrite (by_ : RegBy) (addr v : BitVec 32) (s : State) : Res :=
  .next (if regPair by_ addr.toNat then s.writeLo by_ addr.toNat v.toNat else s)
/-- REG64_HI_WRITE. -/
def execReg64HiWrite (by_ : RegBy) (addr v : BitVec 32) (s : State) : Res :=
  .next (if regHi by_ addr.toNat then s.writeHi by_ (addr.toNat - pairStep by_) v.toNat else s)

/-! ### System-register instructions (R215, R226, R243) -/

/-- SRR. -/
def execSrr (u : CoreId) (g : Fin 32) (tq : Fin 16) (imm : BitVec 12) (s : State) : Res :=
  s.issue u (sysIssue g 0x00 tq imm.toNat 0 0xFFF) fun s =>
    let (v, s) := s.readReg (.core u) imm.toNat
    s.setReg u g v false
/-- SRW: the exception registers are a supervisor's; a write of a zone during a sweep waits at issue. -/
def execSrw (u : CoreId) (g : Fin 32) (tq : Fin 16) (imm : BitVec 12) (s : State) : Res :=
  s.issue u (sysIssue g 0x01 tq imm.toNat 0 0xFFF) fun s =>
    let c := s.core u
    if decide (0x006 ≤ imm.toNat) && decide (imm.toNat ≤ 0x00C) && !c.supervisor then .raise s 2 (encSys g 0x01 tq imm.toNat)
    else poisonOf c [g] (match s.writeReg (.core u) imm.toNat (c.gr g % 2 ^ 32) with
      | (true, s) => .done s
      | (false, s) => .wait s) s

/-! ### Register messages (R336) -/

/-- Does the register of a node answer: the Fold works, and the node's region is not dead? -/
def State.nodeAnswers (s : State) (node : Fin 672) : Bool :=
  s.foldAlive && !s.org.dead.contains (regionOf (if node.val < 576 then node.val else edgeTile node))
/-- REG_READ: the register is read at its node, and the answer is on its way. -/
def execRegRead (node : Fin 672) (addr : BitVec 16) (s : State) : Res :=
  if !s.nodeAnswers node then .next s
  else
    let (v, s) := s.readReg (.fold node) addr.toNat
    .next { s with net := { s.net with regData := s.net.regData ++ [{ node := node, addr := addr.toNat, data := v }] } }
/-- REG_WRITE. -/
def execRegWrite (node : Fin 672) (addr : BitVec 16) (v : BitVec 32) (s : State) : Res :=
  .next (if s.nodeAnswers node then (s.writeReg (.fold node) addr.toNat v.toNat).2 else s)
/-- REG_DATA: the oldest answer reaches the Fold. -/
def execRegData (s : State) : Res :=
  match s.net.regData with
  | [] => .next s
  | d :: rest => .next ({ s with net := { s.net with regData := rest } }.emit (.regRead 0xF01D (d.node * 2 ^ 16 + d.addr) d.data))

end Sys2Proof.Machine
end

