-- ==== Sys2Proof/Machine/Ticks.lean ====
section
/-! DEFINITION. The tick of a tile's region clock as its arrays, cores and transfer engine see it (R59, R61, R74, R75, R247, R408). -/
namespace Sys2Proof.Machine

/-- The tick counts of the cores of a tile whose job is resident and not frozen (R247). -/
def State.coreTicks (s : State) (t : Nat) : State :=
  let P := s.paddock (s.tag t)
  if P.resident.isSome && !P.frozen then s.modTile t fun T => { T with
      core0 := { T.core0 with ticks := (T.core0.ticks + 1) % 2 ^ 64 }
      core1 := { T.core1 with ticks := (T.core1.ticks + 1) % 2 ^ 64 } }
  else s

/-- ARRAY_TICK: upsets of the tick are planted, then the arrays, the counts, the engine and the escape
answer buffer move on. -/
def execArrayTick (t : TileIx) (upsets : List Upset) (s : State) : Res :=
  let s := upsets.foldl (fun s u => s.plant t u) s
  .next (if s.ticking t then (((s.arrayTick t).coreTicks t).engine t).drainEscape t else s)

end Sys2Proof.Machine
end

