-- ==== Sys2Proof/Machine/Vector.lean ====
section
/-! DEFINITION. Vector instructions of the tidy cores: element operations, conversions, permutations, reductions, loads and
stores, predicates (R200, R201, R207, R218-R222). -/
namespace Sys2Proof.Machine

/-! ### Element types (R207) -/

def etWidth : Nat → Nat
  | 0 => 8 | 1 => 16 | 2 => 32 | 3 => 64 | 4 => 16 | 5 => 32 | _ => 64
def etLanes (et : Nat) : Nat := 512 / etWidth et
def etInt (et : Nat) : Bool := decide (et < 4)
def etFloat (et : Nat) : Bool := decide (4 ≤ et) && decide (et < 7)
def etFmt : Nat → FFmt
  | 4 => bf16 | 5 => fp32 | _ => fp64

/-- Element `i` of a vector register, `w` bits wide. -/
def Core.el (c : Core) (r w i : Nat) : Nat := fld (c.vr r) (w * i) w
/-- Poison of the lane that holds it. -/
def Core.elBad (c : Core) (r w i : Nat) : Bool := c.vBad r (w * i / 64)

/-- Writes element values: each with its index and whether a source of it was poisoned; elements not listed stay. A lane is
poisoned by any poisoned element it receives, and keeps its mark while part of it stays (R200, R201). `bitsTotal` is where the
written surface ends; bits above it become zero where `fill` is set. -/
def Core.putEls (c : Core) (vd w n : Nat) (fill : Bool) (l : List (Nat × Nat × Bool)) : Core :=
  let v := l.foldl (fun v (e : Nat × Nat × Bool) => setFld v (w * e.1) w e.2.1) (if fill then fld (c.vr vd) 0 (w * n) else c.vr vd)
  let stays := (upto 0 n).filter fun i => !(l.any fun e => e.1 == i)
  let in_ := fun (i k : Nat) => decide (w * i < 64 * k + 64) && decide (64 * k < w * i + w)
  c.setV vd v fun k => (l.any fun e => e.2.2 && in_ e.1 k) || (c.vBad vd k && stays.any fun i => in_ i k)

/-- Enabled elements of a predicate. -/
def Core.enabled (c : Core) (p n : Nat) : List Nat := (upto 0 n).filter fun i => bit (c.pr p) i

/-- The issue of a V-format instruction. -/
def vIssue (op vd va vb p et funct : Nat) (bad : Bool) (gs vs : List Nat) (level : Nat := 0x200) : Issue :=
  { word := encV op vd va vb p et funct, bad := bad, gs := gs, vs := vs, level := level }

/-- An element-wise instruction: each enabled element of vd from elements of va, vb and vd itself where read. -/
def State.vMap (s : State) (u : CoreId) (vd va vb p et : Nat) (two three : Bool) (f : Core → Nat → Nat → Nat → Nat × FFlags) : CoreRes :=
  let c := s.core u
  let w := etWidth et
  let rs := (c.enabled p (etLanes et)).map fun i =>
    let r := f c (c.el va w i) (c.el vb w i) (c.el vd w i)
    (i, r, c.elBad va w i || (two && c.elBad vb w i) || (three && c.elBad vd w i))
  .done (s.modCore u fun c => (rs.foldl (fun c r => c.raiseFlags r.2.1.2) c).putEls vd w (etLanes et) false (rs.map fun r => (r.1, r.2.1.1, r.2.2)))

/-! ### Integer (R218) -/

/-- A signed or unsigned value held to a range. -/
def clampI (lo hi v : Int) : Int := max lo (min hi v)
/-- VINT by funct on elements of `w` bits. -/
def vintOp (w f a b : Nat) : Nat :=
  let x := sext w a
  let y := sext w b
  let shift := fun (kind : Nat) (r : Nat) => if b < w then r else Config.wideShift kind w a b % 2 ^ w
  match f with
  | 0x00 => (a + b) % 2 ^ w
  | 0x01 => wrap w ((a : Int) - b)
  | 0x02 => a * b % 2 ^ w
  | 0x03 => wrap w (x * y / 2 ^ w)
  | 0x04 => a * b / 2 ^ w
  | 0x05 => if x < y then a else b
  | 0x06 => if x < y then b else a
  | 0x07 => min a b
  | 0x08 => max a b
  | 0x09 => a &&& b
  | 0x0A => a ||| b
  | 0x0B => a ^^^ b
  | 0x0C => shift 0 (a * 2 ^ (b % 64) % 2 ^ w)
  | 0x0D => shift 1 (a / 2 ^ (b % 64))
  | 0x0E => shift 2 (wrap w (x / 2 ^ (b % 64)))
  | 0x0F => wrap w (clampI (-2 ^ (w - 1)) (2 ^ (w - 1) - 1) (x + y))
  | 0x10 => wrap w (clampI (-2 ^ (w - 1)) (2 ^ (w - 1) - 1) (x - y))
  | _ => wrap w x.natAbs

def execVint (u : CoreId) (vd va vb : Fin 32) (p : Fin 8) (et : Fin 8) (funct : Fin 32) (s : State) : Res :=
  s.issue u (vIssue 0x10 vd va vb p et funct (!etInt et || decide (funct.val > 0x11) || (funct == 0x11 && vb != 0)) [] [vd, va, vb]) fun s =>
    s.vMap u vd va vb p et (funct != 0x11) false fun _ a b _ => (vintOp (etWidth et) funct a b, {})

/-! ### Floating point (R218) -/

/-- Functs of VFP that read vb; VFMA and VFNMA read vd too. -/
def vfpTwo (f : Nat) : Bool := f != 0x06 && f != 0x09 && f != 0x0A
def execVfp (u : CoreId) (vd va vb : Fin 32) (p : Fin 8) (et : Fin 8) (funct : Fin 32) (s : State) : Res :=
  s.issue u (vIssue 0x11 vd va vb p et funct (!etFloat et || decide (funct.val > 0x0B)) [] [vd, va, vb]) fun s =>
    s.vMap u vd va vb p et (vfpTwo funct) (funct == 0x03 || funct == 0x04) fun c a b d => fpOp (etFmt et) c.rm funct a b d

/-! ### Compares (R201, R218) -/

def vcmpKnown (f : Nat) : Bool := decide (f ≤ 5) || (decide (8 ≤ f) && decide (f ≤ 0xB))
/-- One compare; integer compares read the bits of any type. -/
def vcmpOp (et f a b : Nat) : Bool × FFlags :=
  let w := etWidth et
  match f with
  | 0 => (a == b, {})
  | 1 => (a != b, {})
  | 2 => (decide (sext w a < sext w b), {})
  | 3 => (decide (sext w a ≤ sext w b), {})
  | 4 => (decide (a < b), {})
  | 5 => (decide (a ≤ b), {})
  | f => fpCmp (etFmt et) (f - 8) a b

def execVcmp (u : CoreId) (vd va vb : Fin 32) (p : Fin 8) (et : Fin 8) (funct : Fin 32) (s : State) : Res :=
  let bad := et == 7 || !vcmpKnown funct || decide (vd.val ≥ 8) || (decide (funct.val ≥ 8) && !etFloat et)
  s.issue u (vIssue 0x12 vd va vb p et funct bad [] [va, vb]) fun s =>
    let c := s.core u
    let w := etWidth et
    let en := c.enabled p (etLanes et)
    match ([va.val, vb.val] : List Nat).find? fun r => en.any fun i => c.elBad r w i with
    | some r => .raise s 6 (32 + r)
    | none =>
      let rs := en.map fun i => (i, vcmpOp et funct (c.el va w i) (c.el vb w i))
      .done (s.modCore u fun c => (rs.foldl (fun c r => c.raiseFlags r.2.2) c).setP vd (natSum (rs.map fun r => b01 r.2.1 * 2 ^ r.1)))

/-! ### Conversions (R220) -/

def vcvtKnown (f : Nat) : Bool := decide (f ≤ 6) || (decide (8 ≤ f) && decide (f ≤ 0xC)) || f == 0x10 || (decide (0x18 ≤ f) && decide (f ≤ 0x1B))
/-- Width of a conversion's destination. -/
def vcvtWidth (et f : Nat) : Nat :=
  if f ≤ 6 then etWidth f else if f ≤ 9 then 8 else if f ≤ 0xB then 6 else if f = 0xC then 4 else if f = 0x10 then etWidth et else etWidth (f - 0x18)
/-- An integer destination: saturation sets OF and NX (R220); from a float it sets NV too, as NaN does (R217). -/
def toIntSat (rm : RM) (w : Nat) (float : Bool) (v : FV) : Nat × FFlags :=
  let lo : Int := -2 ^ (w - 1)
  let hi : Int := 2 ^ (w - 1) - 1
  let (i, g) := v.toInt rm lo hi
  let sat := g.nv && !v.isNan
  (wrap w i, if sat then { nv := float, of := true, nx := true } else g)
/-- VEXPO (R220). -/
def vexpo (w : Nat) : FV → Nat × FFlags
  | .nan | .inf _ => (2 ^ (w - 1) - 1, { nv := true })
  | .fin _ m e => if m = 0 then (2 ^ (w - 1), {}) else (wrap w ((Nat.log2 m : Int) + e), {})
/-- One element converted. -/
def vcvtOp (rm : RM) (et f a : Nat) : Nat × FFlags :=
  let v := if etInt et then FV.ofInt (sext (etWidth et) a) else (etFmt et).decode a
  let snan := etFloat et && (etFmt et).isSnan a
  if f < 4 then toIntSat rm (etWidth f) (etFloat et) v
  else if f < 7 then withNv ((etFmt f).encode rm v) snan
  else match f with
    | 0x08 => encodeSmall 4 3 7 0x7E 0x7F v
    | 0x09 => encodeSmall 5 2 15 0x7B 0x7F v
    | 0x0A => encodeSmall 3 2 3 0x1F 0 v
    | 0x0B => encodeSmall 2 3 1 0x1F 0 v
    | 0x0C => encodeSmall 2 1 1 0x07 0 v
    | 0x10 => vexpo (etWidth et) v
    | f => toIntSat .towardZero (etWidth (f - 0x18)) (etFloat et) v

def vcvtLevel (f : Nat) : Nat := if f = 0x0A ∨ f = 0x0B ∨ f = 0x0C then 0x202 else if f = 0x10 then 0x201 else 0x200
def execVcvt (u : CoreId) (vd va vb : Fin 32) (p : Fin 8) (et : Fin 8) (funct : Fin 32) (s : State) : Res :=
  s.issue u (vIssue 0x13 vd va vb p et funct (et == 7 || !vcvtKnown funct) [] [vd, va] (vcvtLevel funct)) fun s =>
    let c := s.core u
    let w := etWidth et
    let w' := vcvtWidth et funct
    let n := min (etLanes et) (512 / w')
    let rs := (c.enabled p n).map fun i => (i, vcvtOp c.rm et funct (c.el va w i), c.elBad va w i)
    .done (s.modCore u fun c => (rs.foldl (fun c r => c.raiseFlags r.2.1.2) c).putEls vd w' n true (rs.map fun r => (r.1, r.2.1.1, r.2.2)))

/-! ### Permutations and moves (R218) -/

/-- The elements that VCOMPRESS and VEXPAND pair: destination and source. -/
def packPairs (en : List Nat) : List (Nat × Nat) := (upto 0 en.length).zip en

/-- The element a permutation puts at `i`: its value and whether a source is poisoned. -/
def vpermEl (c : Core) (f va vb w n : Nat) (en : List Nat) (i : Nat) : Nat × Bool :=
  let el := fun r k => (c.el r w k, c.elBad r w k)
  let amt := c.gr vb % n
  match f with
  | 0 => (c.gr va % 2 ^ w, c.gBad va)
  | 1 => let k := c.el vb w i % n; ((el va k).1, (el va k).2 || c.elBad vb w i)
  | 2 => if i < amt then (0, c.gBad vb) else ((el va (i - amt)).1, (el va (i - amt)).2 || c.gBad vb)
  | 3 => if i + amt ≥ n then (0, c.gBad vb) else ((el va (i + amt)).1, (el va (i + amt)).2 || c.gBad vb)
  | 4 => match en[i]? with | some k => el va k | none => (0, false)
  | 5 => el va (en.idxOf i)
  | 6 => el (if i % 2 = 0 then va else vb) (i / 2)
  | _ => el (if i % 2 = 0 then va else vb) (n / 2 + i / 2)

def execVperm (u : CoreId) (vd va vb : Fin 32) (p : Fin 8) (et : Fin 8) (funct : Fin 32) (s : State) : Res :=
  s.issue u (vIssue 0x14 vd va vb p et funct (et == 7 || decide (funct.val > 7)) [va, vb] [vd, va, vb]) fun s =>
    let c := s.core u
    let w := etWidth et
    let n := etLanes et
    let en := c.enabled p n
    let out := if funct = 4 then upto 0 n else en
    .done (s.modCore u fun c => c.putEls vd w n false (out.map fun i => (i, vpermEl c funct va vb w n en i)))

/-- VINS writes an element that its predicate enables; VEXT of an element that is disabled writes nothing (R200). -/
def execVmov (u : CoreId) (vd va vb : Fin 32) (p : Fin 8) (et : Fin 8) (funct : Fin 32) (s : State) : Res :=
  s.issue u (vIssue 0x18 vd va vb p et funct (et == 7 || decide (funct.val > 1)) [vd, va, vb] [vd, va]) fun s =>
    let c := s.core u
    let w := etWidth et
    let i := c.gr vb % etLanes et
    if !bit (c.pr p) i then .done s
    else if funct = 0 then .done (s.modCore u fun c => c.putEls vd w (etLanes et) false [(i, c.gr va % 2 ^ w, c.gBad va || c.gBad vb)])
    else s.setReg u vd (c.el va w i) (c.elBad va w i || c.gBad vb)

/-! ### Reductions (R219) -/

/-- One level of the tree: elements 2i and 2i+1 combined; an absent operand passes the other. -/
def treeLevel (g : Nat → Nat → Nat × FFlags) : List (Option Nat) → List (Option Nat) × FFlags
  | a :: b :: t =>
    let (r, f) := treeLevel g t
    match a, b with
    | some x, some y => let (v, h) := g x y; (some v :: r, h.or f)
    | some x, none => (some x :: r, f)
    | none, y => (y :: r, f)
  | l => (l, {})
/-- The tree over `2^k` elements. -/
def tree (g : Nat → Nat → Nat × FFlags) : Nat → List (Option Nat) → Option Nat × FFlags
  | 0, l => (l.head?.join, {})
  | k + 1, l => let (l, f) := treeLevel g l; let (r, h) := tree g k l; (r, f.or h)

def vredKnown (f : Nat) : Bool := decide (f ≤ 4) || (decide (8 ≤ f) && decide (f ≤ 0xA))
/-- How a reduction combines two elements. -/
def vredOp (rm : RM) (et f a b : Nat) : Nat × FFlags :=
  if f = 0 then (vintOp (etWidth et) 0 a b, {})
  else if f ≤ 4 then (vintOp (etWidth et) (f + 4) a b, {})
  else fpOp (etFmt et) rm (if f = 8 then 0 else if f = 9 then 7 else 8) a b 0

def execVred (u : CoreId) (vd va vb : Fin 32) (p : Fin 8) (et : Fin 8) (funct : Fin 32) (s : State) : Res :=
  let bad := !vredKnown funct || (if funct.val < 8 then !etInt et else !etFloat et)
  s.issue u (vIssue 0x15 vd va vb p et funct bad [] [vd, va]) fun s =>
    let c := s.core u
    let w := etWidth et
    let n := etLanes et
    let en := c.enabled p n
    let (r, g) := tree (vredOp c.rm et funct) (Nat.log2 n) ((upto 0 n).map fun i => if bit (c.pr p) i then some (c.el va w i) else none)
    let bad := en.any fun i => c.elBad va w i
    .done (s.modCore u fun c => (c.raiseFlags g).setV vd (r.getD 0) fun k => k == 0 && bad)

/-! ### Special functions (R221) -/

/-- A special function of one element; BF16 is computed as FP32 and rounded once. -/
def vspecOp (rm : RM) (et f a : Nat) : Nat × FFlags :=
  let x := if et = 4 then a * 2 ^ 16 else a
  let r := special32 f x
  let e := Config.specialFlags f x
  let g : FFlags := { nv := bit e 4, dz := bit e 3, of := bit e 2, uf := bit e 1, nx := bit e 0 }
  if et = 4 then let (v, h) := bf16.encode rm (fp32.decode r); (v, g.or h) else (r, g)

def execVspec (u : CoreId) (vd va vb : Fin 32) (p : Fin 8) (et : Fin 8) (funct : Fin 32) (s : State) : Res :=
  let level := if funct = 2 ∨ funct = 3 then 0x201 else 0x200
  s.issue u (vIssue 0x1A vd va vb p et funct ((et != 4 && et != 5) || decide (funct.val > 4)) [] [vd, va] level) fun s =>
    s.vMap u vd va vb p et false false fun c a _ _ => vspecOp c.rm et funct a

/-! ### Predicates (R200, R218) -/

def predKnown (f : Nat) : Bool := decide (f ≤ 4) || (decide (8 ≤ f) && decide (f ≤ 0xB))
/-- The fields of a PRED instruction that break R218: a p field with [4:3] set, or an unused field that is not zero. -/
def predBad (f vd va vb : Nat) : Bool :=
  let pd := f != 9 && f != 0xB
  let pa := f != 8 && f != 0xA
  (pd && decide (vd ≥ 8)) || (pa && decide (va ≥ 8)) || (if f < 4 then decide (vb ≥ 8) else vb != 0)
/-- A p result. -/
def predOp (f a b g : Nat) : Nat :=
  match f with
  | 0 => a &&& b
  | 1 => a ||| b
  | 2 => a ^^^ b
  | 3 => a &&& (2 ^ 64 - 1 - b)
  | 4 => 2 ^ 64 - 1 - a
  | 8 => g
  | _ => 2 ^ min g 64 - 1

def execPred (u : CoreId) (vd va vb : Fin 32) (p : Fin 8) (et : Fin 8) (funct : Fin 32) (s : State) : Res :=
  let f := funct.val
  s.issue u (vIssue 0x1B vd va vb p et f (et != 0 || !predKnown f || predBad f vd va vb) (if f = 8 ∨ f = 0xA then [va.val] else [vd.val]) []) fun s =>
    let c := s.core u
    let m := c.pr p
    if f = 9 then s.setReg u vd (c.pr va &&& m) false
    else if f = 0xB then s.setReg u vd (popCount (c.pr va &&& m) 64) false
    else
      let r := predOp f (c.pr (va % 8)) (c.pr vb) (c.gr va)
      let k := CoreRes.done (s.modCore u fun c => c.setP vd ((r &&& m) ||| (c.pr vd &&& (2 ^ 64 - 1 - m))))
      if f = 8 then poisonOf c [va] k s else k

/-! ### Vector loads and stores (R203, R222) -/

/-- The enabled byte runs of a unit-stride or quad access: groups of `g` bytes, joined where they touch. -/
def groupRuns (pred n g : Nat) : List (Nat × Nat) :=
  ((upto 0 (n / g)).filter fun i => bit pred i).foldl (fun (acc : List (Nat × Nat)) i =>
    match acc with
    | (o, l) :: t => if o + l = i * g then (o, l + g) :: t else (i * g, g) :: acc
    | [] => [(i * g, g)]) [] |>.reverse
/-- Alignment of unit-stride and quad accesses outside private memory. -/
def vecMisaligned (mode a : Nat) (store : Bool) : Bool :=
  match caddr a (if mode = 0 then 64 else 16) with
  | .spd _ | .virt => a % (if mode = 0 ∧ store then 32 else 8) != 0
  | _ => false
/-- The elements of a strided or indexed access. -/
def vecAccs (c : Core) (ra rb p mode esz : Nat) : List CAcc :=
  let w := 2 ^ esz
  (c.enabled p (64 / w)).map fun i =>
    let off := if mode = 1 then i * c.gr rb else c.el rb (8 * w) i
    ⟨(c.gr ra + off) % 2 ^ 64, w, i * w⟩
/-- Poison in the address of a vector access: none, or the register's number (R201, R227). -/
def vecAddrBad (c : Core) (ra rb p mode esz : Nat) : Option Nat :=
  let w := 2 ^ esz
  let en := c.enabled p (if mode = 3 then 2 else 64 / w)
  if en.isEmpty then none
  else if c.gBad ra then some ra
  else if mode = 1 ∧ c.gBad rb then some rb
  else if mode = 2 ∧ en.any (fun i => c.elBad rb (8 * w) i) then some (32 + rb)
  else none
def vmIssue (op vd ra rb p mode esz low : Nat) : Issue :=
  { word := encVM op vd ra rb p mode esz low, bad := low != 0 || (mode == 3 && esz != 3), gs := if mode = 1 then [ra, rb] else [ra],
    vs := if mode = 2 then [vd, rb] else [vd] }

def execVld (u : CoreId) (vd ra rb : Fin 32) (p : Fin 8) (mode : Fin 4) (esz : Fin 4) (low : Fin 16) (s : State) : Res :=
  s.issue u (vmIssue 0x16 vd ra rb p mode esz low) fun s =>
    let c := s.core u
    match vecAddrBad c ra rb p mode esz with
    | some r => .raise s 6 r
    | none =>
      if mode = 1 ∨ mode = 2 then s.loadV u vd (vecAccs c ra rb p mode esz) false
      else
        let a := c.gr ra
        let runs := groupRuns (c.pr p) (if mode = 0 then 64 else 16) (2 ^ esz.val)
        if runs.isEmpty then .done s
        else if vecMisaligned mode a false then .raise s 4 a
        else s.loadV u vd (runs.map fun r => ⟨(a + r.1) % 2 ^ 64, r.2, r.1⟩) (mode == 0)

/-- Bytes to store joined into stores that lie within aligned units of `w` bytes. -/
def storeRuns (w : Nat) (l : List (Nat × Byte × Bool)) : List CStore :=
  (l.foldl (fun (acc : List CStore) (e : Nat × Byte × Bool) =>
    match acc with
    | x :: t => if x.addr + x.bytes.length = e.1 ∧ e.1 % w ≠ 0 then { x with bytes := x.bytes ++ [e.2.1], poison := x.poison || e.2.2 } :: t
                else ⟨e.1, [e.2.1], e.2.2⟩ :: acc
    | [] => [⟨e.1, [e.2.1], e.2.2⟩]) []).reverse

def execVst (u : CoreId) (vs ra rb : Fin 32) (p : Fin 8) (mode : Fin 4) (esz : Fin 4) (low : Fin 16) (s : State) : Res :=
  s.issue u (vmIssue 0x17 vs ra rb p mode esz low) fun s =>
    let c := s.core u
    match vecAddrBad c ra rb p mode esz with
    | some r => .raise s 6 r
    | none =>
      if mode = 1 ∨ mode = 2 then
        s.storeC u ((vecAccs c ra rb p mode esz).map fun e => ⟨e.addr, toBytes (fld (c.vr vs) (8 * e.pos) (8 * e.len)) e.len, c.vBad vs (e.pos / 8)⟩) false
      else
        let a := c.gr ra
        let runs := groupRuns (c.pr p) (if mode = 0 then 64 else 16) (2 ^ esz.val)
        if runs.isEmpty then .done s
        else if vecMisaligned mode a true then .raise s 4 a
        else
          let unit := match caddr a 1 with | .priv _ => 8 | _ => if mode = 0 then 32 else if a % 16 = 0 then 16 else 8
          let bytes := runs.flatMap fun r => (upto r.1 r.2).map fun k => ((a + k) % 2 ^ 64, BitVec.ofNat 8 (fld (c.vr vs) (8 * k) 8), c.vBad vs (k / 8))
          s.storeC u (storeRuns unit bytes) true

end Sys2Proof.Machine
end

