-- ==== Sys2Proof/Machine/Dispatch.lean ====
section
/-! DEFINITION. One arm per command: a direct call of its meaning. -/
namespace Sys2Proof.Machine

/-- The effect of a command on everything but the queue. -/
def exec (i : Instr) (s : State) : Host.Outcome State Fault Refusal :=
  match i with
  | .registerWrite by_ addr bytes v => Sys2Proof.Machine.execRegisterWrite by_ addr bytes v s
  | .reg64LoRead by_ addr bytes => Sys2Proof.Machine.execReg64LoRead by_ addr bytes s
  | .reg64LoWrite by_ addr v => Sys2Proof.Machine.execReg64LoWrite by_ addr v s
  | .reg64HiWrite by_ addr v => Sys2Proof.Machine.execReg64HiWrite by_ addr v s
  | .clearingEnd region tile => Sys2Proof.Machine.execClearingEnd region tile s
  | .arrayTick t upsets => Sys2Proof.Machine.execArrayTick t upsets s
  | .columnBypassApply t array column => Sys2Proof.Machine.execColumnBypassApply t array column s
  | .feederEntry t granted => Sys2Proof.Machine.execFeederEntry t granted s
  | .loaderCommit t => Sys2Proof.Machine.execLoaderCommit t s
  | .drainRead t granted => Sys2Proof.Machine.execDrainRead t granted s
  | .alu u rd ra rb p funct => Sys2Proof.Machine.execAlu u rd ra rb p funct s
  | .addi u rd ra imm => Sys2Proof.Machine.execAddi u rd ra imm s
  | .andi u rd ra imm => Sys2Proof.Machine.execAndi u rd ra imm s
  | .ori u rd ra imm => Sys2Proof.Machine.execOri u rd ra imm s
  | .xori u rd ra imm => Sys2Proof.Machine.execXori u rd ra imm s
  | .shi u rd ra imm => Sys2Proof.Machine.execShi u rd ra imm s
  | .lui u rd ra imm => Sys2Proof.Machine.execLui u rd ra imm s
  | .slti u rd ra imm => Sys2Proof.Machine.execSlti u rd ra imm s
  | .load u rd ra width off => Sys2Proof.Machine.execLoad u rd ra width off s
  | .store u rs ra width off => Sys2Proof.Machine.execStore u rs ra width off s
  | .amo u rd ra rb p funct => Sys2Proof.Machine.execAmo u rd ra rb p funct s
  | .fpu u rd ra rb p funct => Sys2Proof.Machine.execFpu u rd ra rb p funct s
  | .br u ra rb cond off => Sys2Proof.Machine.execBr u ra rb cond off s
  | .jal u rd off => Sys2Proof.Machine.execJal u rd off s
  | .jalr u rd ra imm => Sys2Proof.Machine.execJalr u rd ra imm s
  | .srr u g tq imm => Sys2Proof.Machine.execSrr u g tq imm s
  | .srw u g tq imm => Sys2Proof.Machine.execSrw u g tq imm s
  | .fence u g tq imm => Sys2Proof.Machine.execFence u g tq imm s
  | .ecall u g tq imm => Sys2Proof.Machine.execEcall u g tq imm s
  | .ebreak u g tq imm => Sys2Proof.Machine.execEbreak u g tq imm s
  | .eret u g tq imm => Sys2Proof.Machine.execEret u g tq imm s
  | .pause u g tq imm => Sys2Proof.Machine.execPause u g tq imm s
  | .exit u g tq imm => Sys2Proof.Machine.execExit u g tq imm s
  | .tld u g tq imm => Sys2Proof.Machine.execTld u g tq imm s
  | .tst u g tq imm => Sys2Proof.Machine.execTst u g tq imm s
  | .trd u g tq imm => Sys2Proof.Machine.execTrd u g tq imm s
  | .twr u g tq imm => Sys2Proof.Machine.execTwr u g tq imm s
  | .qmov u g tq imm => Sys2Proof.Machine.execQmov u g tq imm s
  | .vint u vd va vb p et funct => Sys2Proof.Machine.execVint u vd va vb p et funct s
  | .vfp u vd va vb p et funct => Sys2Proof.Machine.execVfp u vd va vb p et funct s
  | .vcmp u vd va vb p et funct => Sys2Proof.Machine.execVcmp u vd va vb p et funct s
  | .vcvt u vd va vb p et funct => Sys2Proof.Machine.execVcvt u vd va vb p et funct s
  | .vperm u vd va vb p et funct => Sys2Proof.Machine.execVperm u vd va vb p et funct s
  | .vred u vd va vb p et funct => Sys2Proof.Machine.execVred u vd va vb p et funct s
  | .vld u vd ra rb p mode esz low => Sys2Proof.Machine.execVld u vd ra rb p mode esz low s
  | .vst u vs ra rb p mode esz low => Sys2Proof.Machine.execVst u vs ra rb p mode esz low s
  | .vmov u vd va vb p et funct => Sys2Proof.Machine.execVmov u vd va vb p et funct s
  | .vspec u vd va vb p et funct => Sys2Proof.Machine.execVspec u vd va vb p et funct s
  | .pred u vd va vb p et funct => Sys2Proof.Machine.execPred u vd va vb p et funct s
  | .li u rd imm => Sys2Proof.Machine.execLi u rd imm s
  | .laddi u rd imm => Sys2Proof.Machine.execLaddi u rd imm s
  | .ljal u rd imm => Sys2Proof.Machine.execLjal u rd imm s
  | .mload u rd ra td z p q funct => Sys2Proof.Machine.execMload u rd ra td z p q funct s
  | .mpass u rd ra td z p q funct => Sys2Proof.Machine.execMpass u rd ra td z p q funct s
  | .mdrain u rd ra td z p q funct => Sys2Proof.Machine.execMdrain u rd ra td z p q funct s
  | .mmode u rd ra rb p q funct => Sys2Proof.Machine.execMmode u rd ra rb p q funct s
  | .mwait u rd ra rb p q => Sys2Proof.Machine.execMwait u rd ra rb p q s
  | .mpoll u rd ra rb p q => Sys2Proof.Machine.execMpoll u rd ra rb p q s
  | .mwaitall u rd ra rb p q => Sys2Proof.Machine.execMwaitall u rd ra rb p q s
  | .xopen u rd ra rb p q => Sys2Proof.Machine.execXopen u rd ra rb p q s
  | .xclose u rd ra rb p q => Sys2Proof.Machine.execXclose u rd ra rb p q s
  | .xcopyGet u rd ra td z p q funct => Sys2Proof.Machine.execXcopyGet u rd ra td z p q funct s
  | .xcopyPut u rd ra td z p q funct => Sys2Proof.Machine.execXcopyPut u rd ra td z p q funct s
  | .xput u rd ra rb p q funct => Sys2Proof.Machine.execXput u rd ra rb p q funct s
  | .packNm u rd ra td z p q funct => Sys2Proof.Machine.execPackNm u rd ra td z p q funct s
  | .unpackNm u rd ra td z p q funct => Sys2Proof.Machine.execUnpackNm u rd ra td z p q funct s
  | .packBcr u rd ra td z p q funct => Sys2Proof.Machine.execPackBcr u rd ra td z p q funct s
  | .unpackBcrGather u rd ra td z p q funct => Sys2Proof.Machine.execUnpackBcrGather u rd ra td z p q funct s
  | .unpackBcrExpand u rd ra td z p q funct => Sys2Proof.Machine.execUnpackBcrExpand u rd ra td z p q funct s
  | .xsend u rd ra td z p q funct => Sys2Proof.Machine.execXsend u rd ra td z p q funct s
  | .xwait u rd ra rb p q => Sys2Proof.Machine.execXwait u rd ra rb p q s
  | .xpoll u rd ra rb p q => Sys2Proof.Machine.execXpoll u rd ra rb p q s
  | .xfence u rd ra rb p q => Sys2Proof.Machine.execXfence u rd ra rb p q s
  | .xwaitall u rd ra rb p q => Sys2Proof.Machine.execXwaitall u rd ra rb p q s
  | .dlayer u rd ra rb p q => Sys2Proof.Machine.execDlayer u rd ra rb p q s
  | .drelease u rd ra rb p q => Sys2Proof.Machine.execDrelease u rd ra rb p q s
  | .dstep u rd ra rb p q => Sys2Proof.Machine.execDstep u rd ra rb p q s
  | .dgate u rd ra rb p q => Sys2Proof.Machine.execDgate u rd ra rb p q s
  | .bundleWaitExpiry r k => Sys2Proof.Machine.execBundleWaitExpiry r k s
  | .dflush u rd ra rb p q => Sys2Proof.Machine.execDflush u rd ra rb p q s
  | .dspill u rd ra rb p q => Sys2Proof.Machine.execDspill u rd ra rb p q s
  | .dreturn u rd ra rb p q => Sys2Proof.Machine.execDreturn u rd ra rb p q s
  | .spillWriteDone r k token rank => Sys2Proof.Machine.execSpillWriteDone r k token rank s
  | .dspBalReset u => Sys2Proof.Machine.execDspBalReset u s
  | .harm u rd ra rb p q => Sys2Proof.Machine.execHarm u rd ra rb p q s
  | .hclose u rd ra rb p q => Sys2Proof.Machine.execHclose u rd ra rb p q s
  | .hpass u rd ra rb p q funct => Sys2Proof.Machine.execHpass u rd ra rb p q funct s
  | .hwait u rd ra rb p q => Sys2Proof.Machine.execHwait u rd ra rb p q s
  | .htest u rd ra rb p q => Sys2Proof.Machine.execHtest u rd ra rb p q s
  | .hstat u rd ra rb p q => Sys2Proof.Machine.execHstat u rd ra rb p q s
  | .hurdleArmMessage m => Sys2Proof.Machine.execHurdleArmMessage m s
  | .hurdleContribution m => Sys2Proof.Machine.execHurdleContribution m s
  | .hurdleCompletion m => Sys2Proof.Machine.execHurdleCompletion m s
  | .hurdleNodeUe node => Sys2Proof.Machine.execHurdleNodeUe node s
  | .linkWaitSplit t => Sys2Proof.Machine.execLinkWaitSplit t s
  | .spdPortArbitration t raised => Sys2Proof.Machine.execSpdPortArbitration t raised s
  | .cbFlushTimeout t word => Sys2Proof.Machine.execCbFlushTimeout t word s
  | .spdEccWriteback t word again => Sys2Proof.Machine.execSpdEccWriteback t word again s
  | .spdZoneWrite u n value => Sys2Proof.Machine.execSpdZoneWrite u n value s
  | .zoneSweepRow t => Sys2Proof.Machine.execZoneSweepRow t s
  | .scrubStep t bank => Sys2Proof.Machine.execScrubStep t bank s
  | .zeroFillRow t => Sys2Proof.Machine.execZeroFillRow t s
  | .spdRemoteRead t reader => Sys2Proof.Machine.execSpdRemoteRead t reader s
  | .seqRerunRead t reader => Sys2Proof.Machine.execSeqRerunRead t reader s
  | .write p => Sys2Proof.Machine.execWrite p s
  | .writeAck p => Sys2Proof.Machine.execWriteAck p s
  | .read p => Sys2Proof.Machine.execRead p s
  | .readData p => Sys2Proof.Machine.execReadData p s
  | .droveData p waiting => Sys2Proof.Machine.execDroveData p waiting s
  | .droveAck p => Sys2Proof.Machine.execDroveAck p s
  | .notice p => Sys2Proof.Machine.execNotice p s
  | .memWrite p upsets => Sys2Proof.Machine.execMemWrite p upsets s
  | .memRead p upsets => Sys2Proof.Machine.execMemRead p upsets s
  | .memData p => Sys2Proof.Machine.execMemData p s
  | .memAck p => Sys2Proof.Machine.execMemAck p s
  | .pruneNote p => Sys2Proof.Machine.execPruneNote p s
  | .routerForward t input age p => Sys2Proof.Machine.execRouterForward t input age p s
  | .routerArbitration t out elapsed => Sys2Proof.Machine.execRouterArbitration t out elapsed s
  | .overholdCutoff t out ticks p => Sys2Proof.Machine.execOverholdCutoff t out ticks p s
  | .linkBeatReceive t side result newMs p => Sys2Proof.Machine.execLinkBeatReceive t side result newMs p s
  | .requestTimeout t txn => Sys2Proof.Machine.execRequestTimeout t txn s
  | .busyResend t txn => Sys2Proof.Machine.execBusyResend t txn s
  | .droveInstall t members drove => Sys2Proof.Machine.execDroveInstall t members drove s
  | .droveRemove t drove => Sys2Proof.Machine.execDroveRemove t drove s
  | .droveRebuild tag drove => Sys2Proof.Machine.execDroveRebuild tag drove s
  | .forkBufferSend t branch => Sys2Proof.Machine.execForkBufferSend t branch s
  | .droveBranchPrune t branch p => Sys2Proof.Machine.execDroveBranchPrune t branch p s
  | .regRead node addr => Sys2Proof.Machine.execRegRead node addr s
  | .regWrite node addr v => Sys2Proof.Machine.execRegWrite node addr v s
  | .regData => Sys2Proof.Machine.execRegData s
  | .event place => Sys2Proof.Machine.execEvent place s
  | .faultNote t => Sys2Proof.Machine.execFaultNote t s
  | .preempt t resume => Sys2Proof.Machine.execPreempt t resume s
  | .preemptDone t => Sys2Proof.Machine.execPreemptDone t s
  | .tileReset t => Sys2Proof.Machine.execTileReset t s
  | .regionReset r => Sys2Proof.Machine.execRegionReset r s
  | .power r c => Sys2Proof.Machine.execPower r c s
  | .hurdleCtl node twin broken => Sys2Proof.Machine.execHurdleCtl node twin broken s
  | .table t w => Sys2Proof.Machine.execTable t w s
  | .bankSwitch => Sys2Proof.Machine.execBankSwitch s
  | .telemetry node report => Sys2Proof.Machine.execTelemetry node report s
  | .oscillatorSwitch => Sys2Proof.Machine.execOscillatorSwitch s
  | .transitPllLockTimeout r => Sys2Proof.Machine.execTransitPllLockTimeout r s
  | .regionPllLockTimeout r => Sys2Proof.Machine.execRegionPllLockTimeout r s
  | .clockStretch r amount => Sys2Proof.Machine.execClockStretch r amount s
  | .frequencyChange r => Sys2Proof.Machine.execFrequencyChange r s
  | .frequencyRestart r => Sys2Proof.Machine.execFrequencyRestart r s
  | .calibrationDone t side lam => Sys2Proof.Machine.execCalibrationDone t side lam s
  | .timestampMarker step => Sys2Proof.Machine.execTimestampMarker step s
  | .schGo t => Sys2Proof.Machine.execSchGo t s
  | .schAbort t => Sys2Proof.Machine.execSchAbort t s
  | .abortDrained t => Sys2Proof.Machine.execAbortDrained t s
  | .schLoad t cmd => Sys2Proof.Machine.execSchLoad t cmd s
  | .schLoadDone t => Sys2Proof.Machine.execSchLoadDone t s
  | .schLimitWrite t v => Sys2Proof.Machine.execSchLimitWrite t v s
  | .schDoneRead u => Sys2Proof.Machine.execSchDoneRead u s
  | .scheduleTick t ready written => Sys2Proof.Machine.execScheduleTick t ready written s
  | .scheduledWordArrive t side => Sys2Proof.Machine.execScheduledWordArrive t side s
  | .schStall t => Sys2Proof.Machine.execSchStall t s
  | .walkComplete r ctx page => Sys2Proof.Machine.execWalkComplete r ctx page s
  | .atsTranslationCompletion r ctx page error bytes out read write => Sys2Proof.Machine.execAtsTranslationCompletion r ctx page error bytes out read write s
  | .prgResponse ctx page code => Sys2Proof.Machine.execPrgResponse ctx page code s
  | .atsInvalidateRequest fn tag pasid va bytes => Sys2Proof.Machine.execAtsInvalidateRequest fn tag pasid va bytes s
  | .atsPriDisable fn ats pri => Sys2Proof.Machine.execAtsPriDisable fn ats pri s
  | .mmuSvaWrite pf ctx sva pasid => Sys2Proof.Machine.execMmuSvaWrite pf ctx sva pasid s
  | .mmuInvContext pf ctx => Sys2Proof.Machine.execMmuInvContext pf ctx s
  | .mmuInvRange pf ctx va pages => Sys2Proof.Machine.execMmuInvRange pf ctx va pages s
  | .mmuInvFunction pf => Sys2Proof.Machine.execMmuInvFunction pf s
  | .xtcInvAll t => Sys2Proof.Machine.execXtcInvAll t s
  | .xtcInvRange t va pages => Sys2Proof.Machine.execXtcInvRange t va pages s
  | .invalidationComplete n => Sys2Proof.Machine.execInvalidationComplete n s
  | .faultRecordWrite ctx => Sys2Proof.Machine.execFaultRecordWrite ctx s
  | .fqHeadWrite pf ctx head => Sys2Proof.Machine.execFqHeadWrite pf ctx head s
  | .fqResRetry pf ctx id => Sys2Proof.Machine.execFqResRetry pf ctx id s
  | .fqResFail pf ctx id => Sys2Proof.Machine.execFqResFail pf ctx id s
  | .fltResRetry u id => Sys2Proof.Machine.execFltResRetry u id s
  | .fltResFail u id => Sys2Proof.Machine.execFltResFail u id s
  | .fltNoteRead u => Sys2Proof.Machine.execFltNoteRead u s
  | .fltHeadWrite u head => Sys2Proof.Machine.execFltHeadWrite u head s
  | .saveComplete p => Sys2Proof.Machine.execSaveComplete p s
  | .sliceEnd p => Sys2Proof.Machine.execSliceEnd p s
  | .restoreComplete p control words => Sys2Proof.Machine.execRestoreComplete p control words s
  | .saveAreaRoom p => Sys2Proof.Machine.execSaveAreaRoom p s
  | .hbmScrubStep k upsets own => Sys2Proof.Machine.execHbmScrubStep k upsets own s
  | .migrationStep k upsets => Sys2Proof.Machine.execMigrationStep k upsets s
  | .hbmRefresh k temp => Sys2Proof.Machine.execHbmRefresh k temp s
  | .selfRefreshEntry k => Sys2Proof.Machine.execSelfRefreshEntry k s
  | .selfRefreshExit k => Sys2Proof.Machine.execSelfRefreshExit k s
  | .hbmTrainingDone k saved rate failed => Sys2Proof.Machine.execHbmTrainingDone k saved rate failed s
  | .testStepPart k error => Sys2Proof.Machine.execTestStepPart k error s
  | .stackReset k => Sys2Proof.Machine.execStackReset k s
  | .hbmCeRead k => Sys2Proof.Machine.execHbmCeRead k s
  | .hbmUeRead k => Sys2Proof.Machine.execHbmUeRead k s
  | .fncEnable fn => Sys2Proof.Machine.execFncEnable fn s
  | .fncDisable fn => Sys2Proof.Machine.execFncDisable fn s
  | .flr fn => Sys2Proof.Machine.execFlr fn s
  | .hostLinkDown p => Sys2Proof.Machine.execHostLinkDown p s
  | .hostLinkTrained p width gt => Sys2Proof.Machine.execHostLinkTrained p width gt s
  | .perstNAssert p => Sys2Proof.Machine.execPerstNAssert p s
  | .perstNDeassert p => Sys2Proof.Machine.execPerstNDeassert p s
  | .sqTailDoorbell fn q tail => Sys2Proof.Machine.execSqTailDoorbell fn q tail s
  | .cqHeadDoorbell fn q head => Sys2Proof.Machine.execCqHeadDoorbell fn q head s
  | .deviceRingPoll fn q host => Sys2Proof.Machine.execDeviceRingPoll fn q host s
  | .commandFetch fn q entry failed => Sys2Proof.Machine.execCommandFetch fn q entry failed s
  | .coalesceTimeout fn q => Sys2Proof.Machine.execCoalesceTimeout fn q s
  | .createQueue fn q c => Sys2Proof.Machine.execCreateQueue fn q c s
  | .deleteQueue fn q c => Sys2Proof.Machine.execDeleteQueue fn q c s
  | .allot fn q c => Sys2Proof.Machine.execAllot fn q c s
  | .createContext fn q c => Sys2Proof.Machine.execCreateContext fn q c s
  | .destroyContext fn q c => Sys2Proof.Machine.execDestroyContext fn q c s
  | .createPaddock fn q c => Sys2Proof.Machine.execCreatePaddock fn q c s
  | .growPaddock fn q c => Sys2Proof.Machine.execGrowPaddock fn q c s
  | .shrinkPaddock fn q c => Sys2Proof.Machine.execShrinkPaddock fn q c s
  | .setPaddock fn q c => Sys2Proof.Machine.execSetPaddock fn q c s
  | .replacePaddock fn q c => Sys2Proof.Machine.execReplacePaddock fn q c s
  | .releasePaddock fn q c => Sys2Proof.Machine.execReleasePaddock fn q c s
  | .getPlacement fn q c => Sys2Proof.Machine.execGetPlacement fn q c s
  | .alloc fn q c => Sys2Proof.Machine.execAlloc fn q c s
  | .free fn q c => Sys2Proof.Machine.execFree fn q c s
  | .map fn q c => Sys2Proof.Machine.execMap fn q c s
  | .unmap fn q c => Sys2Proof.Machine.execUnmap fn q c s
  | .copy fn q c => Sys2Proof.Machine.execCopy fn q c s
  | .getFaults fn q c => Sys2Proof.Machine.execGetFaults fn q c s
  | .resolve fn q c => Sys2Proof.Machine.execResolve fn q c s
  | .loadImage fn q c host => Sys2Proof.Machine.execLoadImage fn q c host s
  | .unloadImage fn q c => Sys2Proof.Machine.execUnloadImage fn q c s
  | .submit fn q c => Sys2Proof.Machine.execSubmit fn q c s
  | .suspend fn q c => Sys2Proof.Machine.execSuspend fn q c s
  | .resume fn q c => Sys2Proof.Machine.execResume fn q c s
  | .cancel fn q c => Sys2Proof.Machine.execCancel fn q c s
  | .query fn q c => Sys2Proof.Machine.execQuery fn q c s
  | .jobCtlSuspend fn save => Sys2Proof.Machine.execJobCtlSuspend fn save s
  | .jobCtlResume fn => Sys2Proof.Machine.execJobCtlResume fn s
  | .jobCtlCancel fn => Sys2Proof.Machine.execJobCtlCancel fn s
  | .jobStart job host => Sys2Proof.Machine.execJobStart job host s
  | .stackTest a => Sys2Proof.Machine.execStackTest a s
  | .stackScrub a => Sys2Proof.Machine.execStackScrub a s
  | .linkRetrain a => Sys2Proof.Machine.execLinkRetrain a s
  | .regionRetest a => Sys2Proof.Machine.execRegionRetest a s
  | .rechar a => Sys2Proof.Machine.execRechar a s
  | .fwStage a => Sys2Proof.Machine.execFwStage a s
  | .fwActivate a => Sys2Proof.Machine.execFwActivate a s
  | .licenceInstall a => Sys2Proof.Machine.execLicenceInstall a s
  | .logRotate a => Sys2Proof.Machine.execLogRotate a s
  | .maintStepEnd job r => Sys2Proof.Machine.execMaintStepEnd job r s
  | .signalDetectPoll n signal => Sys2Proof.Machine.execSignalDetectPoll n signal s
  | .trainingStepDone n ok lanes saved peerVer peerPrev peerEncrypts => Sys2Proof.Machine.execTrainingStepDone n ok lanes saved peerVer peerPrev peerEncrypts s
  | .trainingRetry n => Sys2Proof.Machine.execTrainingRetry n s
  | .lowPowerEntry n peerAllows => Sys2Proof.Machine.execLowPowerEntry n peerAllows s
  | .lowPowerExit n => Sys2Proof.Machine.execLowPowerExit n s
  | .codewordReceive n corrected flits crcBad tagBad => Sys2Proof.Machine.execCodewordReceive n corrected flits crcBad tagBad s
  | .replayReq n seq newMs => Sys2Proof.Machine.execReplayReq n seq newMs s
  | .laneCmd n lane => Sys2Proof.Machine.execLaneCmd n lane s
  | .swapMarker n => Sys2Proof.Machine.execSwapMarker n s
  | .laneFailure n lane => Sys2Proof.Machine.execLaneFailure n lane s
  | .linkIdleTimeout n => Sys2Proof.Machine.execLinkIdleTimeout n s
  | .hello n peer port => Sys2Proof.Machine.execHello n peer port s
  | .floorAdvTimer => Sys2Proof.Machine.execFloorAdvTimer s
  | .floorAdv n m ver seq floor => Sys2Proof.Machine.execFloorAdv n m ver seq floor s
  | .floorTableExpiry m => Sys2Proof.Machine.execFloorTableExpiry m s
  | .floorHoldExpiry => Sys2Proof.Machine.execFloorHoldExpiry s
  | .linkState n dst body => Sys2Proof.Machine.execLinkState n dst body s
  | .route n src dst entries => Sys2Proof.Machine.execRoute n src dst entries s
  | .group n src dst entries => Sys2Proof.Machine.execGroup n src dst entries s
  | .keyUpdate n => Sys2Proof.Machine.execKeyUpdate n s
  | .rekeyTimer n => Sys2Proof.Machine.execRekeyTimer n s
  | .echo n src dst reply token => Sys2Proof.Machine.execEcho n src dst reply token s
  | .fabricWrite n p => Sys2Proof.Machine.execFabricWrite n p s
  | .fabricWriteAck n p host => Sys2Proof.Machine.execFabricWriteAck n p host s
  | .fabricRead n p host => Sys2Proof.Machine.execFabricRead n p host s
  | .fabricReadData n p => Sys2Proof.Machine.execFabricReadData n p s
  | .fabricGroup n p => Sys2Proof.Machine.execFabricGroup n p s
  | .groupAck n p => Sys2Proof.Machine.execGroupAck n p s
  | .fabricHurdle n p => Sys2Proof.Machine.execFabricHurdle n p s
  | .hurdleDone n p => Sys2Proof.Machine.execHurdleDone n p s
  | .endpointTailPoll e full host => Sys2Proof.Machine.execEndpointTailPoll e full host s
  | .descWrite e host => Sys2Proof.Machine.execDescWrite e host s
  | .descRead e host => Sys2Proof.Machine.execDescRead e host s
  | .groupWrite e host => Sys2Proof.Machine.execGroupWrite e host s
  | .descHurdle e host => Sys2Proof.Machine.execDescHurdle e host s
  | .fabricRequestTimeout e txn host => Sys2Proof.Machine.execFabricRequestTimeout e txn host s
  | .groupBranchPrune n p => Sys2Proof.Machine.execGroupBranchPrune n p s
  | .lnkPortReset pf n => Sys2Proof.Machine.execLnkPortReset pf n s
  | .lnkPortEnableWrite pf n on => Sys2Proof.Machine.execLnkPortEnableWrite pf n on s
  | .lnkEqForget pf n => Sys2Proof.Machine.execLnkEqForget pf n s
  | .pfecUeRead pf n => Sys2Proof.Machine.execPfecUeRead pf n s
  | .preplayRead pf n => Sys2Proof.Machine.execPreplayRead pf n s
  | .lnkModuleWrite pf id => Sys2Proof.Machine.execLnkModuleWrite pf id s
  | .lnkRtDataWrite pf entry => Sys2Proof.Machine.execLnkRtDataWrite pf entry s
  | .epOpen pf e => Sys2Proof.Machine.execEpOpen pf e s
  | .epClose pf e host => Sys2Proof.Machine.execEpClose pf e host s
  | .groupEntryWrite pf g => Sys2Proof.Machine.execGroupEntryWrite pf g s
  | .cabPwrOvercurrent n => Sys2Proof.Machine.execCabPwrOvercurrent n s
  | .feedLoss b live => Sys2Proof.Machine.execFeedLoss b live s
  | .feedRestore b => Sys2Proof.Machine.execFeedRestore b s
  | .fsenseOpen b => Sys2Proof.Machine.execFsenseOpen b s
  | .busUndervoltage => Sys2Proof.Machine.execBusUndervoltage s
  | .regulatorInputSwitch g => Sys2Proof.Machine.execRegulatorInputSwitch g s
  | .brickFoldback b => Sys2Proof.Machine.execBrickFoldback b s
  | .brickFailure b => Sys2Proof.Machine.execBrickFailure b s
  | .idleEntry r => Sys2Proof.Machine.execIdleEntry r s
  | .idleExit r => Sys2Proof.Machine.execIdleExit r s
  | .napTimer r => Sys2Proof.Machine.execNapTimer r s
  | .offTimer r => Sys2Proof.Machine.execOffTimer r s
  | .wakeStart r => Sys2Proof.Machine.execWakeStart r s
  | .wakeComplete r digest => Sys2Proof.Machine.execWakeComplete r digest s
  | .voltageSlewDone r => Sys2Proof.Machine.execVoltageSlewDone r s
  | .ageingCheck r k tiles => Sys2Proof.Machine.execAgeingCheck r k tiles s
  | .capAllocation m => Sys2Proof.Machine.execCapAllocation m s
  | .grantEnforce r e => Sys2Proof.Machine.execGrantEnforce r e s
  | .estimatorRefit r => Sys2Proof.Machine.execEstimatorRefit r s
  | .sensorSelfCheck r temps failed => Sys2Proof.Machine.execSensorSelfCheck r temps failed s
  | .thermalForcedDrop r => Sys2Proof.Machine.execThermalForcedDrop r s
  | .thermalTrip r sensor => Sys2Proof.Machine.execThermalTrip r sensor s
  | .tripRelease r => Sys2Proof.Machine.execTripRelease r s
  | .heatShutdown r => Sys2Proof.Machine.execHeatShutdown r s
  | .hbmThermalThrottle k temp => Sys2Proof.Machine.execHbmThermalThrottle k temp s
  | .linkEdgeThermal n temp => Sys2Proof.Machine.execLinkEdgeThermal n temp s
  | .foldCapUpdate inlets outlets flows => Sys2Proof.Machine.execFoldCapUpdate inlets outlets flows s
  | .dropLineAssert source => Sys2Proof.Machine.execDropLineAssert source s
  | .regulatorFault g f brick clears => Sys2Proof.Machine.execRegulatorFault g f brick clears s
  | .lowestStateRelease => Sys2Proof.Machine.execLowestStateRelease s
  | .regionShort r => Sys2Proof.Machine.execRegionShort r s
  | .moduleReset feedA feedB intact => Sys2Proof.Machine.execModuleReset feedA feedB intact s
  | .startCoolantWait => Sys2Proof.Machine.execStartCoolantWait s
  | .waveStart => Sys2Proof.Machine.execWaveStart s
  | .gleanRound t => Sys2Proof.Machine.execGleanRound t s
  | .selfTestStep r found => Sys2Proof.Machine.execSelfTestStep r found s
  | .selfTestEnd t => Sys2Proof.Machine.execSelfTestEnd t s
  | .startComplete => Sys2Proof.Machine.execStartComplete s
  | .tileLossHandle t => Sys2Proof.Machine.execTileLossHandle t s
  | .stateMoveCopyDone => Sys2Proof.Machine.execStateMoveCopyDone s
  | .tileImageCopyRebuild bad => Sys2Proof.Machine.execTileImageCopyRebuild bad s
  | .fencedTileReset t => Sys2Proof.Machine.execFencedTileReset t s
  | .hostPortReset p => Sys2Proof.Machine.execHostPortReset p s
  | .lockstepMismatch b => Sys2Proof.Machine.execLockstepMismatch b s
  | .watchdogRestart b passes => Sys2Proof.Machine.execWatchdogRestart b passes s
  | .logBlockSeal replaced => Sys2Proof.Machine.execLogBlockSeal replaced s
  | .mgtSend pf v => Sys2Proof.Machine.execMgtSend pf v s
  | .getVersion via msg => Sys2Proof.Machine.execGetVersion via msg s
  | .getStatus via msg => Sys2Proof.Machine.execGetStatus via msg s
  | .logInfo via msg => Sys2Proof.Machine.execLogInfo via msg s
  | .readLog via msg bad => Sys2Proof.Machine.execReadLog via msg bad s
  | .logAck via msg => Sys2Proof.Machine.execLogAck via msg s
  | .readDefects via msg => Sys2Proof.Machine.execReadDefects via msg s
  | .readTelemetry via msg => Sys2Proof.Machine.execReadTelemetry via msg s
  | .maintQuery via msg => Sys2Proof.Machine.execMaintQuery via msg s
  | .maintCtl via msg => Sys2Proof.Machine.execMaintCtl via msg s
  | .listMaint via msg => Sys2Proof.Machine.execListMaint via msg s
  | .stop via msg => Sys2Proof.Machine.execStop via msg s
  | .nextCold via msg => Sys2Proof.Machine.execNextCold via msg s
  | .mgtLogAckWrite pf seq => Sys2Proof.Machine.execMgtLogAckWrite pf seq s
  | .mgtLogLostRead pf => Sys2Proof.Machine.execMgtLogLostRead pf s
  | .setEndpointId via eid => Sys2Proof.Machine.execSetEndpointId via eid s
  | .getEndpointId via => Sys2Proof.Machine.execGetEndpointId via s
  | .getMctpVersionSupport via typ => Sys2Proof.Machine.execGetMctpVersionSupport via typ s
  | .getMessageTypeSupport via => Sys2Proof.Machine.execGetMessageTypeSupport via s
  | .getVendorDefinedMessageSupport via selector => Sys2Proof.Machine.execGetVendorDefinedMessageSupport via selector s
  | .getPdrRepositoryInfo via => Sys2Proof.Machine.execGetPdrRepositoryInfo via s
  | .getPdr via handle => Sys2Proof.Machine.execGetPdr via handle s
  | .getSensorReading via id => Sys2Proof.Machine.execGetSensorReading via id s
  | .getSensorThresholds via id => Sys2Proof.Machine.execGetSensorThresholds via id s
  | .setEventReceiver via eid => Sys2Proof.Machine.execSetEventReceiver via eid s
  | .thresholdCrossing id level => Sys2Proof.Machine.execThresholdCrossing id level s
  | .queryDeviceIdentifiers via => Sys2Proof.Machine.execQueryDeviceIdentifiers via s
  | .getFirmwareParameters via => Sys2Proof.Machine.execGetFirmwareParameters via s
  | .requestUpdate via bytes => Sys2Proof.Machine.execRequestUpdate via bytes s
  | .passComponentTable via comp last => Sys2Proof.Machine.execPassComponentTable via comp last s
  | .updateComponent via comp bytes => Sys2Proof.Machine.execUpdateComponent via comp bytes s
  | .requestFirmwareData n => Sys2Proof.Machine.execRequestFirmwareData n s
  | .transferComplete => Sys2Proof.Machine.execTransferComplete s
  | .verifyComplete ok => Sys2Proof.Machine.execVerifyComplete ok s
  | .applyComplete f => Sys2Proof.Machine.execApplyComplete f s
  | .activateFirmware via selfContained => Sys2Proof.Machine.execActivateFirmware via selfContained s
  | .pldmGetStatus via => Sys2Proof.Machine.execPldmGetStatus via s
  | .cancelUpdateComponent via => Sys2Proof.Machine.execCancelUpdateComponent via s
  | .cancelUpdate via => Sys2Proof.Machine.execCancelUpdate via s
  | .spdmGetVersion a => Sys2Proof.Machine.execSpdmGetVersion a s
  | .getCapabilities a version => Sys2Proof.Machine.execGetCapabilities a version s
  | .negotiateAlgorithms a offers => Sys2Proof.Machine.execNegotiateAlgorithms a offers s
  | .getDigests a => Sys2Proof.Machine.execGetDigests a s
  | .getCertificate a slot offset length => Sys2Proof.Machine.execGetCertificate a slot offset length s
  | .challenge a slot nonce => Sys2Proof.Machine.execChallenge a slot nonce s
  | .getMeasurements a index sig nonce => Sys2Proof.Machine.execGetMeasurements a index sig nonce s
  | .keyExchange a slot mutual_ nonce => Sys2Proof.Machine.execKeyExchange a slot mutual_ nonce s
  | .finish a session ok => Sys2Proof.Machine.execFinish a session ok s
  | .endSession a session => Sys2Proof.Machine.execEndSession a session s
  | .heartbeat a session => Sys2Proof.Machine.execHeartbeat a session s
  | .heartbeatTimeout a session => Sys2Proof.Machine.execHeartbeatTimeout a session s
  | .spdmKeyUpdate a session op => Sys2Proof.Machine.execSpdmKeyUpdate a session op s
  | .chunkSend a handle seq last part => Sys2Proof.Machine.execChunkSend a handle seq last part s
  | .chunkGet a handle seq => Sys2Proof.Machine.execChunkGet a handle seq s
  | .ideKmQuery fn session => Sys2Proof.Machine.execIdeKmQuery fn session s
  | .keyProg fn session stream set_ dir => Sys2Proof.Machine.execKeyProg fn session stream set_ dir s
  | .kSetGo fn session stream set_ dir => Sys2Proof.Machine.execKSetGo fn session stream set_ dir s
  | .kSetStop fn session stream set_ dir => Sys2Proof.Machine.execKSetStop fn session stream set_ dir s
  | .ideIntegrityFailure p stream => Sys2Proof.Machine.execIdeIntegrityFailure p stream s
  | .debugConsent fn session ctx key scope minutes => Sys2Proof.Machine.execDebugConsent fn session ctx key scope minutes s
  | .debugWithdraw fn session ctx => Sys2Proof.Machine.execDebugWithdraw fn session ctx s
  | .debugRead a session paddock lid source core offset n => Sys2Proof.Machine.execDebugRead a session paddock lid source core offset n s
  | .consentExpiry ctx => Sys2Proof.Machine.execConsentExpiry ctx s
  | .debugLicenceExpiry => Sys2Proof.Machine.execDebugLicenceExpiry s
  | .errHeadWrite fn head => Sys2Proof.Machine.execErrHeadWrite fn head s
  | .errCntRead fn c => Sys2Proof.Machine.execErrCntRead fn c s
  | .errLostRead fn => Sys2Proof.Machine.execErrLostRead fn s
  | .coolantSensorCheck k v => Sys2Proof.Machine.execCoolantSensorCheck k v s
  | .jsbUnmate => Sys2Proof.Machine.execJsbUnmate s
  | .bypass => Sys2Proof.Machine.execBypass s
  | .sample others => Sys2Proof.Machine.execSample others s
  | .preload cells => Sys2Proof.Machine.execPreload cells s
  | .extest => Sys2Proof.Machine.execExtest s
  | .idcode => Sys2Proof.Machine.execIdcode s
  | .clamp => Sys2Proof.Machine.execClamp s
  | .highz => Sys2Proof.Machine.execHighz s
  | .startPhaseEnd badLicences badBanks brokenSeals => Sys2Proof.Machine.execStartPhaseEnd badLicences badBanks brokenSeals s
  | .vfEnable pf count => Sys2Proof.Machine.execVfEnable pf count s
  | .priReenable fn => Sys2Proof.Machine.execPriReenable fn s
  | .hostCompletionReceived p tag ok ep data => Sys2Proof.Machine.execHostCompletionReceived p tag ok ep data s
  | .completionTimeout p tag => Sys2Proof.Machine.execCompletionTimeout p tag s
  | .hbmControllerError k cleared => Sys2Proof.Machine.execHbmControllerError k cleared s
  | .portBlockFailure n => Sys2Proof.Machine.execPortBlockFailure n s
  | .cabPresChange n low => Sys2Proof.Machine.execCabPresChange n low s
  | .fsenseClose b => Sys2Proof.Machine.execFsenseClose b s
  | .maintRequestRetry => Sys2Proof.Machine.execMaintRequestRetry s
  | .entdaa addr => Sys2Proof.Machine.execEntdaa addr s
  | .setdasa static addr => Sys2Proof.Machine.execSetdasa static addr s
  | .getEncapsulatedRequest a => Sys2Proof.Machine.execGetEncapsulatedRequest a s
  | .deliverEncapsulatedResponse a ok leaf => Sys2Proof.Machine.execDeliverEncapsulatedResponse a ok leaf s

end Sys2Proof.Machine
end

