-- ==== Sys2Proof/Safety.lean ====
section
/-! DEFINITION. The terms that claims use: cores that may issue, completed instructions, canonical states. -/
namespace Sys2Proof.Machine

/-! ### Tidy cores -/

/-- The words of an instruction at the program counter lie in private memory, without a wrong bit or a poison mark (R202, R205,
R249). -/
def State.fetchClean (s : State) (u : CoreId) (words : Nat) : Prop :=
  ∀ k, k < words →
    inPriv ((s.core u).pcOf + 4 * k) = true ∧
    tget (s.core u).privUpset (((s.core u).pcOf + 4 * k - privBase) / 8) = 0 ∧
    s.marked (privKey u.tile u.core (8 * (((s.core u).pcOf + 4 * k - privBase) / 8))) = false

/-- The core runs on a running clock, no pre-emption has begun, no access of it waits for a translation or for an answer, the
words to fetch are sound, and the image that runs declares at least a level (R197, R204, R205, R240, R424). -/
structure State.atIssue (s : State) (u : CoreId) (words level : Nat) : Prop where
  on    : s.coreOn u = true
  free  : (s.core u).hold = none
  loads : (s.core u).loads = []
  level : level ≤ s.imageLevel u
  clean : s.fetchClean u words

/-- The instruction of `words` words at the program counter is completed: the core becomes `f` of itself and goes on behind it. -/
def State.retire (s : State) (u : CoreId) (words : Nat) (f : Core → Core) : State :=
  s.modCore u fun c => { f c with pc := BitVec.ofNat 64 (c.pcOf + 4 * words), retired := ((f c).retired + 1) % 2 ^ 64 }
/-- The same where the core goes on elsewhere. -/
def State.retireTo (s : State) (u : CoreId) (pc : Nat) (f : Core → Core) : State :=
  s.modCore u fun c => { f c with pc := BitVec.ofNat 64 pc, retired := ((f c).retired + 1) % 2 ^ 64 }

/-! ### Local memory as a core sees it -/

/-- A scratchpad byte as a narrow read sees it: the combining buffer's where an entry holds it, else the word's (R171, R174). -/
def State.seen (s : State) (t off : Nat) : Byte :=
  match (s.tile t).spd.cb.find? fun e => e.word == off / 32 with
  | some e => if bit e.mask (off % 32) then BitVec.ofNat 8 (fld e.bytes (8 * (off % 32)) 8) else s.byte (spdKey t off)
  | none => s.byte (spdKey t off)
/-- The number that `n` scratchpad bytes spell. -/
def State.seenNat (s : State) (t off : Nat) : Nat → Nat
  | 0 => 0
  | n + 1 => (s.seen t off).toNat + 256 * s.seenNat t (off + 1) n
/-- The scratchpad words of some bytes are stored without a wrong bit, carry no mark, and wait for no sweep and no zero-fill; no
entry of the combining buffer carries a mark (R173, R178-R180, R187). -/
def State.spdSound (s : State) (t off n : Nat) : Prop :=
  (∀ w, off / 32 ≤ w → w ≤ (off + n - 1) / 32 →
    tget (s.tile t).spd.upset w = 0 ∧ s.marked (spdKey t (32 * w)) = false ∧ (s.tile t).spdBlocked w = false) ∧
  (s.tile t).spd.cb.all (fun e => !e.poison) = true
/-- Private-memory units of some bytes hold no wrong bit and no mark (R201, R249). -/
def State.privSound (s : State) (u : CoreId) (off n : Nat) : Prop :=
  ∀ k, off / 8 ≤ k → k ≤ (off + n - 1) / 8 →
    tget (s.core u).privUpset k = 0 ∧ s.marked (privKey u.tile u.core (8 * k)) = false

/-- A precise exception that a handler takes (R228). -/
def State.handled (s : State) (u : CoreId) (cause eval : Nat) : State :=
  s.modCore u fun c => { c with epc := c.pc, ecause := cause, eval := BitVec.ofNat 64 eval, supervisor := true, pc := c.evec }

/-! ### Tickets -/

/-- A ticketed instruction that completes at issue with a code: its ticket is in rd, its status is held, its summary counts it (R253,
R255, R260). -/
def State.endsAtIssue (s : State) (u : CoreId) (rd unit code : Nat) (f : StFlags) : State :=
  let seq := (s.core u).nextSeq unit
  (s.retire u 1 fun c =>
    let c := (c.takeSeq unit).setG rd (ticketWord unit seq) false
    if unit = 0 then { c with mSum := c.mSum.add code f.toNat c.retired } else { c with xSum := c.xSum.add code f.toNat c.retired }).modTile u.tile fun T =>
      { T with held := keepLast (fun x => x.sameUnit u.core unit) (heldLimit unit)
                 (T.held ++ [{ core := u.core, unit := unit, seq := seq, status := statusWord code 0 f, words := [] }]) }
/-- A rejected instruction: it ends at issue, and SEQ_REJECT records it (R257, R297). -/
def State.rejectedAt (s : State) (u : CoreId) (op rd unit code : Nat) (poisoned : Bool) : State :=
  (s.endsAtIssue u rd unit code { poisoned := poisoned }).modTile u.tile fun T =>
    T.setReg 0x812 (code % 2 ^ 8 * 2 ^ 24 + op % 2 ^ 6 * 2 ^ 18 + u.core.val * 2 ^ 17 + (s.core u).nextSeq unit % 2 ^ 16)
/-- A sequencer instruction that is taken: its ticket is in rd, and it stands last in the sequence of both cores (R251-R253). -/
def State.sequenced (s : State) (u : CoreId) (rd : Nat) (op : MOp) : State :=
  let c := s.core u
  let seq := c.nextSeq 0
  (s.retire u 1 fun c => (c.takeSeq 0).setG rd (ticketWord 0 seq) false).modSeqr u.tile fun q => { q with
    queue := q.queue ++ [{ core := u.core, seq := seq, op := op, no := q.nextNo, stamp := c.retired, at_ := (s.tile u.tile).arr.tick }]
    nextNo := q.nextNo + 1 }

/-- No channel of the tile and no layer slot of its region can go on: every transfer under way awaits an answer, and no dispatch
instruction is queued. -/
structure State.engineStill (s : State) (t : Nat) : Prop where
  chans : ∀ c, (s.chan t c).queue ≠ [] → (s.chan t c).busy = true ∧ (s.chan t c).wait = none
  slots : ∀ k, k < 2 → (s.slot (regionOf t) k).queue = []
/-- The core holds channel `n` open, and the handle in q names it (R265, R279). -/
structure State.holdsChan (s : State) (u : CoreId) (q n : Nat) : Prop where
  index  : n < 16
  handle : (s.core u).qr q = 2 * 2 ^ 60 + s.tag u.tile * 2 ^ 32 + n
  opened : (s.chan u.tile n).open_ = true
  owner  : (s.chan u.tile n).owner = u.core
/-- A transfer that is taken behind one that awaits an answer: its ticket is in rd, and it stands last in its channel's queue with its
operands captured; an XCOPY or XSPARSE is the channel's latest for the passes linked to it (R251-R253, R276, R411). -/
def State.transferring (s : State) (u : CoreId) (rd n : Nat) (e : XEntry) : State :=
  let c := s.core u
  let seq := c.nextSeq (1 + n)
  let names := match e.op with | .xput | .xsend | .dreturn => false | _ => true
  (s.retire u 1 fun c => (c.takeSeq (1 + n)).setG rd (ticketWord (1 + n) seq) false).modChan u.tile n fun x => { x with
    queue := x.queue ++ [{ e with core := u.core, seq := seq, stamp := c.retired, link := if names then x.linkNo + 1 else 0 }]
    linkNo := if names then x.linkNo + 1 else x.linkNo
    links := if names then (x.links.reverse.take 9).reverse ++ [{ no := x.linkNo + 1, op := e.op }] else x.links }
/-- A channel that has just been opened, or closed: only the count of its transfers stays (R276, R279). -/
def Channel.fresh (x : Channel) (open_ : Bool) (owner : Nat) : Channel := { open_ := open_, owner := owner, linkNo := x.linkNo, linkBase := x.linkNo, links := x.links }

/-! ### Dispatch -/

/-- Both layer slots of the tile's region have empty queues, and its paddock is neither being pre-empted nor frozen. -/
structure State.dispatchStill (s : State) (t : Nat) : Prop where
  slots : ∀ k, k < 2 → (s.slot (regionOf t) k).queue = []
  live  : (s.paddock (s.tag t)).preempt = false ∧ (s.paddock (s.tag t)).frozen = false
/-- The core's paddock holds layer slot `k`, and the handle in q names it (R143, R265). -/
structure State.holdsSlot (s : State) (u : CoreId) (q k : Nat) : Prop where
  index  : k < 2
  handle : (s.core u).qr q = 3 * 2 ^ 60 + s.tag u.tile * 2 ^ 32 + k
  held   : (s.slot (regionOf u.tile) k).heldBy = some (s.tag u.tile)
/-- A ticketed instruction of the core's `unit` has completed with a status, its ticket in rd (R253, R255). -/
def State.completed (s t : State) (u : CoreId) (rd unit status : Nat) (words : List Nat) : Prop :=
  let seq := (s.core u).nextSeq unit
  (t.core u).gr rd = (if rd = 0 then 0 else ticketWord unit seq) ∧ t.ticketPending u unit seq = false ∧
    (t.tile u.tile).held.find? (fun h => h.core == u.core.val && h.unit == unit && h.seq == seq) =
      some { core := u.core, unit := unit, seq := seq, status := status, words := words }

/-! ### Commands of a host's queues -/

/-- The command `c` with this opcode is the next that its queue starts: the oldest not started, its entry in order, no FENCE holding it
back, its function not being reset, and Fufin there to do what only Fufin does (R480, R481, R629). `o` names its completion. -/
structure State.starts (s : State) (fn q op : Nat) (c : SqEntry) (o : Owed) : Prop where
  first : (s.queue fn q).fetched.find? (fun f => !f.started) = some { c := c, no := o.no, hold := opEntries op }
  code  : c.opcode.toNat = op
  frame : sqBadFrame c = false
  fence : bit c.flags.toNat 0 = false ∨ (s.queue fn q).fetched.head?.map (·.no) = some o.no
  calm  : (s.func fn).resetting = false
  fufin : needsFufin op = true → s.foldUp = true
  owed  : o = { fn := fn, queue := q, no := o.no, id := c.id.toNat }

end Sys2Proof.Machine
end

