-- ==== Sys2Proof/Certificates/Slice0/Obligations.lean ====
section
/-! DEFINITION. The statements for the provers, family by family in the order of the table. Each docstring names the rules of spec/ a
statement follows and the log entries of the model's own conventions it meets. -/
open Sys2Proof Sys2Proof.Machine

/-- A step performs the command at the front of the queue, with the queue's rest left waiting; on an empty queue the block idles (log 3).
Conventions of the model: log 3. -/
def Obligations.StepTakesTheFrontCommand : Prop :=
  ∀ (s : State) (c : Instr) (q : List Instr),
    (s.pending = c :: q → step s = exec c { s with pending := q }) ∧ (s.pending = [] → step s = .next s) ∧
    (∀ nbits w, s.withFetchWord nbits w = s ∧ decodeTableWord nbits w = none)

/-- Every command answers a next state: none faults, none is refused; it leaves the queue as it finds it, takes nothing back that has left
the module, and uses no free value twice. Conventions of the model: logs 3, 4, 6, 7. -/
def Obligations.EveryCommandCompletes : Prop :=
  ∀ (c : Instr) (s : State), ∃ t l, exec c s = .next t ∧ t.pending = s.pending ∧ t.out = s.out ++ l ∧ s.free ≤ t.free

/-- Every step keeps the memory's canonical form and the poison marks a rising list without repeats. Conventions of the model: log 2. -/
def Obligations.StepKeepsMemoryCanonical : Prop :=
  ∀ s t : State, Memory.wf s.mem = true → risingFrom 0 s.marks = true → step s = .next t → Memory.wf t.mem = true ∧ risingFrom 0 t.marks = true

/-- R364, R566, R590: every step keeps PWR_CAP between 3,500 and 12,000 W, PWR_ORDER an order of the three things, and the timestamp 64
bits long. Conventions of the model: log 12. -/
def Obligations.StepKeepsSettingsLegal : Prop :=
  let legal := fun (s : State) => 3500 ≤ s.power.hostCap ∧ s.power.hostCap ≤ 12000 ∧ s.power.order.Perm [0, 1, 2] ∧ s.time < 2 ^ 64
  ∀ s t : State, legal s → step s = .next t → legal t

/-- What reset leaves: the values of R590, R690 and R248, and the model's own of logs 1 and 2; both invariants above hold. Conventions of
the model: logs 1, 2. -/
def Obligations.ResetLeaves : Prop :=
  let s := State.reset
  Memory.wf s.mem = true ∧ risingFrom 0 s.marks = true ∧ (∀ k, s.byte k = 0 ∧ s.marked k = false) ∧ s.pending = [] ∧ s.time < 2 ^ 64 ∧
  s.power.hostCap = 12000 ∧ s.power.order.Perm [0, 1, 2] ∧ s.power.napUs = 1000 ∧ s.power.offMs = 0 ∧
  (∀ u : CoreId, (s.core u).running = false ∧ (s.core u).pc = 0 ∧ ∀ i, i < 32 → tget (s.core u).g i = 0 ∧ tget (s.core u).p i = 0 ∧ tget (s.core u).v i = 0) ∧
  (∀ fn, (s.func fn).enabled = false ∧ (tget s.errs fn).head = 0 ∧ (tget s.errs fn).tail = 0 ∧ (tget s.errs fn).minClass = 1 ∧ (tget s.errs fn).overflow = false) ∧
  (∀ p, (s.paddock p).live = false) ∧ (∀ j, (s.job j).live = false) ∧ (∀ r, (s.region r).power = .off) ∧ (∀ k, k < 20 → (s.stack k).working = false) ∧
  s.fold.seq = 0 ∧ s.events = [] ∧ s.out = [] ∧ s.ident.sessions = []

/-- R59-R64, R82, R85, R426: the arrays' own steps. While the region's clock is stopped nothing moves. On a tick every element row ages by
one and those past their 128th tick leave; the feeder enters exactly one element row, a bubble where no pass is queued; the first column
of a SET reaches its accumulator entry on the 65th tick. A column's bypass is applied once its job is suspended. Conventions of the model:
logs 20, 22. -/
def Obligations.ArraysAdvance : Prop :=
  ∀ (s : State) (t : TileIx) (granted : Bool) (array : Fin 4) (column : Fin 65),
    let A := (s.tile t).arr
    (s.ticking t = false →
      exec (.arrayTick t []) s = .next s ∧ exec (.feederEntry t granted) s = .next s ∧ exec (.loaderCommit t) s = .next s ∧ exec (.drainRead t granted) s = .next s) ∧
    (s.ticking t = true →
      (∃ u, exec (.arrayTick t []) s = .next u ∧ (u.tile t).arr.tick = A.tick + 1 ∧
        (u.tile t).arr.waves.map (·.age) = (A.waves.filter fun w => decide (w.age < 127)).map fun w => w.age + 1) ∧
      (∃ u w, exec (.feederEntry t granted) s = .next u ∧ (u.tile t).arr.waves = A.waves ++ [w] ∧
        (granted = false → (∀ p ∈ (s.tile t).seqr.passes, p.skid = []) → w.valid = false) ∧
        (u.tile t).arr.acc = A.acc ∧ (u.tile t).arr.slots = A.slots) ∧
      ((s.tile t).seqr.passes = [] → (s.tile t).seqr.queue = [] →
        exec (.feederEntry t granted) s = .next (s.modTile t fun T => { T with arr := { T.arr with waves := T.arr.waves ++ [{}] } })) ∧
      (∀ w a sum, A.waves = [w] → w.valid = true → w.exact = false → w.set = true → w.lanes = 1 → w.mask = 2 ^ a → a < 4 → w.poison = false →
        w.badCols = [] → w.row < 256 → 64 ≤ w.age → w.age < 128 → tget w.sums ((a * 64 + (w.age - 64)) * 4) = sum →
        ∃ u, exec (.arrayTick t []) s = .next u ∧
          (u.tile t).arr.entry false ((a * 512 + w.row) * 64 + (w.age - 64)) false = { f := sum.f } ∧
          ∀ k, k ≠ (a * 512 + w.row) * 64 + (w.age - 64) → tget (u.tile t).arr.acc k = tget A.acc k)) ∧
    (A.pendingBypass.contains (array.val * 65 + column.val) = true →
      s.tag t = 0 ∨ (s.job (s.tileJob t)).live = false ∨ (s.job (s.tileJob t)).state = .suspended →
        exec (.columnBypassApply t array column) s = .next (s.modTile t fun T => { T with arr := { T.arr with
          pendingBypass := setDel T.arr.pendingBypass (array.val * 65 + column.val), bypass := tput T.arr.bypass array (column.val + 1) } })) ∧
    (A.pendingBypass.contains (array.val * 65 + column.val) = false → exec (.columnBypassApply t array column) s = .next s) ∧
    ((∀ p ∈ (s.tile t).seqr.passes, p.done = true) → exec (.linkWaitSplit t) s = .next s) ∧
    (∀ p rest, (s.tile t).seqr.passes = p :: rest → p.done = false → p.entry.pword.linked = true → (∀ x ∈ rest, x.entry.no ≠ p.entry.no) →
      ((s.tile t).linkReady p.entry.pword.link p.entry.link p.next).1 = false →
      exec (.linkWaitSplit t) s = .next
        (if (s.tile t).preempting = true ∧ (4096 ≤ p.linkWait ∨ (match (s.chan t p.entry.pword.link).wait with | some h => h.fault.isSome | none => false) = true)
         then s.modTile t fun T => { T with seqr := { T.seqr with passes := { p with split := true } :: rest } } else s))

/-- R65, R70, R124, R269, R76, R77: the loader commits row r of a dense BF16 block when it is due, cell j taking element 64r + j of its
plane; the 64th row completes the load, and its slot names the block. The drain's third stage writes what its second held, and waits where
the write port does not grant. Conventions of the model: logs 20, 21. -/
def Obligations.LoaderAndDrainMove : Prop :=
  ∀ (s : State) (t : TileIx),
    let T := s.tile t
    ((T.seqr.load = none → exec (.loaderCommit t) s = .next s)) ∧
    (∀ (r : LoadRun) (a : Nat), s.ticking t = true → T.seqr.load = some r →
      let w := r.entry.lword
      let d := Desc.ofNat r.entry.desc
      let due := r.start + max r.rows ((2 * (r.rows + 1) * 64 + 255) / 256 - 1) + r.delay
      w.arrays = 2 ^ a → a < 4 → w.lanes = 1 → w.diag = false → d.fmt = 0 → d.nm = 0 → d.transposed = false → d.rowPitch = 0 → d.cols = 64 →
      d.base % 32 = 0 → d.base + 8192 ≤ 2 ^ 23 → s.spdSound t d.base 8192 → T.spd.cb = [] → r.rows < 64 → r.start < T.arr.tick →
        (T.arr.tick - 1 < due → exec (.loaderCommit t) s = .next s) ∧
        (due ≤ T.arr.tick - 1 →
          ∃ u, exec (.loaderCommit t) s = .next u ∧
            (∀ j, j < 64 → ((u.tile t).arr.slot a w.slot).cell r.rows j = { w := s.nat (spdKey t (d.base + 2 * (64 * r.rows + j))) 2 }) ∧
            (∀ k j, k ≠ r.rows → ((u.tile t).arr.slot a w.slot).cell k j = (T.arr.slot a w.slot).cell k j) ∧
            (r.rows < 63 → (u.tile t).seqr.load = some { r with rows := r.rows + 1, delay := r.delay + (T.arr.tick - 1 - due), reruns := 0 }) ∧
            (r.rows = 63 → (u.tile t).seqr.load = none ∧ ((u.tile t).arr.slot a w.slot).block = some ⟨r.entry.core, r.entry.seq⟩))) ∧
    (∀ granted, s.ticking t = true → T.seqr.drain = none → (∀ e ∈ T.seqr.queue, e.isDrain = false) → exec (.drainRead t granted) s = .next s) ∧
    (∀ r : DrainRun, s.ticking t = true → T.seqr.drain = some r → r.pipe2 ≠ [] → exec (.drainRead t false) s = .next s) ∧
    (∀ (r : DrainRun) (w : SpdWrite), s.ticking t = true → T.seqr.drain = some r → r.pipe2 = [w] → r.pipe1 = [] →
      T.arr.drainRows r.entry.dword ≤ r.row → r.entry.dword.scatter = false → r.entry.dword.clear = false →
      w.off % 32 = 0 → w.bytes.length % 32 = 0 → w.off + w.bytes.length ≤ 2 ^ 23 → s.spdSound t w.off (w.bytes.length + 32) → T.spd.cb = [] →
        ∃ u, exec (.drainRead t true) s = .next u ∧ (u.tile t).seqr.drain = none ∧
          ∀ x, x < 2 ^ 23 → u.byte (spdKey t x) = if w.off ≤ x ∧ x < w.off + w.bytes.length then w.bytes.getD (x - w.off) 0 else s.byte (spdKey t x))

/-- R164, R168, R169, R171-R173, R178, R180, R182, R183, R187, R189: the scratchpad's own steps. The arbiter grants requests whole, in
disjoint banks of a port; one that waits meets a blocked word or a bank of a request considered before it. A flush writes the buffered
bytes and no others. A write-back found wrong again moves its word to a spare. A zone write starts a sweep of the sheets it changes, a
second one waits; a sweep of sound words changes no byte. The patrol moves on. Zero-fill clears one row a tick and ends with row 8,191.
Conventions of the model: logs 14, 22, 24. -/
def Obligations.ScratchpadSteps : Prop :=
  ∀ (s : State) (t : TileIx),
    let T := s.tile t
    let d := T.spd
    (∀ raised, ∃ u, exec (.spdPortArbitration t raised) s = .next u ∧ u.mem = s.mem ∧
      (u.tile t).spd.granted.Pairwise (fun a b => a.write = b.write → ∀ x ∈ a.words, ∀ y ∈ b.words, bankOf x ≠ bankOf y) ∧
      (∀ r ∈ (u.tile t).spd.requests, (∃ w ∈ r.words, T.spdBlocked w = true) ∨
        ∃ g ∈ (u.tile t).spd.granted, g.write = r.write ∧ reqBefore g r = true ∧ ∃ x ∈ g.words, ∃ y ∈ r.words, bankOf x = bankOf y)) ∧
    (∀ word : Fin 262144,
      ((∀ e ∈ d.cb, e.word ≠ word.val) → exec (.cbFlushTimeout t word) s = .next s) ∧
      (∀ e, d.cb.find? (fun e => e.word == word.val) = some e → tget d.upset word = 0 → s.marked (spdKey t (32 * word)) = false →
        ∃ u, exec (.cbFlushTimeout t word) s = .next u ∧ (u.tile t).spd.cb = d.cb.filter (fun e => e.word != word.val) ∧
          u.marked (spdKey t (32 * word)) = e.poison ∧
          (∀ i, i < 32 → u.byte (spdKey t (32 * word) + i) =
            if bit e.mask i then BitVec.ofNat 8 (fld e.bytes (8 * i) 8) else s.byte (spdKey t (32 * word) + i)) ∧
          ∀ k, k < spdKey t (32 * word) ∨ spdKey t (32 * word) + 32 ≤ k → u.byte k = s.byte k) ∧
      (d.checkBack.contains word.val = false → ∀ again, exec (.spdEccWriteback t word again) s = .next s) ∧
      (d.checkBack.contains word.val = true →
        exec (.spdEccWriteback t word false) s =
          .next (s.modTile t fun T => { T with spd := { T.spd with checkBack := setDel T.spd.checkBack word, upset := tput T.spd.upset word 0 } }) ∧
        (d.spares.contains word.val = false → (d.spares.filter fun w => bankOf w == bankOf word).length < 15 →
          ∃ u, exec (.spdEccWriteback t word true) s = .next u ∧ (u.tile t).spd.spares = setIns d.spares word ∧
            bit ((u.tile t).reg 0xA09) 4 = true ∧ (u.tile t).reg 0xA0A / 2 ^ 29 = 5 ∧ u.mem = s.mem))) ∧
    (∀ (c : Fin 2) (n : Fin 8) (v : BitVec 32),
      (d.sweep ≠ [] ∨ d.fillRow ≠ none → exec (.spdZoneWrite ⟨t, c⟩ n v) s = .next s) ∧
      (d.sweep = [] → d.fillRow = none → changedSheets (T.reg (0xA00 + n)) v.toNat n ≠ [] →
        ∃ u, exec (.spdZoneWrite ⟨t, c⟩ n v) s = .next u ∧ (u.tile t).reg (0xA00 + n) = v.toNat ∧
          (u.tile t).spd.sweep = changedSheets (T.reg (0xA00 + n)) v.toNat n ∧ (u.tile t).spd.sweepRow = 0 ∧ (u.tile t).spd.sweepBy = c)) ∧
    (d.sweep = [] → exec (.zoneSweepRow t) s = .next s) ∧
    (∀ sheet rest, d.sweep = sheet :: rest → d.cb = [] → sheet < 256 → d.sweepRow < 32 →
      (∀ i, i < 32 → tget d.upset (1024 * sheet + 32 * d.sweepRow + i) = 0) →
        ∃ u, exec (.zoneSweepRow t) s = .next u ∧ (∀ k, u.byte k = s.byte k ∧ u.marked k = s.marked k) ∧
          (u.tile t).spd.sweep = (if d.sweepRow = 31 then rest else d.sweep) ∧ (u.tile t).spd.sweepRow = (d.sweepRow + 1) % 32) ∧
    (∀ bank : Fin 32,
      let word := bankWord bank (tget d.patrol bank)
      (bit (T.reg 0xA08) 1 = false ∨ T.detectOnly = true ∨ T.spdBlocked word = true → exec (.scrubStep t bank) s = .next s) ∧
      (bit (T.reg 0xA08) 1 = true → T.detectOnly = false → T.spdBlocked word = false → s.marked (spdKey t (32 * word)) = false → tget d.upset word = 0 →
        exec (.scrubStep t bank) s =
          .next (s.modTile t fun T => { T with spd := { T.spd with patrol := tput T.spd.patrol bank ((tget d.patrol bank + 1) % 8192) } }))) ∧
    (d.fillRow = none ∨ s.ticking t = false → exec (.zeroFillRow t) s = .next s) ∧
    (∀ g, d.fillRow = some g → g < 8192 → s.ticking t = true →
      ∃ u, exec (.zeroFillRow t) s = .next u ∧ (u.tile t).spd.fillRow = (if g = 8191 then none else some (g + 1)) ∧
        u.org.toFill = (if g = 8191 then setDel s.org.toFill t else s.org.toFill) ∧
        (∀ i, i < 1024 → u.byte (spdKey t (1024 * g) + i) = 0) ∧ (∀ i, i < 32 → u.marked (spdKey t (1024 * g) + 32 * i) = false) ∧
        ∀ k, k < spdKey t (1024 * g) ∨ spdKey t (1024 * g) + 1024 ≤ k → u.byte k = s.byte k)

/-- R13-R16, R193, R297, R336: registers. A read of the lower half of a 64-bit register captures the upper half, and a later read of the
upper half returns what was captured; a written lower half waits for its writer's write of the upper half, which commits both. An access
of a function that is not 32 aligned bits writes nothing and reads as all ones. SPD_REMOTE and SEQ_RERUN are cleared by being read,
SPD_REMOTE but for its SOURCE. A register message is served by a node that answers, and its answer reaches the Fold. Conventions of the
model: log 11. -/
def Obligations.RegisterAccesses : Prop :=
  ∀ (s : State) (w : RegBy) (lo hi a v : BitVec 32),
    let live := s.regLive w lo.toNat
    (regPair w lo.toNat = true → regPair w hi.toNat = false → hi.toNat = lo.toNat + pairStep w →
      (regAccess w lo.toNat 4 = true → ∃ u, exec (.reg64LoRead w lo 4) s = .next u ∧
        u.out.getLast? = some (.regRead (readerNum w) (regShown w lo.toNat) (live % 2 ^ 32)) ∧
        u.shadowOf w lo.toNat = some (live / 2 ^ 32 % 2 ^ 32)) ∧
      (∀ x, s.shadowOf w lo.toNat = some x → regAccess w hi.toNat 4 = true →
        exec (.reg64LoRead w hi 4) s = .next (s.emit (.regRead (readerNum w) (regShown w hi.toNat) x))) ∧
      (s.regPairRw w lo.toNat = false → exec (.reg64LoWrite w lo v) s = .next s ∧ exec (.reg64HiWrite w hi v) s = .next s) ∧
      (s.regPairRw w lo.toNat = true →
        exec (.reg64LoWrite w lo v) s = .next (s.setHeld w lo.toNat (some v.toNat)) ∧
        exec (.reg64HiWrite w hi v) s = .next ((s.regPut64 w lo.toNat
          (v.toNat * 2 ^ 32 + (match s.heldOf w lo.toNat with | some l => l | none => live % 2 ^ 32))).setHeld w lo.toNat none))) ∧
    (∀ (fn : FnIx) (n : Fin 65), n ≠ 4 ∨ a.toNat % 4 ≠ 0 →
      exec (.registerWrite (.host fn) a n v) s = .next s ∧
      exec (.reg64LoRead (.host fn) a n) s = .next (s.emit (.regRead (0x20000 + fn.val) a.toNat (2 ^ (8 * n.val) - 1)))) ∧
    (∀ (u : CoreId) (n : Fin 65),
      (∀ r ∈ [(0x801, 0xFFF), (0x807, 0xFFFF), (0xA09, 0x3F), (0xC05, 0x3F), (0xC2C, 0xF)],
        exec (.registerWrite (.core u) (BitVec.ofNat 32 r.1) n v) s =
          .next (s.modTile u.tile fun T => T.setReg r.1 (T.reg r.1 - (T.reg r.1 &&& (v.toNat &&& r.2))))) ∧
      exec (.registerWrite (.core u) 0xC22 n v) s = .next (s.modTile u.tile fun T => T.setReg 0xC22 (v.toNat % 2048)) ∧
      exec (.registerWrite (.core u) 0xA0C n v) s = .next s) ∧
    (∀ (t : TileIx) (r : Fin 3),
      let no := if r = 2 then 0xF01D else 2 * t.val + r.val
      let reg := (s.tile t).reg
      exec (.spdRemoteRead t r) s = .next ((s.modTile t fun T => T.setReg 0xA0B (reg 0xA0B / 65536 * 65536)).emit (.regRead no 0xA0B (reg 0xA0B))) ∧
      exec (.seqRerunRead t r) s = .next ((s.modTile t fun T => T.setReg 0x811 0).emit (.regRead no 0x811 (reg 0x811)))) ∧
    (∀ (node : Fin 672) (n : BitVec 16),
      (s.nodeAnswers node = false → exec (.regRead node n) s = .next s ∧ exec (.regWrite node n v) s = .next s) ∧
      (s.nodeAnswers node = true → regPair (.fold node) n.toNat = false → regHi (.fold node) n.toNat = false →
        exec (.regRead node n) s =
          (let u := s.foldRead node n.toNat
           .next { u with net := { u.net with regData := u.net.regData ++ [⟨node, n.toNat, s.foldLive node n.toNat % 2 ^ 32⟩] } }) ∧
        exec (.regWrite node n v) s = .next (s.foldWrite node n.toNat v.toNat))) ∧
    (s.net.regData = [] → exec .regData s = .next s) ∧
    (∀ x rest, s.net.regData = x :: rest →
      exec .regData s = .next ({ s with net := { s.net with regData := rest } }.emit (.regRead 0xF01D (x.node * 2 ^ 16 + x.addr) x.data)))

/-- R209, R210, R211: every integer instruction that may issue writes its result to rd, with the poison of its sources, retires, and
changes nothing else. R210: what each ALU funct computes, modulo 2^64: shifts by rb[5:0], division by zero, and the most negative number
by -1. Conventions of the model: log 9. -/
def Obligations.IntegerInstructions : Prop :=
  (
  ∀ (s : State) (u : CoreId) (rd ra rb : Fin 32) (p : Fin 8) (funct : BitVec 8) (imm : BitVec 16) (imm47 : BitVec 47),
    (s.atIssue u 1 0x200 →
      (aluKnown funct.toNat = true → (0x18 ≤ funct.toNat → rb = 0) → bit ((s.core u).pr p) 0 = true →
        exec (.alu u rd ra rb p funct) s = .next (s.retire u 1 fun c =>
          c.setG rd (aluOp funct.toNat (c.gr ra) (c.gr rb)) (c.gBad ra || (decide (funct.toNat < 0x18) && c.gBad rb)))) ∧
      exec (.addi u rd ra imm) s = .next (s.retire u 1 fun c => c.setG rd (BitVec.ofNat 64 (c.gr ra) + imm.signExtend 64).toNat (c.gBad ra)) ∧
      exec (.andi u rd ra imm) s = .next (s.retire u 1 fun c => c.setG rd (c.gr ra &&& imm.toNat) (c.gBad ra)) ∧
      exec (.ori u rd ra imm) s = .next (s.retire u 1 fun c => c.setG rd (c.gr ra ||| imm.toNat) (c.gBad ra)) ∧
      exec (.xori u rd ra imm) s = .next (s.retire u 1 fun c => c.setG rd (c.gr ra ^^^ imm.toNat) (c.gBad ra)) ∧
      (imm.toNat < 0xC0 →
        exec (.shi u rd ra imm) s = .next (s.retire u 1 fun c => c.setG rd (aluOp (5 + imm.toNat / 64) (c.gr ra) (imm.toNat % 64)) (c.gBad ra))) ∧
      exec (.lui u rd 0 imm) s = .next (s.retire u 1 fun c => c.setG rd (imm.signExtend 64 <<< 16).toNat false) ∧
      exec (.slti u rd ra imm) s = .next (s.retire u 1 fun c => c.setG rd (if (BitVec.ofNat 64 (c.gr ra)).slt (imm.signExtend 64) then 1 else 0) (c.gBad ra)) ∧
      -- what the forms require, or ILLEGAL
      ((s.core u).supervisor = false → (s.core u).evec ≠ 0 →
        let word := fun (op : Nat) => op * 2 ^ 26 + rd.val * 2 ^ 21 + ra.val * 2 ^ 16 + imm.toNat
        (0x18 ≤ funct.toNat → funct.toNat ≤ 0x1A → rb ≠ 0 → exec (.alu u rd ra rb p funct) s =
          .next (s.handled u 1 (rd.val * 2 ^ 21 + ra.val * 2 ^ 16 + rb.val * 2 ^ 11 + p.val * 2 ^ 8 + funct.toNat))) ∧
        (0xC0 ≤ imm.toNat → exec (.shi u rd ra imm) s = .next (s.handled u 1 (word 5))) ∧
        (ra ≠ 0 → exec (.lui u rd ra imm) s = .next (s.handled u 1 (word 6))))) ∧
    (s.atIssue u 2 0x200 →
      exec (.li u rd imm47) s = .next (s.retire u 2 fun c => c.setG rd (imm47.signExtend 64).toNat false) ∧
      exec (.laddi u rd imm47) s = .next (s.retire u 2 fun c => c.setG rd (BitVec.ofNat 64 (c.gr rd) + imm47.signExtend 64).toNat (c.gBad rd)))
  ) ∧
  (
  ∀ a b : BitVec 64,
    let f := fun n => BitVec.ofNat 64 (aluOp n a.toNat b.toNat)
    let k := b.toNat % 64
    f 0x00 = a + b ∧ f 0x01 = a - b ∧ f 0x02 = a &&& b ∧ f 0x03 = a ||| b ∧ f 0x04 = a ^^^ b ∧
    f 0x05 = a <<< k ∧ f 0x06 = a >>> k ∧ f 0x07 = a.sshiftRight k ∧
    f 0x08 = (if a.slt b then 1 else 0) ∧ f 0x09 = (if a.ult b then 1 else 0) ∧
    f 0x0A = (if a.slt b then a else b) ∧ f 0x0B = (if a.slt b then b else a) ∧
    f 0x0C = (if a.ult b then a else b) ∧ f 0x0D = (if a.ult b then b else a) ∧
    f 0x10 = a * b ∧ f 0x11 = ((a.signExtend 128 * b.signExtend 128) >>> 64).setWidth 64 ∧
    f 0x12 = ((a.setWidth 128 * b.setWidth 128) >>> 64).setWidth 64 ∧
    (b ≠ 0 → f 0x14 = a.sdiv b ∧ f 0x15 = a / b ∧ f 0x16 = a.srem b ∧ f 0x17 = a % b) ∧
    (b = 0 → f 0x14 = BitVec.allOnes 64 ∧ f 0x15 = BitVec.allOnes 64 ∧ f 0x16 = a ∧ f 0x17 = a) ∧
    (a = BitVec.intMin 64 → b = -1 → f 0x14 = BitVec.intMin 64 ∧ f 0x16 = 0) ∧
    (a = 0 → f 0x18 = 64 ∧ f 0x19 = 64) ∧
    (a ≠ 0 → (∃ i < 64, f 0x18 = BitVec.ofNat 64 (63 - i) ∧ a.getLsbD i = true ∧ ∀ j, i < j → a.getLsbD j = false) ∧
             ∃ i < 64, f 0x19 = BitVec.ofNat 64 i ∧ a.getLsbD i = true ∧ ∀ j < i, a.getLsbD j = false) ∧
    f 0x1A = BitVec.ofNat 64 ((List.range 64).countP fun i => a.getLsbD i)
  )

/-- R214: branches and jumps. The link is the address behind the instruction; a target outside private memory raises ADDRESS with the
target as EVAL, before anything is written; a poisoned operand raises POISON (R201). Conventions of the model: logs 9, 15. -/
def Obligations.BranchesAndJumps : Prop :=
  ∀ (s : State) (u : CoreId) (rd ra rb : Fin 32) (cond : Fin 8) (off13 : BitVec 13) (off21 : BitVec 21) (imm : BitVec 16) (imm47 : BitVec 47),
    let c := s.core u
    let taken := fun (a b : BitVec 64) =>
      if cond.val = 0 then a == b else if cond.val = 1 then a != b else if cond.val = 2 then a.slt b else if cond.val = 3 then !a.slt b
      else if cond.val = 4 then a.ult b else !a.ult b
    let yes := taken (BitVec.ofNat 64 (c.gr ra)) (BitVec.ofNat 64 (c.gr rb))
    let bt := c.pc + off13.signExtend 64 * 4
    let jt := c.pc + off21.signExtend 64 * 4
    let rt := (BitVec.ofNat 64 (c.gr ra) + imm.signExtend 64) >>> 2 <<< 2
    let lt := c.pc + imm47.signExtend 64
    (s.atIssue u 1 0x200 →
      (cond.val < 6 → c.gBad ra = false → c.gBad rb = false →
        (yes = false → exec (.br u ra rb cond off13) s = .next (s.retire u 1 id)) ∧
        (yes = true → inPriv bt.toNat = true → exec (.br u ra rb cond off13) s = .next (s.retireTo u bt.toNat id)) ∧
        (yes = true → inPriv bt.toNat = false → c.supervisor = false → c.evec ≠ 0 → exec (.br u ra rb cond off13) s = .next (s.handled u 3 bt.toNat))) ∧
      (inPriv jt.toNat = true → exec (.jal u rd off21) s = .next (s.retireTo u jt.toNat fun c => c.setG rd (c.pc + 4).toNat false)) ∧
      (inPriv jt.toNat = false → c.supervisor = false → c.evec ≠ 0 → exec (.jal u rd off21) s = .next (s.handled u 3 jt.toNat)) ∧
      (c.gBad ra = false → inPriv rt.toNat = true → exec (.jalr u rd ra imm) s = .next (s.retireTo u rt.toNat fun c => c.setG rd (c.pc + 4).toNat false)) ∧
      (c.gBad ra = false → inPriv rt.toNat = false → c.supervisor = false → c.evec ≠ 0 → exec (.jalr u rd ra imm) s = .next (s.handled u 3 rt.toNat)) ∧
      (c.gBad ra = true → c.supervisor = false → c.evec ≠ 0 →
        exec (.jalr u rd ra imm) s = .next (s.handled u 6 ra) ∧ (cond.val < 6 → exec (.br u ra rb cond off13) s = .next (s.handled u 6 ra)))) ∧
    (s.atIssue u 2 0x200 → imm47.toNat % 4 = 0 →
      (inPriv lt.toNat = true → exec (.ljal u rd imm47) s = .next (s.retireTo u lt.toNat fun c => c.setG rd (c.pc + 8).toNat false)) ∧
      (inPriv lt.toNat = false → c.supervisor = false → c.evec ≠ 0 → exec (.ljal u rd imm47) s = .next (s.handled u 3 lt.toNat)))

/-- R226, R228: ECALL, EBREAK and the other synchronous causes enter SUPERVISOR mode at CORE_EVEC with the address of the instruction, the
cause and the value saved, and nothing else changed; ERET leaves it, and is PRIVILEGED in JOB mode, as are writes of the exception
registers. A reserved funct raises ILLEGAL with the instruction word. Conventions of the model: log 9. -/
def Obligations.ExceptionsAndReturn : Prop :=
  ∀ (s : State) (u : CoreId) (g rd ra rb : Fin 32) (p : Fin 8) (funct : BitVec 8) (imm : BitVec 12),
    let c := s.core u
    let word := fun (sub imm12 : Nat) => 0x0F * 2 ^ 26 + g.val * 2 ^ 21 + sub * 2 ^ 16 + imm12
    s.atIssue u 1 0x200 →
      (c.supervisor = false → c.evec ≠ 0 →
        exec (.ecall u g 0 imm) s = .next (s.handled u 8 imm.toNat) ∧
        exec (.ebreak u g 0 0) s = .next (s.handled u 9 0) ∧
        exec (.eret u g 0 0) s = .next (s.handled u 2 (word 5 0)) ∧
        (0x006 ≤ imm.toNat → imm.toNat ≤ 0x00C → exec (.srw u g 0 imm) s = .next (s.handled u 2 (word 1 imm.toNat))) ∧
        (aluKnown funct.toNat = false → exec (.alu u rd ra rb p funct) s =
          .next (s.handled u 1 (rd.val * 2 ^ 21 + ra.val * 2 ^ 16 + rb.val * 2 ^ 11 + p.val * 2 ^ 8 + funct.toNat)))) ∧
      (c.supervisor = true → exec (.eret u g 0 0) s = .next (s.retireTo u c.epc.toNat fun c => { c with supervisor := false }))

/-- R199, R200: a write of elements puts each listed element's low bits in its place, keeps the others (and, without `fill`, every bit
above them; with it those bits become zero), poisons a lane that receives a poisoned element or keeps part of a poisoned one, and changes
no other register. R218: what each VINT funct computes on the integers that the elements hold; a shift by less than the width. Conventions
of the model: log 17. -/
def Obligations.VectorWritesAndIntegerResults : Prop :=
  (
  ∀ (c : Core) (vd w n : Nat) (fill : Bool) (l : List (Nat × Nat × Bool)),
    0 < w → w * n ≤ 512 → (∀ e ∈ l, e.1 < n) → (l.map (·.1)).Nodup →
    let c' := c.putEls vd w n fill l
    (∀ e ∈ l, c'.el vd w e.1 = e.2.1 % 2 ^ w) ∧
    (∀ i, i < n → (∀ e ∈ l, e.1 ≠ i) → c'.el vd w i = c.el vd w i) ∧
    (∀ j, w * n ≤ j → j < 512 → bit (c'.vr vd) j = (!fill && bit (c.vr vd) j)) ∧
    (∀ k, k < 8 → (c'.vBad vd k = true ↔
      ((∃ e ∈ l, e.2.2 = true ∧ w * e.1 < 64 * k + 64 ∧ 64 * k < w * e.1 + w) ∨
        (c.vBad vd k = true ∧ ∃ i, i < n ∧ (∀ e ∈ l, e.1 ≠ i) ∧ w * i < 64 * k + 64 ∧ 64 * k < w * i + w)))) ∧
    (∀ r, r ≠ vd → c'.vr r = c.vr r ∧ ∀ k, k < 8 → c'.vBad r k = c.vBad r k) ∧
    c' = { c with v := c'.v, vp := c'.vp }
  ) ∧
  (
  ∀ w a b : Nat, (w = 8 ∨ w = 16 ∨ w = 32 ∨ w = 64) → a < 2 ^ w → b < 2 ^ w →
    let x := sext w a
    let y := sext w b
    let top : Int := 2 ^ (w - 1) - 1
    let low : Int := -2 ^ (w - 1)
    let f := fun n => vintOp w n a b
    (f 0x00 = (a + b) % 2 ^ w ∧ f 0x01 = (a + 2 ^ w - b) % 2 ^ w ∧ f 0x02 = a * b % 2 ^ w ∧ f 0x04 = a * b / 2 ^ w ∧
      sext w (f 0x03) = x * y / 2 ^ w) ∧
    (sext w (f 0x05) = min x y ∧ sext w (f 0x06) = max x y ∧ f 0x07 = min a b ∧ f 0x08 = max a b) ∧
    (f 0x09 = a &&& b ∧ f 0x0A = a ||| b ∧ f 0x0B = a ^^^ b) ∧
    (b < w → f 0x0C = a * 2 ^ b % 2 ^ w ∧ f 0x0D = a / 2 ^ b ∧ sext w (f 0x0E) = x / 2 ^ b) ∧
    (sext w (f 0x0F) = max low (min top (x + y)) ∧ sext w (f 0x10) = max low (min top (x - y))) ∧
    (f 0x11 = x.natAbs) ∧ ∀ n, f n < 2 ^ w
  )

/-- R218, R221: element-wise instructions write f of the sources to each enabled element, retire, and change nothing else of the state;
the floating-point ones add their flags to CORE_FCSR (R217). Conventions of the model: logs 9, 17, 18. -/
def Obligations.ElementwiseInstructionsComplete : Prop :=
  ∀ (s : State) (u : CoreId) (vd va vb : Fin 32) (p et : Fin 8) (funct : Fin 32),
    let c := s.core u
    let w := etWidth et
    let en := c.enabled p (etLanes et)
    s.atIssue u 1 0x202 →
      (et.val < 4 → funct.val ≤ 0x11 → (funct.val = 0x11 → vb = 0) →
        exec (.vint u vd va vb p et funct) s = .next (s.retire u 1 fun c =>
          c.putEls vd w (etLanes et) false (en.map fun i => (i, vintOp w funct (c.el va w i) (c.el vb w i), c.elBad va w i || (funct != 0x11 && c.elBad vb w i))))) ∧
      (4 ≤ et.val → et.val < 7 → funct.val ≤ 0x0B →
        exec (.vfp u vd va vb p et funct) s = .next (s.retire u 1 fun c =>
          let r := fun i => fpOp (etFmt et) c.rm funct (c.el va w i) (c.el vb w i) (c.el vd w i)
          { c.putEls vd w (etLanes et) false (en.map fun i => (i, (r i).1, c.elBad va w i || (vfpTwo funct && c.elBad vb w i) || ((funct == 3 || funct == 4) && c.elBad vd w i)))
            with fcsr := en.foldl (fun f i => f ||| (r i).2.toNat) c.fcsr })) ∧
      (et.val = 4 ∨ et.val = 5 → funct.val ≤ 4 →
        exec (.vspec u vd va vb p et funct) s = .next (s.retire u 1 fun c =>
          let r := fun i => vspecOp c.rm et funct (c.el va w i)
          { c.putEls vd w (etLanes et) false (en.map fun i => (i, (r i).1, c.elBad va w i)) with fcsr := en.foldl (fun f i => f ||| (r i).2.toNat) c.fcsr }))

/-- R200, R201, R218-R220: compares, conversions, permutations, reductions, moves and predicate operations complete with their results,
and change nothing else. Conventions of the model: logs 9, 16. -/
def Obligations.OtherVectorInstructionsComplete : Prop :=
  ∀ (s : State) (u : CoreId) (vd va vb : Fin 32) (p et : Fin 8) (funct : Fin 32),
    let c := s.core u
    let w := etWidth et
    let n := etLanes et
    let en := c.enabled p n
    s.atIssue u 1 0x202 → et.val < 7 →
      (vcmpKnown funct = true → vd.val < 8 → (8 ≤ funct.val → 4 ≤ et.val) → (∀ i ∈ en, c.elBad va w i = false ∧ c.elBad vb w i = false) →
        ∃ t r, exec (.vcmp u vd va vb p et funct) s = .next t ∧
          t = s.retire u 1 (fun c => { c.setP vd r with fcsr := en.foldl (fun f i => f ||| (vcmpOp et funct (c.el va w i) (c.el vb w i)).2.toNat) c.fcsr }) ∧
          ∀ i, i < 64 → bit r i = (en.contains i && (vcmpOp et funct (c.el va w i) (c.el vb w i)).1)) ∧
      (vcvtKnown funct = true →
        let w' := vcvtWidth et funct
        let m := min n (512 / w')
        exec (.vcvt u vd va vb p et funct) s = .next (s.retire u 1 fun c =>
          let r := fun i => vcvtOp c.rm et funct (c.el va w i)
          { c.putEls vd w' m true ((c.enabled p m).map fun i => (i, (r i).1, c.elBad va w i)) with
            fcsr := (c.enabled p m).foldl (fun f i => f ||| (r i).2.toNat) c.fcsr })) ∧
      (funct.val ≤ 7 →
        exec (.vperm u vd va vb p et funct) s = .next (s.retire u 1 fun c =>
          c.putEls vd w n false ((if funct = 4 then upto 0 n else en).map fun i => (i, vpermEl c funct va vb w n en i)))) ∧
      (vredKnown funct = true → (funct.val < 8 ↔ et.val < 4) →
        let r := fun (c : Core) => tree (vredOp c.rm et funct) (Nat.log2 n) ((upto 0 n).map fun i => if bit (c.pr p) i then some (c.el va w i) else none)
        exec (.vred u vd va vb p et funct) s = .next (s.retire u 1 fun c =>
          { c.setV vd ((r c).1.getD 0) (fun k => k == 0 && en.any fun i => c.elBad va w i) with fcsr := c.fcsr ||| (r c).2.toNat })) ∧
      (let i := c.gr vb % n
       (bit (c.pr p) i = true →
        exec (.vmov u vd va vb p et 0) s = .next (s.retire u 1 fun c => c.putEls vd w n false [(i, c.gr va % 2 ^ w, c.gBad va || c.gBad vb)]) ∧
        exec (.vmov u vd va vb p et 1) s = .next (s.retire u 1 fun c => c.setG vd (c.el va w i) (c.elBad va w i || c.gBad vb))) ∧
       (bit (c.pr p) i = false →
        exec (.vmov u vd va vb p et 0) s = .next (s.retire u 1 id) ∧ exec (.vmov u vd va vb p et 1) s = .next (s.retire u 1 id)))

/-- R200, R218: PRED writes bit i of a p register only where the named predicate's bit i is set; PTOG and PCOUNT read only the enabled
bits and write g whole. Conventions of the model: log 9. -/
def Obligations.PredicateInstructions : Prop :=
  ∀ (s : State) (u : CoreId) (d a b p : Fin 8) (g : Fin 32),
    let c := s.core u
    let x := BitVec.ofNat 64 (c.pr a)
    let y := BitVec.ofNat 64 (c.pr b)
    let z := BitVec.ofNat 64 (c.gr g)
    let m := BitVec.ofNat 64 (c.pr p)
    let P := fun (k : Fin 8) => (⟨k.val, Nat.lt_of_lt_of_le k.isLt (by decide)⟩ : Fin 32)
    let gives := fun (i : Instr) (v : BitVec 64) =>
      exec i s = .next (s.retire u 1 fun c => c.setP d ((v &&& m) ||| (BitVec.ofNat 64 (c.pr d) &&& ~~~m)).toNat)
    s.atIssue u 1 0x200 →
      gives (.pred u (P d) (P a) (P b) p 0 0) (x &&& y) ∧ gives (.pred u (P d) (P a) (P b) p 0 1) (x ||| y) ∧
      gives (.pred u (P d) (P a) (P b) p 0 2) (x ^^^ y) ∧ gives (.pred u (P d) (P a) (P b) p 0 3) (x &&& ~~~y) ∧
      gives (.pred u (P d) (P a) 0 p 0 4) (~~~x) ∧
      (c.gBad g = false → gives (.pred u (P d) g 0 p 0 8) z) ∧
      (c.gBad g = true → c.supervisor = false → c.evec ≠ 0 → exec (.pred u (P d) g 0 p 0 8) s = .next (s.handled u 6 g)) ∧
      exec (.pred u g (P a) 0 p 0 9) s = .next (s.retire u 1 fun c => c.setG g (x &&& m).toNat false) ∧
      gives (.pred u (P d) g 0 p 0 0xA) (if 64 ≤ c.gr g then BitVec.allOnes 64 else BitVec.ofNat 64 (2 ^ c.gr g - 1)) ∧
      exec (.pred u g (P a) 0 p 0 0xB) s = .next (s.retire u 1 fun c => c.setG g ((List.range 64).countP fun i => (x &&& m).getLsbD i) false)

/-- R200: a scalar R-format instruction whose predicate's bit 0 is clear is skipped: it retires and changes nothing else. R254: an M-class
instruction whose predicate is clear writes no ticket and takes no entry of the queue: it counts in the summary and rd keeps its value. A
skipped MPASS only keeps its place in the order. Conventions of the model: log 9. -/
def Obligations.PredicatedOffInstructionsAreSkipped : Prop :=
  (
  ∀ (s : State) (u : CoreId) (rd ra rb : Fin 32) (p : Fin 8) (funct : BitVec 8),
    s.atIssue u 1 0x202 → bit ((s.core u).pr p) 0 = false →
      (aluKnown funct.toNat = true → funct.toNat < 0x18 → exec (.alu u rd ra rb p funct) s = .next (s.retire u 1 id)) ∧
      (funct.toNat < 32 → funct.toNat % 16 ≤ 9 → exec (.amo u rd ra rb p funct) s = .next (s.retire u 1 id)) ∧
      (fpuKnown (funct.toNat % 128) = true → funct.toNat % 128 ≠ 4 → exec (.fpu u rd ra rb p funct) s = .next (s.retire u 1 id))
  ) ∧
  (
  ∀ (s : State) (u : CoreId) (rd ra : Fin 32) (td : Fin 16) (p : Fin 8),
    let counted := s.retire u 1 fun c => { c with mSum := c.mSum.add 0 0 c.retired }
    s.atIssue u 1 0x200 → bit ((s.core u).pr p) 0 = false →
      exec (.mload u rd ra td 0 p 0 0) s = .next counted ∧ exec (.mdrain u rd ra td 0 p 0 0) s = .next counted ∧
      exec (.mmode u 0 ra 0 p 0 0) s = .next counted ∧
      (∃ t, exec (.mpass u rd ra td 0 p 0 0) s = .next t ∧ t.core u = (s.retire u 1 id).core u ∧
        (t.tile u.tile).seqr.held u.core = (s.tile u.tile).seqr.held u.core ∧ (t.tile u.tile).arr = (s.tile u.tile).arr ∧
        ∃ e, (t.tile u.tile).seqr.queue = (s.tile u.tile).seqr.queue ++ [e] ∧ e.op = .skippedPass ∧ e.core = u.core.val ∧ e.no = (s.tile u.tile).seqr.nextNo) ∧
      exec (.mwait u rd ra 3 p 0) s = .next (s.retire u 1 id) ∧ exec (.mpoll u rd ra 0 p 0) s = .next (s.retire u 1 id) ∧
      exec (.mwaitall u rd 0 0 p 0) s = .next (s.retire u 1 id)
  )

/-- R216, R217: scalar floating point writes its result, at the precision that funct[7] names and zero-extended, with the poison of the
sources it reads, and adds its flags; nothing traps. R216: the class code of FCLASS, and what the compares and the sign-blind operations
give at both precisions. Conventions of the model: logs 9, 18. -/
def Obligations.ScalarFloatingPoint : Prop :=
  (
  ∀ (s : State) (u : CoreId) (rd ra rb : Fin 32) (p : Fin 8) (funct : BitVec 8),
    let f := funct.toNat
    s.atIssue u 1 0x200 → fpuKnown (f % 128) = true → (f % 128 = 4 → rb = 0) → bit ((s.core u).pr p) 0 = true →
      exec (.fpu u rd ra rb p funct) s = .next (s.retire u 1 fun c =>
        let r := fpuOp c.rm f (c.gr ra) (c.gr rb) (c.gr rd)
        { c.setG rd r.1 (c.gBad ra || (fpuTwo f && c.gBad rb) || (f % 128 == 5 && c.gBad rd)) with fcsr := c.fcsr ||| r.2.toNat })
  ) ∧
  (
  ∀ (rm : RM) (a b : BitVec 32),
    let sign := a.getLsbD 31
    let e := (a.toNat / 2 ^ 23) % 2 ^ 8
    let m := a.toNat % 2 ^ 23
    let nan := e = 255 ∧ m ≠ 0
    let code := if e = 255 ∧ m ≠ 0 then 8 else if e = 255 then (if sign then 0 else 7) else if e ≠ 0 then (if sign then 1 else 6)
      else if m ≠ 0 then (if sign then 2 else 5) else if sign then 3 else 4
    (fpuOp rm 0x0B a.toNat b.toNat 0).1 = 2 ^ code ∧
    (¬ nan → (fpuOp rm 0x08 a.toNat a.toNat 0).1 = 1 ∧ (fpuOp rm 0x09 a.toNat a.toNat 0).1 = 0 ∧ (fpuOp rm 0x0A a.toNat a.toNat 0).1 = 1) ∧
    (nan → (fpuOp rm 0x08 a.toNat b.toNat 0).1 = 0 ∧ (fpuOp rm 0x09 a.toNat b.toNat 0).1 = 0 ∧ (fpuOp rm 0x0A a.toNat b.toNat 0).1 = 0 ∧
      (fpuOp rm 0x00 a.toNat b.toNat 0).1 = 0x7FC00000 ∧ (fpuOp rm 0x10 a.toNat b.toNat 0).1 = 0 ∧ (fpuOp rm 0x10 a.toNat b.toNat 0).2.nv = true)
  )

/-- R201, R203, R212, R215, R222: loads from private memory and scratchpad. The bytes at the address arrive in the register, sign- or
zero-extended; a scalar load's poison is the marks of the units it touches; a load of the scratchpad sees the combining buffer. Nothing
but the core changes, save that TLD and VLD flush the buffer's entries of the words they read. R201, R203, R212, R215, R222: stores to
private memory and scratchpad write exactly their own bytes: every other byte of memory, as a reader sees it, stays, and so does every
register. A poisoned store marks the private units it touches; an unpoisoned one clears the marks of those it writes whole. Conventions of
the model: logs 9, 25. -/
def Obligations.LocalLoadsAndStores : Prop :=
  (
  ∀ (s : State) (u : CoreId) (rd ra rb : Fin 32) (width : Fin 8) (off : BitVec 13) (tq : Fin 16) (o : Nat),
    let c := s.core u
    let n := 2 ^ (width.val % 4)
    let a := (BitVec.ofNat 64 (c.gr ra) + off.signExtend 64).toNat
    let priv := privKey u.tile u.core
    s.atIssue u 1 0x200 → c.gBad ra = false →
      (width.val < 7 → a = privBase + o → o + n ≤ 2 ^ 17 → (∀ k, o / 8 ≤ k → k ≤ (o + n - 1) / 8 → tget c.privUpset k = 0) →
        exec (.load u rd ra width off) s = .next (s.retire u 1 fun c =>
          c.setG rd (extend (decide (width.val < 4)) n (s.nat (priv o) n)) (s.privMarked u o n))) ∧
      (width.val < 7 → a = spdBase + o → o + n ≤ 2 ^ 23 → s.spdSound u.tile o n →
        exec (.load u rd ra width off) s = .next (s.retire u 1 fun c =>
          c.setG rd (extend (decide (width.val < 4)) n (s.seenNat u.tile o n)) false)) ∧
      (c.gr ra = privBase + o → o % 32 = 0 → o + 32 ≤ 2 ^ 17 → s.privSound u o 32 →
        exec (.tld u ra tq 0) s = .next (s.retire u 1 fun c => c.setT tq (s.nat (priv o) 32))) ∧
      (c.gr ra = spdBase + o → o % 32 = 0 → o + 32 ≤ 2 ^ 23 → s.spdSound u.tile o 32 →
        ∃ t, exec (.tld u ra tq 0) s = .next t ∧ t.core u = (s.retire u 1 fun c => c.setT tq (s.seenNat u.tile o 32)).core u ∧
          ∀ x, x < 2 ^ 23 → t.seen u.tile x = s.seen u.tile x) ∧
      (c.gr ra = privBase + o → o + 64 ≤ 2 ^ 17 → (∀ k, o / 8 ≤ k → k ≤ (o + 63) / 8 → tget c.privUpset k = 0) →
        (exec (.vld u rd ra rb 0 0 0 0) s = .next (s.retire u 1 fun c =>
          c.setV rd (s.nat (priv o) 64) fun k => s.privMarked u (o + 8 * k) 8))) ∧
      (c.gr ra = spdBase + o → o % 8 = 0 → o + 64 ≤ 2 ^ 23 → s.spdSound u.tile o 64 →
        ∃ t, exec (.vld u rd ra rb 0 0 0 0) s = .next t ∧
          t.core u = (s.retire u 1 fun c => c.setV rd (s.seenNat u.tile o 64) fun _ => false).core u ∧
          ∀ x, x < 2 ^ 23 → t.seen u.tile x = s.seen u.tile x)
  ) ∧
  (
  ∀ (s : State) (u : CoreId) (rs ra rb : Fin 32) (width : Fin 8) (off : BitVec 13) (tq : Fin 16) (o : Nat),
    let c := s.core u
    let n := 2 ^ width.val
    let a := (BitVec.ofNat 64 (c.gr ra) + off.signExtend 64).toNat
    let priv := privKey u.tile u.core
    -- bytes of `v` at private offset o, and nothing else
    let intoPriv := fun (n v : Nat) (t : State) =>
      (∀ k, t.byte k = if priv 0 + o ≤ k ∧ k < priv 0 + o + n then BitVec.ofNat 8 (v / 256 ^ (k - (priv 0 + o))) else s.byte k) ∧
      t.core u = { (s.retire u 1 id).core u with privUpset := (t.core u).privUpset }
    -- bytes of `v` at scratchpad offset o, and nothing else
    let intoSpd := fun (n v : Nat) (t : State) =>
      (∀ x, x < 2 ^ 23 → t.seen u.tile x = if o ≤ x ∧ x < o + n then BitVec.ofNat 8 (v / 256 ^ (x - o)) else s.seen u.tile x) ∧
      (∀ k, k < spdKey u.tile 0 ∨ spdKey u.tile 0 + 2 ^ 23 ≤ k → t.byte k = s.byte k) ∧ t.core u = (s.retire u 1 id).core u
    s.atIssue u 1 0x200 → c.gBad ra = false →
      (width.val < 4 → a = privBase + o → o + n ≤ 2 ^ 17 →
        ∃ t, exec (.store u rs ra width off) s = .next t ∧ intoPriv n (c.gr rs) t ∧
          (c.gBad rs = true → t.privMarked u o n = true) ∧ (c.gBad rs = false → o % 8 = 0 → n = 8 → t.privMarked u o n = false)) ∧
      (width.val < 4 → a = spdBase + o → o + n ≤ 2 ^ 23 → (∀ w, o / 32 ≤ w → w ≤ (o + n - 1) / 32 → (s.tile u.tile).spdBlocked w = false) →
        ∃ t, exec (.store u rs ra width off) s = .next t ∧ intoSpd n (c.gr rs) t) ∧
      (c.gr ra = privBase + o → o % 32 = 0 → o + 32 ≤ 2 ^ 17 → ∃ t, exec (.tst u ra tq 0) s = .next t ∧ intoPriv 32 (c.tr tq) t) ∧
      (c.gr ra = spdBase + o → o % 32 = 0 → o + 32 ≤ 2 ^ 23 → (s.tile u.tile).spdBlocked (o / 32) = false →
        ∃ t, exec (.tst u ra tq 0) s = .next t ∧ intoSpd 32 (c.tr tq) t) ∧
      (c.gr ra = privBase + o → o + 64 ≤ 2 ^ 17 → ∃ t, exec (.vst u rs ra rb 0 0 0 0) s = .next t ∧ intoPriv 64 (c.vr rs) t) ∧
      (c.gr ra = spdBase + o → o % 32 = 0 → o + 64 ≤ 2 ^ 23 → (∀ w, o / 32 ≤ w → w ≤ o / 32 + 1 → (s.tile u.tile).spdBlocked w = false) →
        ∃ t, exec (.vst u rs ra rb 0 0 0 0) s = .next t ∧ intoSpd 64 (c.vr rs) t)
  )

/-- R213: an atomic reads the old value into rd and writes op(old, rb) in the same step; CAS writes rb only where old equals rd.
Conventions of the model: logs 9, 15. -/
def Obligations.AtomicsComplete : Prop :=
  ∀ (s : State) (u : CoreId) (rd ra rb : Fin 32) (p : Fin 8) (funct : BitVec 8) (o : Nat),
    let c := s.core u
    let f := funct.toNat
    let n := if f < 16 then 8 else 4
    let b := c.gr rb % 2 ^ (8 * n)
    let put := fun (old : Nat) =>
      match f % 16 with
      | 0 => b | 1 => (old + b) % 2 ^ (8 * n) | 2 => old &&& b | 3 => old ||| b | 4 => old ^^^ b
      | 5 => if sext (8 * n) old < sext (8 * n) b then old else b
      | 6 => if sext (8 * n) old < sext (8 * n) b then b else old
      | 7 => min old b | 8 => max old b
      | _ => if old = c.gr rd % 2 ^ (8 * n) then b else old
    let got := fun (old : Nat) => extend (decide (n = 4)) n old
    s.atIssue u 1 0x202 → f < 32 → f % 16 ≤ 9 → bit (c.pr p) 0 = true → c.gBad ra = false → o % n = 0 →
      (c.gr ra = privBase + o → o + n ≤ 2 ^ 17 → s.privSound u o n →
        let old := s.nat (privKey u.tile u.core o) n
        ∃ t, exec (.amo u rd ra rb p funct) s = .next t ∧ t.nat (privKey u.tile u.core o) n = put old ∧
          (∀ k, k < privKey u.tile u.core 0 + o ∨ privKey u.tile u.core 0 + o + n ≤ k → t.byte k = s.byte k) ∧
          t.core u = { (s.retire u 1 fun c => c.setG rd (got old) false).core u with privUpset := (t.core u).privUpset }) ∧
      (c.gr ra = spdBase + o → o + n ≤ 2 ^ 23 → s.spdSound u.tile o n →
        let old := s.seenNat u.tile o n
        ∃ t, exec (.amo u rd ra rb p funct) s = .next t ∧ t.seenNat u.tile o n = put old ∧
          (∀ x, x < 2 ^ 23 → x < o ∨ o + n ≤ x → t.seen u.tile x = s.seen u.tile x) ∧
          t.core u = (s.retire u 1 fun c => c.setG rd (got old) false).core u)

/-- R201, R202, R203, R213, R215, R227: what raises ADDRESS, ALIGN and POISON before anything is performed. R204: a load of a page that no
cache of the tile or its region translates is held at issue with nothing performed and waits for a walk; one whose fault was resolved as
failed raises ACCESS. Conventions of the model: logs 15, 25. -/
def Obligations.MemoryExceptionsAndTranslation : Prop :=
  (
  ∀ (s : State) (u : CoreId) (rd ra rb : Fin 32) (width : Fin 8) (off : BitVec 13) (tq : Fin 16) (funct : BitVec 8),
    let c := s.core u
    let n := 2 ^ (width.val % 4)
    let a := (BitVec.ofNat 64 (c.gr ra) + off.signExtend 64).toNat
    s.atIssue u 1 0x202 → c.supervisor = false → c.evec ≠ 0 →
      (c.gBad ra = true →
        (width.val < 7 → exec (.load u rd ra width off) s = .next (s.handled u 6 ra)) ∧
        (width.val < 4 → exec (.store u rd ra width off) s = .next (s.handled u 6 ra)) ∧
        (funct.toNat < 32 → funct.toNat % 16 ≤ 9 → exec (.amo u rd ra rb 0 funct) s = .next (s.handled u 6 ra)) ∧
        exec (.tld u ra tq 0) s = .next (s.handled u 6 ra) ∧ exec (.tst u ra tq 0) s = .next (s.handled u 6 ra) ∧
        exec (.twr u ra tq 0) s = .next (s.handled u 6 ra) ∧ exec (.vld u rd ra rb 0 0 3 0) s = .next (s.handled u 6 ra) ∧
        exec (.vst u rd ra rb 0 0 3 0) s = .next (s.handled u 6 ra)) ∧
      (c.gBad ra = false →
        (width.val < 7 → caddr a n = .bad → exec (.load u rd ra width off) s = .next (s.handled u 3 a)) ∧
        (width.val < 4 → caddr a n = .bad → exec (.store u rd ra width off) s = .next (s.handled u 3 a)) ∧
        (funct.toNat < 16 → funct.toNat ≤ 9 →
          (caddr (c.gr ra) 8 = .bad ∨ caddr (c.gr ra) 8 = .virt → exec (.amo u rd ra rb 0 funct) s = .next (s.handled u 3 (c.gr ra))) ∧
          (caddr (c.gr ra) 8 ≠ .bad → caddr (c.gr ra) 8 ≠ .virt → c.gr ra % 8 ≠ 0 → exec (.amo u rd ra rb 0 funct) s = .next (s.handled u 4 (c.gr ra)))) ∧
        (c.gr ra % 32 ≠ 0 → exec (.tld u ra tq 0) s = .next (s.handled u 3 (c.gr ra)) ∧ exec (.tst u ra tq 0) s = .next (s.handled u 3 (c.gr ra))) ∧
        (∀ o, c.gr ra = spdBase + o → o + 64 ≤ 2 ^ 23 →
          (o % 8 ≠ 0 → exec (.vld u rd ra rb 0 0 3 0) s = .next (s.handled u 4 (c.gr ra))) ∧
          (o % 32 ≠ 0 → exec (.vst u rd ra rb 0 0 3 0) s = .next (s.handled u 4 (c.gr ra)))))
  ) ∧
  (
  ∀ (s : State) (u : CoreId) (rd ra : Fin 32) (width : Fin 8) (off : BitVec 13),
    let c := s.core u
    let n := 2 ^ (width.val % 4)
    let a := (BitVec.ofNat 64 (c.gr ra) + off.signExtend 64).toNat
    let x := s.tileCtx u.tile
    (s.atIssue u 1 0x200 → width.val < 7 → c.gBad ra = false → a % 32 + n ≤ 32 → a + n ≤ 2 ^ 56 →
      (∀ e ∈ (s.tile u.tile).tlb, e.covers x a = false) → (∀ e ∈ (s.region (regionOf u.tile)).stlb, e.covers x a = false) →
        ∃ t, exec (.load u rd ra width off) s = .next t ∧ t.core u = { c with hold := some { va := a } } ∧
          (∃ w ∈ t.mmu.walks, w.region = regionOf u.tile ∧ w.ctx = x ∧ w.va = a / 4096 * 4096) ∧ t.mem = s.mem) ∧
    (∀ h : CoreHold, c.hold = some h → h.resolved = some false → s.coreOn u = true → c.supervisor = false → c.evec ≠ 0 →
      exec (.load u rd ra width off) s = .next ((s.modCore u fun c => { c with hold := none }).handled u 5 h.va))
  )

/-- R215, R232, R243-R246: moves of descriptors, handles and system registers, FENCE and PAUSE. Conventions of the model: logs 9, 15. -/
def Obligations.SystemInstructionsComplete : Prop :=
  ∀ (s : State) (u : CoreId) (g : Fin 32) (tq q : Fin 16) (imm : BitVec 12),
    let c := s.core u
    s.atIssue u 1 0x200 →
      (imm.toNat < 8 → exec (.trd u g tq imm) s = .next (s.retire u 1 fun c => c.setG g (fld (c.tr tq) (32 * imm.toNat) 32) false)) ∧
      (imm.toNat < 8 → c.gBad g = false → exec (.twr u g tq imm) s = .next (s.retire u 1 fun c => c.setT tq (setFld (c.tr tq) (32 * imm.toNat) 32 (c.gr g)))) ∧
      (q.val < 8 → exec (.qmov u g q 0) s = .next (s.retire u 1 fun c => c.setG g (c.qr q) false)) ∧
      exec (.pause u g 0 imm) s = .next (s.retire u 1 id) ∧
      exec (.srr u g 0 0) s = .next (s.retire u 1 fun c => c.setG g (s.tag u.tile % 2 ^ 16 * 2 ^ 16 + s.lidOr u.tile % 2 ^ 10 * 2 ^ 6 + u.core.val) false) ∧
      (0x100 ≤ imm.toNat → imm.toNat < 0x800 ∨ 0xD00 ≤ imm.toNat → exec (.srr u g 0 imm) s = .next (s.retire u 1 fun c => c.setG g 0 false) ∧
        (c.gBad g = false → exec (.srw u g 0 imm) s = .next (s.retire u 1 id))) ∧
      (c.gBad g = false → exec (.srw u g 0 4) s = .next (s.retire u 1 fun c => { c with
        fcsr := (if c.gr g / 32 % 8 < 5 then c.gr g / 32 % 8 else c.fcsr / 32 % 8) * 32 + c.gr g % 32 })) ∧
      exec (.srr u g 0 4) s = .next (s.retire u 1 fun c => c.setG g (c.fcsr % 2 ^ 32) false) ∧
      (∃ t, exec (.fence u g 0 1) s = .next t ∧ t.core u = (s.retire u 1 id).core u ∧ (∀ x, x < 2 ^ 23 → t.seen u.tile x = s.seen u.tile x) ∧
        (s.tile u.tile).spd.cb.all (fun e => (t.tile u.tile).spd.cb.all fun f => f.word != e.word) = true) ∧
      (c.stores = [] → exec (.fence u g 0 2) s = .next (s.retire u 1 id)) ∧
      (c.stores ≠ [] → exec (.fence u g 0 2) s = .next s) ∧
      exec (.fence u g 0 4) s = .next (s.retire u 1 id)

/-- R229: an exception in SUPERVISOR mode, or with CORE_EVEC 0, stops the core with the saved registers written, raises event 0x1203, and
its job ends FAILED with status FAULTED. R242: EXIT waits while an instruction of the core's M-, X- or S-class has not completed; then the
core stops with its status. Conventions of the model: log 9. -/
def Obligations.ExceptionsEndJobsAndExitStops : Prop :=
  (
  ∀ (s : State) (u : CoreId) (g : Fin 32) (imm : BitVec 12) (j : Nat),
    let c := s.core u
    let p := s.tag u.tile
    s.atIssue u 1 0x200 → c.supervisor = true ∨ c.evec = 0 →
      (s.paddock p).resident = some j → (s.paddock p).releasing = false →
      (s.job j).live = true → (s.job j).kind = .compute → (s.job j).paddock = p → (s.job j).terminal = false →
      s.host.jobs.length < 1024 → s.host.funcs.all (fun e => !e.2.resetting) = true →
      (∃ t, exec (.ecall u g 0 imm) s = .next t ∧ (t.core u).running = false ∧ (t.core u).epc = c.pc ∧ (t.core u).ecause = 8 ∧
        (t.core u).eval = imm.setWidth 64 ∧ (t.job j).state = .failed ∧ (t.job j).status = 0x20 ∧
        ∃ e ∈ t.events, e.code = 0x1203 ∧ e.node = u.tile ∧ e.detail = [8, c.pcOf, imm.toNat]) ∧
      -- the same of every cause, through the one operation that all instructions take an exception by
      (∀ cause eval : Nat, let t := s.exception u cause eval
        (t.core u).running = false ∧ (t.core u).epc = c.pc ∧ (t.core u).ecause = cause ∧ (t.core u).eval = BitVec.ofNat 64 eval ∧ (t.job j).state = .failed ∧ (t.job j).status = 0x20 ∧
        ∃ e ∈ t.events, e.code = 0x1203 ∧ e.node = u.tile ∧ e.detail = [cause, c.pcOf, eval])
  ) ∧
  (
  ∀ (s : State) (u : CoreId) (g : Fin 32),
    let p := s.tag u.tile
    s.atIssue u 1 0x200 →
      (s.coreIssued u = true → exec (.exit u g 0 0) s = .next s) ∧
      (s.coreIssued u = false → (s.paddock p).resident = none →
        ∃ t, exec (.exit u g 0 0) s = .next t ∧ (t.core u).running = false ∧ (t.core u).exited = some ((s.core u).gr g)) ∧
      (∀ j m, s.coreIssued u = false → (s.paddock p).resident = some j → m ∈ s.memberTiles p → m ≠ u.tile → (s.tile m).core0.exited = none →
        ∃ t, exec (.exit u g 0 0) s = .next t ∧ (t.core u).running = false ∧ (t.core u).exited = some ((s.core u).gr g) ∧
          (t.job j).exits = (s.job j).exits ++ [(s.lidOr u.tile, u.core.val, (s.core u).gr g)])
  )

/-- R251-R253, R266-R275: an MLOAD, MPASS or MDRAIN that no rule rejects takes its ticket and the last place in the sequence, with its
operand word, its descriptor and, for a pass, the anchor and the linked transfer captured; the mode that later checks see follows R272. A
load of no array is complete at issue. MMODE sets an anchor. A core whose 16 entries are all held waits. Conventions of the model: log 26. -/
def Obligations.MatrixInstructionsComplete : Prop :=
  ∀ (s : State) (u : CoreId) (rd ra : Fin 32) (td : Fin 16) (p : Fin 8) (half : Fin 2),
    let c := s.core u
    let T := s.tile u.tile
    let x := c.gr ra
    let bits := c.tr td
    let d := Desc.ofNat bits
    let free := decide (T.seqr.held u.core < 16)
    s.atIssue u 1 0x200 → bit (c.pr p) 0 = true → c.gBad ra = false →
      (let w := LWord.ofNat x
       x < 2 ^ 9 → w.lanes ≠ 0 → descBad T.weightSheet w.diag bits = false → loadRateOk d.fmt w.lanes = true →
        (d.nm = 2 → w.lanes ≠ 1) → (w.diag = true → d.nm = 0) → (d.transposed = true → d.nm = 0 ∧ d.fmt ≠ 7 ∧ d.fmt ≠ 8) →
        d.cols = 64 * w.lanes → d.rows = (if w.diag then 1 else 64) →
        (if w.shared then 1 else (maskArrays w.arrays).length) ≤ d.planes →
          exec (.mload u rd ra td 0 p 0 0) s = .next
            (if w.arrays = 0 then s.endsAtIssue u rd 0 0 {} else if free then s.sequenced u rd (.load x bits) else s)) ∧
      (let w := PWord.ofNat x
       let ch := tget T.chans w.link
       ∀ rate, x < 2 ^ 55 → w.spars ≠ 0 → w.target < 3 → descBad T.weightSheet false bits = false → pairRate d.fmt w.wfmt = some rate →
        (w.spars = 4 → rate ≠ 1) → (w.diag = true → w.spars = 1) → d.nm = 0 →
        (w.add = true → (∀ b ∈ targetHalves w.target, T.seqr.issueMode b = passMode w.exact d.fmt) ∧ d.vdrop ≠ 2) →
        (w.diag = true → passMode w.exact d.fmt ≠ .bf16Exact) →
        (w.linked = true → ch.open_ = true ∧ ch.owner = u.core ∧ ∀ l, ch.lastLink = some l → l.op = .get ∨ l.op = .unpackNm ∨ l.op = .unpackGather ∨ l.op = .unpackExpand) →
        w.rowBase + w.rowCount ≤ targetRows w.exact rate w.target →
        d.cols = 64 * w.spars → w.n ≤ d.rows * d.planes →
          exec (.mpass u rd ra td 0 p 0 0) s = .next
            (if free then
              (s.sequenced u rd (.pass { word := x, desc := bits, anchor := if w.target = 1 then T.seqr.anchorB else T.seqr.anchorA
                                         link := if w.linked then (match ch.lastLink with | some l => l.no | none => 0) else 0 })).modSeqr u.tile fun q =>
                if w.add ∨ w.arrays = 0 then q
                else { q with issueA := if w.target = 1 then q.issueA else passMode w.exact d.fmt
                              issueB := if w.target = 0 then q.issueB else passMode w.exact d.fmt }
             else s)) ∧
      (let w := DWordM.ofNat x
       fld x 12 4 = 0 → x < 2 ^ 34 → w.target < 3 → w.lanes ≠ 0 → (w.zfill = true → w.scatter = true) →
        (w.scatter = true → ∀ b ∈ targetHalves w.target, (T.arr.idx b).valid = true) →
        descBad T.weightSheet false bits = false → (d.fmt = 0 ∨ d.fmt = 0xA ∨ d.fmt = 0xB) →
        (∀ b ∈ targetHalves w.target, T.seqr.issueMode b = if !w.exact then .normal else if w.lanes = 1 then .bf16Exact else .exact) →
        w.rowBase + (if w.scatter then T.arr.drainRows w else w.rowCount) ≤ targetRows w.exact w.lanes w.target →
        d.cols = (if w.exact = true ∧ w.lanes = 1 then 64 else 256 * w.lanes) →
        (if w.scatter then (T.arr.idx (w.target == 1)).scanned else w.rowCount) ≤ d.rows * d.planes →
          exec (.mdrain u rd ra td 0 p 0 0) s = .next
            (if free then
              (s.sequenced u rd (.drain x bits)).modSeqr u.tile fun q =>
                if wholeClear w then { q with issueA := if w.target = 1 then q.issueA else .normal
                                              issueB := if w.target = 0 then q.issueB else .normal } else q
             else s)) ∧
      (x < 2 ^ 11 → exec (.mmode u 0 ra 0 p 0 ⟨half.val, by omega⟩) s = .next
        (if free then
          (s.retire u 1 fun c => { c with mSum := c.mSum.add 0 0 c.retired }).modSeqr u.tile fun q =>
            if half = 0 then { q with anchorA := sext 11 x } else { q with anchorB := sext 11 x }
         else s)) ∧
      (2 ^ 11 ≤ x → exec (.mmode u 0 ra 0 p 0 ⟨half.val, by omega⟩) s = .next
        ((s.retire u 1 fun c => { c with mSum := c.mSum.add 0x19 0 c.retired }).modTile u.tile fun T =>
          T.setReg 0x812 (0x19 * 2 ^ 24 + 0x23 * 2 ^ 18 + u.core.val * 2 ^ 17)))

/-- R257, R258: a matrix instruction that meets causes of rejection completes at issue with the first of them in the order of R257:
REJ_ARG, REJ_DESC, REJ_PAIR, REJ_SPARSITY, REJ_TRANSPOSE, REJ_MODE, REJ_SCATTER, REJ_ROWS, REJ_SHAPE; it enters no unit and raises no
event. Conventions of the model: logs 15, 26. -/
def Obligations.MatrixRejections : Prop :=
  ∀ (s : State) (u : CoreId) (rd ra : Fin 32) (td : Fin 16) (p : Fin 8),
    let c := s.core u
    let T := s.tile u.tile
    let x := c.gr ra
    let bits := c.tr td
    let d := Desc.ofNat bits
    let bad := c.gBad ra
    s.atIssue u 1 0x200 → bit (c.pr p) 0 = true →
      (let w := LWord.ofNat x
       let code :=
        if bad ∨ x ≥ 2 ^ 9 ∨ w.lanes = 0 then 0x19
        else if descBad T.weightSheet w.diag bits then 0x14
        else if !loadRateOk d.fmt w.lanes then 0x10
        else if (d.nm = 2 ∧ w.lanes = 1) ∨ (w.diag = true ∧ d.nm ≠ 0) then 0x11
        else if d.transposed = true ∧ (d.nm ≠ 0 ∨ d.fmt = 7 ∨ d.fmt = 8) then 0x16
        else if d.cols ≠ 64 * w.lanes ∨ d.rows ≠ (if w.diag then 1 else 64) ∨ d.planes < (if w.shared then 1 else (maskArrays w.arrays).length) then 0x15
        else 0
       code ≠ 0 → exec (.mload u rd ra td 0 p 0 0) s = .next (s.rejectedAt u 0x20 rd 0 code bad)) ∧
      (let w := PWord.ofNat x
       let rate := (pairRate d.fmt w.wfmt).getD 1
       let mode := passMode w.exact d.fmt
       let code :=
        if bad ∨ x ≥ 2 ^ 55 ∨ w.spars = 0 ∨ w.target = 3 then 0x19
        else if descBad T.weightSheet false bits then 0x14
        else if pairRate d.fmt w.wfmt = none then 0x10
        else if (w.spars = 4 ∧ rate = 1) ∨ (w.diag = true ∧ w.spars ≠ 1) ∨ d.nm ≠ 0 then 0x11
        else if (w.add = true ∧ ∃ b ∈ targetHalves w.target, T.seqr.issueMode b ≠ mode) ∨ (d.vdrop = 2 ∧ w.add = true) ∨ (mode = .bf16Exact ∧ w.diag = true) then 0x13
        else if w.rowBase + w.rowCount > targetRows w.exact rate w.target then 0x12
        else if d.cols ≠ 64 * w.spars ∨ d.rows * d.planes < w.n then 0x15
        else 0
       w.linked = false → code ≠ 0 → exec (.mpass u rd ra td 0 p 0 0) s = .next (s.rejectedAt u 0x21 rd 0 code bad)) ∧
      (let w := DWordM.ofNat x
       let want := if !w.exact then HalfMode.normal else if w.lanes = 1 then .bf16Exact else .exact
       let rows := if w.scatter then T.arr.drainRows w else w.rowCount
       let surf := if w.scatter then (T.arr.idx (w.target == 1)).scanned else w.rowCount
       let code :=
        if bad ∨ fld x 12 4 ≠ 0 ∨ x ≥ 2 ^ 34 ∨ w.target = 3 ∨ w.lanes = 0 ∨ (w.zfill = true ∧ w.scatter = false) then 0x19
        else if descBad T.weightSheet false bits then 0x14
        else if ¬(d.fmt = 0 ∨ d.fmt = 0xA ∨ d.fmt = 0xB) then 0x10
        else if ∃ b ∈ targetHalves w.target, T.seqr.issueMode b ≠ want then 0x13
        else if w.scatter = true ∧ ∃ b ∈ targetHalves w.target, (T.arr.idx b).valid = false then 0x17
        else if w.rowBase + rows > targetRows w.exact w.lanes w.target then 0x12
        else if d.cols ≠ (if w.exact = true ∧ w.lanes = 1 then 64 else 256 * w.lanes) ∨ d.rows * d.planes < surf then 0x15
        else 0
       code ≠ 0 → exec (.mdrain u rd ra td 0 p 0 0) s = .next (s.rejectedAt u 0x22 rd 0 code bad))

/-- R259-R262, R278: MWAIT and MPOLL of an M ticket answer the held status where the instruction has completed, DONE and STALE where the
status is no longer held, REJ_HANDLE for a ticket of another kind or not yet issued; MWAIT of one that has not completed waits, MPOLL
answers 0. MWAIT writes the record first: the status word, then words A to G. MWAITALL answers the summary and clears it, and waits while
an M-class instruction of the core has not completed. R259-R262, R285: XWAIT and XPOLL of a transfer or dispatch ticket: the held status
with its record, DONE and STALE where it is no longer held, REJ_HANDLE for an M ticket or one not yet issued; of one that has not
completed, XWAIT waits and XPOLL answers 0 and writes nothing. Conventions of the model: log 25. -/
def Obligations.WaitsAndPolls : Prop :=
  (
  ∀ (s : State) (u : CoreId) (rd ra rb : Fin 32) (p : Fin 8) (o : Nat),
    let c := s.core u
    let x := c.gr ra
    let seq := x % 2 ^ 16
    let key := privKey u.tile u.core o
    let reject := (s.retire u 1 fun c => c.setG rd (statusWord 0x18 0 {}) false).modTile u.tile fun T =>
      T.setReg 0x812 (0x18 * 2 ^ 24 + 0x24 * 2 ^ 18 + u.core.val * 2 ^ 17)
    s.atIssue u 1 0x200 → bit (c.pr p) 0 = true → c.gBad ra = false → c.gBad rb = false →
    c.gr rb = privBase + o → o % 64 = 0 → o + 64 ≤ 2 ^ 17 →
      (x / 2 ^ 16 ≠ 2 ^ 44 ∨ c.issued 0 seq = false →
        exec (.mwait u rd ra rb p 0) s = .next reject ∧ exec (.mpoll u rd ra 0 p 0) s = .next reject) ∧
      (x / 2 ^ 16 = 2 ^ 44 → c.issued 0 seq = true →
        (s.ticketPending u 0 seq = true →
          exec (.mwait u rd ra rb p 0) s = .next s ∧ exec (.mpoll u rd ra 0 p 0) s = .next (s.retire u 1 fun c => c.setG rd 0 false)) ∧
        (s.ticketPending u 0 seq = false →
          let h := (s.tile u.tile).held.find? fun h => h.core == u.core.val && h.unit == 0 && h.seq == seq
          let status := match h with | some h => h.status | none => 2 ^ 63 + 2 ^ 62
          let words := (match h with | some h => h.words | none => []) ++ [0, 0, 0, 0, 0, 0, 0]
          exec (.mpoll u rd ra 0 p 0) s = .next (s.retire u 1 fun c => c.setG rd status false) ∧
          ∃ t, exec (.mwait u rd ra rb p 0) s = .next t ∧
            (t.core u).g = ((s.retire u 1 fun c => c.setG rd status false).core u).g ∧
            t.nat key 8 = status % 2 ^ 64 ∧ (∀ k, k < 7 → t.nat (key + 8 + 8 * k) 8 = words.getD k 0 % 2 ^ 64) ∧
            ∀ k, k < key ∨ key + 64 ≤ k → t.byte k = s.byte k)) ∧
      exec (.mwaitall u rd 0 0 p 0) s = .next
        (if s.mPending u then s else s.retire u 1 fun c => ({ c with mSum := {} }).setG rd c.mSum.word false)
  ) ∧
  (
  ∀ (s : State) (u : CoreId) (rd ra rb : Fin 32) (p : Fin 8) (o : Nat),
    let c := s.core u
    let x := c.gr ra
    let seq := x % 2 ^ 16
    let unit := if x / 2 ^ 60 = 2 then 1 + x / 2 ^ 56 % 16 else 17 + x / 2 ^ 56 % 16
    let known := fld x 16 40 = 0 ∧ (x / 2 ^ 60 = 2 ∨ (x / 2 ^ 60 = 3 ∧ x / 2 ^ 56 % 16 < 2)) ∧ c.issued unit seq = true
    let key := privKey u.tile u.core o
    let reject := (s.retire u 1 fun c => c.setG rd (statusWord 0x18 0 {}) false).modTile u.tile fun T =>
      T.setReg 0x812 (0x18 * 2 ^ 24 + 0x2E * 2 ^ 18 + u.core.val * 2 ^ 17)
    s.atIssue u 1 0x200 → bit (c.pr p) 0 = true → c.gBad ra = false → c.gBad rb = false →
    c.gr rb = privBase + o → o % 64 = 0 → o + 64 ≤ 2 ^ 17 →
      (¬known → exec (.xwait u rd ra rb p 0) s = .next reject ∧ exec (.xpoll u rd ra rb p 0) s = .next reject) ∧
      (known → s.ticketPending u unit seq = true →
        exec (.xwait u rd ra rb p 0) s = .next s ∧ exec (.xpoll u rd ra rb p 0) s = .next (s.retire u 1 fun c => c.setG rd 0 false)) ∧
      (known → s.ticketPending u unit seq = false →
        let h := (s.tile u.tile).held.find? fun h => h.core == u.core.val && h.unit == unit && h.seq == seq
        let status := match h with | some h => h.status | none => 2 ^ 63 + 2 ^ 62
        let words := (match h with | some h => h.words | none => []) ++ [0, 0, 0, 0, 0, 0, 0]
        ∃ t, exec (.xwait u rd ra rb p 0) s = .next t ∧ exec (.xpoll u rd ra rb p 0) s = .next t ∧
          (t.core u).g = ((s.retire u 1 fun c => c.setG rd status false).core u).g ∧
          t.nat key 8 = status % 2 ^ 64 ∧ (∀ k, k < 7 → t.nat (key + 8 + 8 * k) 8 = words.getD k 0 % 2 ^ 64) ∧
          ∀ k, k < key ∨ key + 64 ≤ k → t.byte k = s.byte k)
  )

/-- R279, R285: XOPEN opens the named channel, or the lowest free one, for the issuing core; a channel that is held, or no free one, gives
REJ_STATE and leaves q. XCLOSE of an empty channel frees it; XFENCE counts the channel's instructions; both wait while one has not
completed. Conventions of the model: log 26. -/
def Obligations.ChannelsOpenAndClose : Prop :=
  ∀ (s : State) (u : CoreId) (rd ra : Fin 32) (p q : Fin 8) (n : Nat),
    let c := s.core u
    let x := c.gr ra
    let free := fun (k : Nat) => (s.chan u.tile k).open_ = false ∧ (s.chan u.tile k).queue = []
    let answer := fun (code count : Nat) (c : Core) => c.setG rd (statusWord code count {}) false
    let refuse := fun (code : Nat) => (s.retire u 1 (answer code 0)).modTile u.tile fun T => T.setReg 0x812 (code * 2 ^ 24 + 0x28 * 2 ^ 18 + u.core.val * 2 ^ 17)
    s.atIssue u 1 0x200 → bit (c.pr p) 0 = true →
      (c.gBad ra = false →
        (n < 16 → free n → x = n ∨ (x / 16 = 16 ∧ ∀ k, k < n → ¬free k) →
          exec (.xopen u rd ra 0 p q) s = .next
            ((s.retire u 1 fun c => (c.setQ q (2 * 2 ^ 60 + s.tag u.tile % 2 ^ 16 * 2 ^ 32 + n)).setG rd (statusWord 0 0 {}) false).modTile u.tile fun T =>
              { T with chans := tput T.chans n ((tget T.chans n).fresh true u.core) })) ∧
        (x < 16 → ¬free x → exec (.xopen u rd ra 0 p q) s = .next (refuse 0x1A)) ∧
        (x / 16 = 16 → (∀ k, k < 16 → ¬free k) → exec (.xopen u rd ra 0 p q) s = .next (refuse 0x1A)) ∧
        (x / 16 % 16 ≠ 0 ∨ 512 ≤ x → exec (.xopen u rd ra 0 p q) s = .next (refuse 0x19))) ∧
      (s.holdsChan u q n →
        ((s.chan u.tile n).queue = [] →
          exec (.xclose u 0 0 0 p q) s = .next
            ((s.retire u 1 fun c => c.setQ q 0).modTile u.tile fun T => { T with chans := tput T.chans n ((tget T.chans n).fresh false 0) }) ∧
          exec (.xfence u rd 0 0 p q) s = .next
            (s.retire u 1 fun c => answer 0 (match c.fence with | some k => k | none => 0) { c with fence := none })) ∧
        ((s.chan u.tile n).queue ≠ [] →
          exec (.xclose u 0 0 0 p q) s = .next s ∧
          exec (.xfence u rd 0 0 p q) s = .next (s.modCore u fun c => { c with fence := some (match c.fence with | some k => k | none => (s.chan u.tile n).queue.length) }))) ∧
      exec (.xwaitall u rd 0 0 p 0) s = .next
        (if s.xPending u then s else s.retire u 1 fun c => ({ c with xSum := {} }).setG rd c.xSum.word false)

/-- R251-R253, R281-R287, R411: a transfer instruction that no rule rejects takes its ticket and a place in its channel's queue, with its
instruction word, operands, descriptor and parameter block captured. The statement is exact where the transfers ahead of it await answers;
`TransfersComplete` says what holds in every case. A channel that holds eight waits at issue. R251, R253, R254, R257, R265: whatever the
channels do, an XCOPY, XPUT or XSEND that is taken leaves its ticket in rd and the core goes on; one whose predicate is clear writes no
ticket and counts in the summary; one whose handle is closed or of another kind is rejected with REJ_HANDLE. Conventions of the model:
logs 21, 26, 28. -/
def Obligations.TransfersAreQueued : Prop :=
  (
  ∀ (s : State) (u : CoreId) (rd ra rb : Fin 32) (td : Fin 16) (p q : Fin 8) (n : Nat),
    let c := s.core u
    let T := s.tile u.tile
    let a := c.gr ra
    let bits := c.tr td
    let d := Desc.ofNat bits
    let word := fun (op x w f : Nat) => op * 2 ^ 26 + rd.val * 2 ^ 21 + ra.val * 2 ^ 16 + x * 2 ^ w + p.val * 2 ^ 8 + q.val * 2 ^ 5 + f
    let room := decide ((s.chan u.tile n).queue.length < 8)
    s.atIssue u 1 0x200 → bit (c.pr p) 0 = true → c.gBad ra = false →
    s.holdsChan u q n → s.engineStill u.tile → (s.chan u.tile n).queue ≠ [] →
      -- XCOPY: FAR in funct[1:0], ZRE in funct[2] of the rows' operand
      (∀ f : Fin 16, f.val % 4 < 3 → (f.val / 4 % 2 = 1 → f.val % 4 ≠ 0) → a % 32 = 0 → farBad (min (f.val % 4) 1) a = false →
        descBad T.weightSheet false bits = false →
        farOutside (min (f.val % 4) 1) a (if f.val % 4 = 1 then d.layoutChunks (bit f 3) else d.imageChunks (bit f 3)) = false →
          exec (.xcopyGet u rd ra td 0 p q f) s = .next
            (if room then s.transferring u rd n { op := .get, instr := word 0x29 td 12 (2 * f.val), ra := a, desc := bits } else s) ∧
          exec (.xcopyPut u rd ra td 0 p q f) s = .next
            (if room then s.transferring u rd n { op := .put, instr := word 0x29 td 12 (2 * f.val + 1), ra := a, desc := bits } else s)) ∧
      -- XPUT of 8 bytes, or of 16 bytes from an even pair
      (farBad 1 a = false → a % 8 = 0 →
        exec (.xput u rd ra rb p q 0) s = .next
          (if room then s.transferring u rd n { op := .xput, instr := word 0x2C rb 11 0, ra := a, rb := c.gr rb, rbPoison := c.gBad rb } else s)) ∧
      (farBad 1 a = false → a % 16 = 0 → rb.val % 2 = 0 →
        exec (.xput u rd ra rb p q 1) s = .next
          (if room then s.transferring u rd n { op := .xput, instr := word 0x2C rb 11 1, ra := a, rb := c.gr rb, rb1 := c.gr (rb.val + 1)
                                                rbPoison := c.gBad rb || c.gBad (rb.val + 1) } else s)) ∧
      -- XSEND: drove in [15:0], offset in [54:32]
      (∀ f : Fin 32, f.val % 8 = 0 → fld a 16 16 = 0 → a < 2 ^ 55 → fld a 32 5 = 0 → descBad T.weightSheet false bits = false →
        farOutside 1 (fld a 32 23) (d.imageChunks (bit f 4)) = false →
          exec (.xsend u rd ra td 0 p q f) s = .next
            (if room then s.transferring u rd n { op := .xsend, instr := word 0x2B td 12 f, ra := a, desc := bits } else s)) ∧
      -- XSPARSE with its parameter block in a scratchpad whose combining buffer is empty
      (a % 32 = 0 → a + 64 ≤ 2 ^ 23 → s.spdSound u.tile a 64 → T.spd.cb = [] → descBad T.weightSheet false bits = false →
        let par := s.nat (spdKey u.tile a) 64
        let x := SparseP.ofNat par
        x.reserved = false → x.far ≤ 2 → x.h ≤ 3 →
        farBad x.far x.values = false → farBad x.far x.index = false → (d.hasScale = true → farBad x.far x.scales = false) →
          (∀ prune : Fin 2, x.c ≠ 0 → x.s = 1 ∨ x.s = 2 → loadRateOk d.fmt x.c = true → (x.s = 2 → x.c ≠ 1) → d.cols = 64 * x.c → d.rows = 64 * x.nm →
            exec (.packNm u rd ra td 0 p q ⟨prune.val, by omega⟩) s = .next
              (if room then s.transferring u rd n { op := .packNm, instr := word 0x2A td 12 (8 * prune.val), ra := a, desc := bits, par := par } else s) ∧
            exec (.unpackNm u rd ra td 0 p q 0) s = .next
              (if room then s.transferring u rd n { op := .unpackNm, instr := word 0x2A td 12 1, ra := a, desc := bits, par := par } else s)) ∧
          (farBad x.far x.rowptr = false → x.i0 ≤ x.i1 →
            (d.cols % 64 = 0 → (x.i1 - x.i0 + 1) * 4 ^ x.h ≤ d.rows * d.planes →
              exec (.packBcr u rd ra td 0 p q 0) s = .next
                (if room then s.transferring u rd n { op := .packBcr, instr := word 0x2A td 12 2, ra := a, desc := bits, par := par } else s)) ∧
            (x.list % 32 = 0 → x.list < 2 ^ 23 → d.cols = 64 →
              exec (.unpackBcrGather u rd ra td 0 p q 0) s = .next
                (if room then s.transferring u rd n { op := .unpackGather, instr := word 0x2A td 12 3, ra := a, desc := bits, par := par } else s)) ∧
            (x.j0 ≤ x.j1 → d.cols = 64 * (x.j1 - x.j0 + 1) → (x.i1 - x.i0 + 1) * 4 ^ x.h ≤ d.rows * d.planes →
              exec (.unpackBcrExpand u rd ra td 0 p q 0) s = .next
                (if room then s.transferring u rd n { op := .unpackExpand, instr := word 0x2A td 12 4, ra := a, desc := bits, par := par } else s)))) ∧
      -- DRETURN: ROUTE_OFF [22:0], SHARD [27:24], SLICE [47:32]
      (let b := c.gr rb
       c.gBad rb = false → b < 2 ^ 48 → fld b 23 1 = 0 → fld b 28 4 = 0 → fld b 0 5 = 0 → a % 32 = 0 → a + 32 * fld b 32 16 ≤ 2 ^ 23 →
        exec (.dreturn u rd ra rb p q) s = .next
          (if room then s.transferring u rd n { op := .dreturn, instr := word 0x2D rb 11 6, ra := a, rb := b } else s))
  ) ∧
  (
  ∀ (s : State) (u : CoreId) (rd ra rb : Fin 32) (td : Fin 16) (p q : Fin 8),
    let c := s.core u
    let T := s.tile u.tile
    let a := c.gr ra
    let bits := c.tr td
    let kind := fld (c.qr q) 60 4
    let unit := 1 + (if kind = 2 then fld (c.qr q) 0 4 else 0)
    let skipped := s.retire u 1 fun c => { c with xSum := c.xSum.add 0 0 c.retired }
    s.atIssue u 1 0x200 →
      (bit (c.pr p) 0 = true → c.gBad ra = false → ∀ n, s.holdsChan u q n → (s.chan u.tile n).queue.length < 8 →
        let taken := fun (t : State) => ∃ m, t.core u = { (s.retire u 1 fun c => (c.takeSeq (1 + n)).setG rd (ticketWord (1 + n) (c.nextSeq (1 + n))) false).core u with xSum := m }
        (farBad 1 a = false → a % 8 = 0 → ∃ t, exec (.xput u rd ra rb p q 0) s = .next t ∧ taken t) ∧
        (a % 32 = 0 → a < 2 ^ 56 → descBad T.weightSheet false bits = false → farOutside 0 a ((Desc.ofNat bits).imageChunks false) = false →
          (∃ t, exec (.xcopyGet u rd ra td 0 p q 0) s = .next t ∧ taken t) ∧ ∃ t, exec (.xcopyPut u rd ra td 0 p q 0) s = .next t ∧ taken t) ∧
        (fld a 16 16 = 0 → a < 2 ^ 55 → fld a 32 5 = 0 → descBad T.weightSheet false bits = false → farOutside 1 (fld a 32 23) ((Desc.ofNat bits).imageChunks false) = false →
          ∃ t, exec (.xsend u rd ra td 0 p q 0) s = .next t ∧ taken t)) ∧
      (bit (c.pr p) 0 = false →
        exec (.xcopyGet u rd ra td 0 p q 0) s = .next skipped ∧ exec (.xcopyPut u rd ra td 0 p q 0) s = .next skipped ∧
        exec (.xput u rd ra rb p q 0) s = .next skipped ∧ exec (.xsend u rd ra td 0 p q 0) s = .next skipped ∧
        exec (.packNm u rd ra td 0 p q 0) s = .next skipped ∧ exec (.unpackNm u rd ra td 0 p q 0) s = .next skipped ∧
        exec (.packBcr u rd ra td 0 p q 0) s = .next skipped ∧ exec (.unpackBcrGather u rd ra td 0 p q 0) s = .next skipped ∧
        exec (.unpackBcrExpand u rd ra td 0 p q 0) s = .next skipped ∧ exec (.dreturn u rd ra rb p q) s = .next skipped) ∧
      (bit (c.pr p) 0 = true → c.gBad ra = false → kind ≠ 2 →
        (a % 32 = 0 → a < 2 ^ 56 → descBad T.weightSheet false bits = false → farOutside 0 a ((Desc.ofNat bits).imageChunks false) = false →
          exec (.xcopyGet u rd ra td 0 p q 0) s = .next (s.rejectedAt u 0x29 rd unit 0x18 false) ∧
          exec (.xcopyPut u rd ra td 0 p q 0) s = .next (s.rejectedAt u 0x29 rd unit 0x18 false)) ∧
        (farBad 1 a = false → a % 8 = 0 → exec (.xput u rd ra rb p q 0) s = .next (s.rejectedAt u 0x2C rd unit 0x18 false))) ∧
      (bit (c.pr p) 0 = true → c.gBad ra = true →
        exec (.xcopyGet u rd ra td 0 p q 0) s = .next (s.rejectedAt u 0x29 rd unit 0x19 true) ∧
        exec (.xput u rd ra rb p q 0) s = .next (s.rejectedAt u 0x2C rd unit 0x19 true) ∧
        exec (.xsend u rd ra td 0 p q 0) s = .next (s.rejectedAt u 0x2B rd unit 0x19 true))
  )

/-- R143-R147, R155, R156, R286-R288: the dispatch instructions on a unit whose queues are empty. Conventions of the model: log 31. -/
def Obligations.DispatchInstructionsComplete : Prop :=
  ∀ (s : State) (u : CoreId) (rd ra rb : Fin 32) (p q : Fin 8) (k : Nat),
    let c := s.core u
    let r := regionOf u.tile
    let pad := s.tag u.tile
    let a := c.gr ra
    let b := c.gr rb
    let L := s.slot r k
    let unit := 17 + k
    let seq := c.nextSeq unit
    s.atIssue u 1 0x200 → bit (c.pr p) 0 = true → s.dispatchStill u.tile → c.gBad ra = false → c.gBad rb = false →
    s.ticketPending u unit seq = false → (∀ h ∈ (s.tile u.tile).held, h.core = u.core → h.unit = unit → h.seq ≠ seq) →
      -- DLAYER loads a free slot from its descriptor and expert table
      (let n := s.seenNat u.tile a 64
       let d := LDesc.ofNat n
       b = k → k < 2 → L.heldBy = none → a + 64 ≤ 2 ^ 23 → s.spdSound u.tile a 64 → s.spdSound u.tile d.tableOff (32 * d.e) → ldescBad n = false →
        ∃ t, exec (.dlayer u rd ra rb p q) s = .next t ∧ s.completed t u rd unit (statusWord 0 d.e {}) [] ∧
          (t.core u).qr q = 3 * 2 ^ 60 + pad % 2 ^ 16 * 2 ^ 32 + k ∧
          let M := t.slot r k
          M.heldBy = some pad ∧ M.desc = n ∧ M.stepOpen = false ∧ M.tokens = [] ∧
          ∀ x, x < d.e → tget M.experts x = Expert.ofNat (s.seenNat u.tile (d.tableOff + 32 * x) 32)) ∧
      -- DSTEP opens a step: every count is zero
      (s.holdsSlot u q k → L.stepOpen = false → L.stepDone = true → a < 2 ^ 16 →
        ∃ t, exec (.dstep u rd ra 0 p q) s = .next t ∧ s.completed t u rd unit (statusWord 0 a {}) [] ∧
          let M := t.slot r k
          M.stepOpen = true ∧ M.step = a ∧ M.sent = 0 ∧ M.spilled = 0 ∧ M.dropped = 0 ∧ M.lost = 0 ∧ M.desc = L.desc ∧
          ∀ x, (tget M.experts x).count = 0 ∧ (tget M.experts x).cap = (tget L.experts x).cap) ∧
      (s.holdsSlot u q k → L.stepOpen = true → a < 2 ^ 16 →
        exec (.dstep u rd ra 0 p q) s = .next (s.rejectedAt u 0x2D rd unit 0x1A false)) ∧
      -- DGATE: a record that names no member tile of the region is refused
      (s.holdsSlot u q k → L.stepOpen = true → b = 1 → a + 32 ≤ 2 ^ 23 → s.spdSound u.tile a 32 → 540 ≤ s.seenNat u.tile (a + 2) 2 →
        ∃ t, exec (.dgate u rd ra rb p q) s = .next t ∧ s.completed t u rd unit (statusWord 0 0 {}) [1] ∧
          bit (t.region r).dspErr 0 = true ∧ (t.slot r k).tokens = L.tokens ∧ (t.slot r k).sent = L.sent) ∧
      (s.holdsSlot u q k → L.stepOpen = false → L.stepDone = true → 1 ≤ b → b ≤ 16384 → a + 32 * b ≤ 2 ^ 23 →
        exec (.dgate u rd ra rb p q) s = .next (s.rejectedAt u 0x2D rd unit 0x1A false) ∧
        exec (.dflush u rd 0 0 p q) s = .next (s.rejectedAt u 0x2D rd unit 0x1A false)) ∧
      -- DFLUSH of a step with nothing in flight: the step completes and reports its routes
      (s.holdsSlot u q k → L.stepOpen = true → L.tokens = [] → L.bundles = [] → L.held = [] → L.spillWrites = [] →
        ∃ t, exec (.dflush u rd 0 0 p q) s = .next t ∧
          s.completed t u rd unit (statusWord 0 L.sent {}) [L.sent % 2 ^ 32 + L.spilled % 2 ^ 32 * 2 ^ 32, L.dropped % 2 ^ 32 + L.lost % 2 ^ 32 * 2 ^ 32] ∧
          (t.slot r k).stepOpen = false ∧ (t.slot r k).stepDone = true ∧ (t.slot r k).flushedStep = L.step) ∧
      -- DSPILL with no token of the last flushed step left
      (s.holdsSlot u q k → L.stepDone = true → (∀ T ∈ L.tokens, T.step ≠ L.flushedStep) →
        ∃ t, exec (.dspill u rd 0 0 p q) s = .next t ∧ s.completed t u rd unit (statusWord 0 L.combinedSpill {}) []) ∧
      -- DRELEASE of a slot with nothing in flight
      (s.holdsSlot u q k → L.stepOpen = false → L.idle = true →
        exec (.drelease u 0 0 0 p q) s = .next ((s.retire u 1 fun c => c.setQ q 0).modSlot r k fun _ => {})) ∧
      (s.holdsSlot u q k → L.stepOpen = true ∨ L.idle = false → exec (.drelease u 0 0 0 p q) s = .next s) ∧
      -- a handle that is closed or of another kind
      (c.qr q / 2 ^ 60 ≠ 3 → a < 2 ^ 16 →
        exec (.dstep u rd ra 0 p q) s = .next (s.rejectedAt u 0x2D rd 17 0x18 false) ∧
        exec (.dflush u rd 0 0 p q) s = .next (s.rejectedAt u 0x2D rd 17 0x18 false) ∧
        exec (.dspill u rd 0 0 p q) s = .next (s.rejectedAt u 0x2D rd 17 0x18 false) ∧
        exec (.drelease u 0 0 0 p q) s = .next ((s.retire u 1 id).modTile u.tile fun T => T.setReg 0x812 (0x18 * 2 ^ 24 + 0x2D * 2 ^ 18 + u.core.val * 2 ^ 17)))

/-- R145, R147-R149: DGATE admits a preselected record of a layer with one route per token whose expert has room: the token is tracked,
the route takes the expert's count as its ring slot, and a bundle of its own begins. R146: the experts chosen for a token are the K scores
of highest value, in descending order; NaN ranks below every number, and equal values, the two zeros included, rank by ascending expert.
Conventions of the model: log 31. -/
def Obligations.GateRecordsAndSelection : Prop :=
  (
  ∀ (s : State) (u : CoreId) (rd ra rb : Fin 32) (p q : Fin 8) (k src x tok w : Nat) (home : TileIx),
    let c := s.core u
    let r := regionOf u.tile
    let a := c.gr ra
    let L := s.slot r k
    let unit := 17 + k
    let g := s.seenNat u.tile a 32
    let score := fld g 64 23
    let E := tget L.experts x
    s.atIssue u 1 0x200 → bit (c.pr p) 0 = true → s.dispatchStill u.tile → c.gBad ra = false → c.gBad rb = false → c.gr rb = 1 →
    s.ticketPending u unit (c.nextSeq unit) = false → (∀ h ∈ (s.tile u.tile).held, h.core = u.core → h.unit = unit → h.seq ≠ c.nextSeq unit) →
    s.holdsSlot u q k → L.stepOpen = true → L.d.ordered = false → L.d.k = 1 → 2 ≤ L.d.bundleMax →
    a % 32 = 0 → a + 32 ≤ 2 ^ 23 → s.spdSound u.tile a 32 →
    fld g 0 16 = tok → fld g 16 16 = src → src < 540 → s.tileOf src = some home.val → regionOf home = r → s.tag home = s.tag u.tile →
    fld g 32 5 = 0 → fld g 64 5 = 0 → fld g 96 5 = 0 → bit g 142 = true → L.seen.contains tok = false →
    s.unitTokens r < 16384 → s.unitBundles r < 4096 →
    score + 8 ≤ 2 ^ 23 → s.spdSound home score 8 → s.seenNat home score 8 = x + w * 2 ^ 32 → x < 2 ^ 32 → x < L.d.e → E.count < E.cap →
    (∀ b ∈ L.bundles, b.expert = x → b.sent = true) → (∀ T ∈ L.tokens, T.token = tok → T.step ≠ L.step) →
    (∀ T ∈ L.tokens, ∃ y ∈ T.routes, y.resolved = false) → (∀ b ∈ L.bundles, b.sent = true → ∃ e ∈ b.routes, ∃ y, L.route e.1 L.step e.2 = some y ∧ y.resolved = false) →
      ∃ t, exec (.dgate u rd ra rb p q) s = .next t ∧ s.completed t u rd unit (statusWord 0 1 {}) [0] ∧
        let M := t.slot r k
        M.sent = L.sent + 1 ∧ (tget M.experts x).count = E.count + 1 ∧ M.seen.contains tok = true ∧
        (∃ T ∈ M.tokens, T.token = tok ∧ T.srcLid = src ∧ T.step = L.step ∧ T.rowOff = fld g 32 23 ∧ T.outOff = fld g 96 23 ∧ T.retSlot = fld g 128 14 ∧
          T.routes = [{ token := tok, rank := 0, expert := x, weight := w, slotNo := E.count }]) ∧
        ∃ b ∈ M.bundles, b.expert = x ∧ b.sent = false ∧ b.routes = [(tok, 0)]
  ) ∧
  (
  ∀ (k : Nat) (scores : List Nat),
    let before := fun (i j : Nat) => scoreKey (scores.getD j 0) < scoreKey (scores.getD i 0) ∨ (scoreKey (scores.getD j 0) = scoreKey (scores.getD i 0) ∧ i < j)
    let l := chooseK k scores
    l.length = min k scores.length ∧ l.Pairwise (fun a b => before a.1 b.1) ∧
    (∀ e ∈ l, e.1 < scores.length ∧ e.2 = scores.getD e.1 0) ∧
    ∀ j, j < scores.length → (∀ e ∈ l, e.1 ≠ j) → ∀ e ∈ l, before e.1 j
  )

/-- R149, R150, R147, R148, R157, R160: the events of the dispatch unit. A partial bundle whose wait expires is sent, and with none the
command changes nothing. A spill write that finishes frees its entry and puts the route word before the row into spill slot c; one whose
fault was resolved as failed drops its route. A write of DSP_BAL.RESET makes the writer's balancers uniform. Conventions of the model: log
31. -/
def Obligations.DispatchEvents : Prop :=
  ∀ (s : State) (r : RegionIx) (k : Fin 2) (u : CoreId) (token : BitVec 16) (rank : Fin 8),
    let L := s.slot r k
    let tok := token.toNat
    ((∀ b ∈ L.bundles, b.sent = true) → exec (.bundleWaitExpiry r k) s = .next s) ∧
    (∀ b pre post, L.bundles = pre ++ b :: post → (∀ x ∈ pre, x.sent = true) → b.sent = false → (∀ x ∈ pre ++ post, x.no ≠ b.no) →
      ∃ t, exec (.bundleWaitExpiry r k) s = .next t ∧ ∀ x ∈ (t.slot r k).bundles, x.no = b.no → x.sent = true) ∧
    (L.spillWrites.contains (tok, rank.val) = false → exec (.spillWriteDone r k token rank) s = .next s) ∧
    (∀ T y h, L.tokens.find? (fun t => t.token == tok && t.step == L.step) = some T → L.route tok L.step rank = some y → y.resolved = false →
      L.spillWrites.contains (tok, rank.val) = true → s.ticking (tileInRegion r 0) = true → (s.slot r (1 - k.val)).spillHold = none → L.spillHold = some h → h.resolved = some false →
        L.queue = [] → (s.slot r (1 - k.val)).queue = [] →
        ∃ t, exec (.spillWriteDone r k token rank) s = .next t ∧ (t.slot r k).spillHold = none ∧
          (t.slot r k).spillWrites.contains (tok, rank.val) = false ∧ (t.slot r k).dropped = L.dropped + 1 ∧ (t.slot r k).lost = L.lost) ∧
    (∀ T y src out, L.queue = [] → (s.slot r (1 - k.val)).queue = [] →
      L.tokens.find? (fun t => t.token == tok && t.step == L.step) = some T → L.route tok L.step rank = some y → y.resolved = false →
      L.spillWrites.contains (tok, rank.val) = true → s.ticking (tileInRegion r 0) = true → L.spillHold = none → (s.slot r (1 - k.val)).spillHold = none →
      s.tileOf T.srcLid = some src → s.spdSound src T.rowOff L.d.rowBytes → (s.tile src).spd.cb = [] → T.rowOff % 32 = 0 → L.d.rowBytes % 32 = 0 →
      let n := L.d.rowBytes + 32
      let va := (tget L.experts y.expert).spillVa + y.slotNo * n
      va % 4096 + n ≤ 4096 → va % 32 = 0 → out % 32 = 0 → out + n ≤ 0x13600000000 → out / 4096 = (out + n - 1) / 4096 →
      (s.spillLook r (s.paddock (L.heldBy.getD 0)).ctx va).1 = .hit 0 out → T.rowOff + L.d.rowBytes ≤ 2 ^ 23 → y.rank < 8 →
        ∃ t, exec (.spillWriteDone r k token rank) s = .next t ∧ (t.slot r k).spillWrites.contains (tok, rank.val) = false ∧
          t.nat (hbmAddrKey out) 32 =
            tok + T.srcLid % 2 ^ 16 * 2 ^ 16 + y.rank * 2 ^ 32 + k.val * 2 ^ 35 + L.step % 2 ^ 16 * 2 ^ 40 + y.weight % 2 ^ 32 * 2 ^ 64 + T.retSlot % 2 ^ 14 * 2 ^ 96 ∧
          ∀ i, i < L.d.rowBytes → t.byte (hbmAddrKey out + 32 + i) = s.byte (spdKey src (T.rowOff + i))) ∧
    (let mine := fun (k : Nat) => (s.slot (regionOf u.tile) k).heldBy = some (s.tag u.tile)
     exec (.dspBalReset u) s = .next
      (let t := if mine 0 then s.modSlot (regionOf u.tile) 0 LayerSlot.uniform else s
       if mine 1 then t.modSlot (regionOf u.tile) 1 LayerSlot.uniform else t))

/-- R289-R291: the hurdle instructions. HARM opens a handle and sends the arm to the region's L1 node; HPASS sends one contribution, after
the waits of R233 and not before the core's previous generation is complete; HWAIT, HTEST and HSTAT answer from the last generation;
HCLOSE closes the handle once the current generation is complete. Conventions of the model: log 30. -/
def Obligations.HurdleInstructionsComplete : Prop :=
  ∀ (s : State) (u : CoreId) (rd ra rb : Fin 32) (p q : Fin 8) (ch : Nat) (h : HurdleCh),
    let c := s.core u
    let w := c.gr ra
    let pad := s.tag u.tile
    let n := (s.members pad).length
    let rank := s.rank u.tile
    let first := fld w 16 16
    let last := fld w 32 16
    let hi := if last = 0xFFFF then n - 1 else last
    let armed := fun (k : Nat) => (tget ((s.tile u.tile).core k).hurdles (w % 64)).isSome
    let refuse := fun (code : Nat) => (s.retire u 1 fun c => c.setG rd (statusWord code 0 {}) false).modTile u.tile fun T =>
      T.setReg 0x812 (code * 2 ^ 24 + 0x30 * 2 ^ 18 + u.core.val * 2 ^ 17)
    s.atIssue u 1 0x200 → bit (c.pr p) 0 = true →
      -- HARM
      (c.gBad ra = false → fld w 6 2 = 0 → fld w 8 3 ≠ 7 → fld w 11 5 = 0 → w < 2 ^ 48 → hi < n → first ≤ rank → rank ≤ hi →
        (armed 0 = false → armed 1 = false →
          exec (.harm u rd ra 0 p q) s = .next
            (let t := s.retire u 1 fun c => ({ (c.setQ q (4 * 2 ^ 60 + pad % 2 ^ 16 * 2 ^ 32 + w % 64)) with
                hurdles := tput c.hurdles (w % 64) (some { op := fld w 8 3, first := first, last := last }) }).setG rd (statusWord 0 0 {}) false
             { t with net := { t.net with harms := t.net.harms ++
                [{ paddock := pad, channel := w % 64, dst := regionOf u.tile, src := u.tile, tile := u.tile, op := fld w 8 3, first := first, last := last }] } })) ∧
        (armed 0 = true ∨ armed 1 = true → exec (.harm u rd ra 0 p q) s = .next (refuse 0x1A))) ∧
      (c.gBad ra = false → fld w 6 2 ≠ 0 ∨ fld w 8 3 = 7 ∨ fld w 11 5 ≠ 0 ∨ 2 ^ 48 ≤ w ∨ rank < first ∨ hi < rank →
        exec (.harm u rd ra 0 p q) s = .next (refuse 0x19)) ∧
      -- the rest, on a handle that this core armed
      (ch < 64 → c.qr q = 4 * 2 ^ 60 + pad * 2 ^ 32 + ch → tget c.hurdles ch = some h →
        (c.stores = [] → h.passed ≤ h.completed →
          exec (.hpass u 0 0 rb p q 0) s = .next
            (let t := s.retire u 1 fun c => { c with hurdles := tput c.hurdles ch (some { h with passed := h.passed + 1 }) }
             { t with net := { t.net with hpasses := t.net.hpasses ++
                [{ paddock := pad, channel := ch, dst := regionOf u.tile, src := u.tile, value := c.gr rb, poison := c.gBad rb }] } })) ∧
        (c.stores ≠ [] ∨ h.completed < h.passed → exec (.hpass u 0 0 rb p q 0) s = .next s) ∧
        (h.passed = 0 → exec (.hwait u rd 0 0 p q) s = .next (s.retire u 1 fun c => c.setG rd 0 false)) ∧
        (h.passed ≠ 0 → h.passed ≤ h.completed → exec (.hwait u rd 0 0 p q) s = .next (s.retire u 1 fun c => c.setG rd h.value h.poison)) ∧
        (h.completed < h.passed → exec (.hwait u rd 0 0 p q) s = .next s ∧ exec (.hclose u 0 0 0 p q) s = .next s) ∧
        exec (.htest u rd 0 0 p q) s = .next (s.retire u 1 fun c => c.setG rd (if h.passed ≤ h.completed then 1 else 0) false) ∧
        exec (.hstat u rd 0 0 p q) s = .next (s.retire u 1 fun c => c.setG rd (statusWord h.code h.completed { poisoned := h.poison }) false) ∧
        (h.passed ≤ h.completed →
          ∃ t, exec (.hclose u 0 0 0 p q) s = .next t ∧ t.core u = (s.retire u 1 fun c => { (c.setQ q 0) with hurdles := tput c.hurdles ch none }).core u ∧
            ∀ node, ∀ x ∈ (t.hnode node pad ch).arms, x.1 ≠ u.tile)) ∧
      -- a closed handle
      (c.qr q = 0 → exec (.hpass u 0 0 rb p q 0) s = .next ((s.retire u 1 id).modTile u.tile fun T => T.setReg 0x812 (0x18 * 2 ^ 24 + 0x31 * 2 ^ 18 + u.core.val * 2 ^ 17)))

/-- R289-R291, R338-R341: the messages of the hurdle network. An arm is noted at its node, and one of other OP or range than an earlier
one sets the mismatch; below the meeting node it goes on up. A contribution is combined; the last one at the meeting node ends the
generation, and a completion with the value goes to every participant. A completion gives a participant's core the value. A node's
uncorrectable error ends every generation in progress through it BROKEN and raises 0x3007. R289: the reduction is commutative and
associative on 64-bit values, so that a generation's value does not depend on the order in which contributions arrive (R290). Conventions
of the model: log 30. -/
def Obligations.HurdleMessagesAndOrder : Prop :=
  (
  ∀ (s : State) (m : HMsg) (node : Fin 190),
    let h := s.hnode m.dst m.paddock m.channel
    let ts := s.participants m.paddock h
    (m.dst < 190 → m.channel < 64 → m.paddock < 65536 →
      (∃ t, exec (.hurdleArmMessage m) s = .next t ∧ t.net.harms.count m ≤ s.net.harms.count m ∧
        (nodeLevel m.dst < nodeLevel (meetNode (s.rankTiles m.paddock m.first m.last)) →
          t.net.harms = s.net.harms.erase m ++ [{ m with dst := nodeUp m.dst, src := m.dst }] ∧
          (m.tile, m.op, m.first, m.last) ∈ (t.hnode m.dst m.paddock m.channel).arms ∧
          ((∃ x ∈ h.arms, x.1 ≠ m.tile ∧ x.2 ≠ (m.op, m.first, m.last)) → (t.hnode m.dst m.paddock m.channel).mismatch = true))) ∧
      -- a contribution that is not the last of its node
      (h.arms ≠ [] → h.arrived.contains m.src = false → h.passedUp = false → (∃ c ∈ nodeChildren m.dst ts, c ≠ m.src ∧ h.arrived.contains c = false) →
        exec (.hurdleContribution m) s = .next (({ s with net := { s.net with hpasses := s.net.hpasses.erase m } } : State).modHnode m.dst m.paddock m.channel fun h =>
          { h with arrived := setIns h.arrived m.src
                   value := if h.arrived = [] then m.value % 2 ^ 64 else hurdleOp (match h.arms with | a :: _ => a.2.1 | [] => 0) h.value (m.value % 2 ^ 64)
                   poison := h.poison || m.poison, mismatch := h.mismatch || decide (m.code = 0x27) })) ∧
      -- the last contribution, at the meeting node of arms that agree
      (h.arms ≠ [] → h.arrived.contains m.src = false → h.passedUp = false → h.mismatch = false → m.code ≠ 0x27 →
        (∀ c ∈ nodeChildren m.dst ts, c = m.src ∨ h.arrived.contains c = true) → m.dst = meetNode ts →
        ∃ t, exec (.hurdleContribution m) s = .next t ∧
          t.net.hdones = s.net.hdones ++ ts.map (fun x => { paddock := m.paddock, channel := m.channel, dst := x, src := m.dst
                                                            value := if h.arrived = [] then m.value % 2 ^ 64 else hurdleOp (match h.arms with | a :: _ => a.2.1 | [] => 0) h.value (m.value % 2 ^ 64)
                                                            poison := h.poison || m.poison }) ∧
          (t.hnode m.dst m.paddock m.channel).gen = h.gen + 1 ∧ (t.hnode m.dst m.paddock m.channel).arrived = [] ∧ t.tiles = s.tiles)) ∧
    -- a completion at a participant whose core 0 armed the channel
    (∀ x, m.dst < 576 → s.tag m.dst = m.paddock → tget (s.tile m.dst).core0.hurdles m.channel = some x → tget (s.tile m.dst).core1.hurdles m.channel = none →
      ∃ t, exec (.hurdleCompletion m) s = .next t ∧ t.net.hdones = s.net.hdones.erase m ∧
        tget (t.tile m.dst).core0.hurdles m.channel = some { x with completed := x.completed + 1, passed := max x.passed (x.completed + 1)
                                                                    value := m.value % 2 ^ 64, poison := m.poison, code := m.code }) ∧
    -- node errors and the Fold's moves
    (∃ t, exec (.hurdleNodeUe node) s = .next t ∧ exec (.hurdleCtl node false true) s = .next t ∧
      (∃ e ∈ t.events, e.code = 0x3007 ∧ e.detail = [node.val]) ∧
      ∀ p ch, p < 65536 → ch < 64 → ((s.hnode node p ch).arrived ≠ [] ∨ (s.hnode node p ch).passedUp = true) →
        (t.hnode node p ch).arrived = [] ∧ (t.hnode node p ch).passedUp = false ∧
        ∀ x ∈ t.net.hpasses, ¬(x.paddock = p ∧ x.channel = ch)) ∧
    exec (.hurdleCtl node false false) s = .next s ∧
    (144 ≤ node.val → exec (.hurdleCtl node true false) s = .next { s with net := { s.net with twinned := setIns s.net.twinned node } })
  ) ∧
  (
  ∀ (op a b c : Nat), op < 7 → a < 2 ^ 64 → b < 2 ^ 64 → c < 2 ^ 64 →
    hurdleOp op a b = hurdleOp op b a ∧ hurdleOp op (hurdleOp op a b) c = hurdleOp op a (hurdleOp op b c) ∧ hurdleOp op a b < 2 ^ 64
  )

/-- R184, R185, R305, R306, R315, R316, R323, R345: scratchpad packets at a tile and answers at their sender. A taken WRITE performs its
words with their marks and is acknowledged; a taken READ is answered with the words and their marks; a NOTICE that the unit takes is
acknowledged. Each is answered MOVED, REFUSED or CUT where a rule says so and then performs nothing, waits for a region in NAP, and stays
in the network before a fenced interface. An answer OK ends its request; MOVED and CUT have it sent again once, BUSY has it wait; an
answer 5 ends it as lost. A time-out sends it again once and then ends it. Conventions of the model: logs 8, 28. -/
def Obligations.PacketsAndAnswers : Prop :=
  ∀ (s : State) (p : Packet) (q : Request),
    let t := p.dst
    let T := s.tile t
    let word := fun (i : Nat) => (p.addr / 32 + i) % 2 ^ 18
    let commands : List Instr := [.write p, .read p, .notice p]
    let mine : Instr → Prop := fun c => (p.typ = .write ∧ c = .write p) ∨ (p.typ = .read ∧ c = .read p) ∨ (p.typ = .notice ∧ c = .notice p)
    let here := t < 576 ∧ T.net.fenced = false ∧ (s.region (regionOf t)).power ≠ .nap ∧ (s.region (regionOf t)).power ≠ .off
    let member := here ∧ p.dstLid = s.lidOr t ∧ p.tag = s.tag t ∧ p.tag ≠ 0 ∧ p.tag ≠ 0xFFFF ∧ p.cut = false
    let answered := fun (u : State) (typ : PType) (st : Nat) => ∃ a : Packet,
      u.net.flight = s.net.flight.erase p ++ [a] ∧ a.typ = typ ∧ a.status = st ∧ a.src = t ∧ a.dst = p.src ∧ a.txn = p.txn
    let sound := ∀ i, i < p.words → tget T.spd.upset (word i) = 0 ∧ T.spdBlocked (word i) = false
    -- at the tile
    (p.typ = .write → member → p.addr < 2 ^ 48 → p.words ≤ 64 → p.data.length = p.words → T.spd.cb = [] → sound →
      ∃ u, exec (.write p) s = .next u ∧ answered u .writeAck 0 ∧
        (∀ i, i < p.words → u.marked (spdKey t (32 * word i)) = bit p.poison i ∧
          ∀ j, j < 32 → u.byte (spdKey t (32 * word i) + j) = BitVec.ofNat 8 (fld (p.data.getD i 0).toNat (8 * j) 8)) ∧
        ∀ k, (∀ i, i < p.words → k < spdKey t (32 * word i) ∨ spdKey t (32 * word i) + 32 ≤ k) → u.byte k = s.byte k) ∧
    (p.typ = .read → member → p.addr < 2 ^ 48 → p.words ≤ 64 → T.spd.cb = [] → sound →
      ∃ u a, exec (.read p) s = .next u ∧ u.net.flight = s.net.flight.erase p ++ [a] ∧ a.typ = .readData ∧ a.status = 0 ∧ a.dst = p.src ∧
        a.txn = p.txn ∧ u.mem = s.mem ∧ u.marks = s.marks ∧ a.data.length = p.words ∧
        ∀ i, i < p.words → a.data.getD i 0 = wordOf (s.bytes (spdKey t (32 * word i)) 32) ∧ bit a.poison i = s.marked (spdKey t (32 * word i))) ∧
    (p.typ = .notice → member → (s.paddock p.tag).frozen = false →
      s.noticeOk (regionOf t) p.tag (p.data.getD 0 0).toNat = true →
        exec (.notice p) s = .next ((((s.landed p).countRx t).notice (regionOf t) p.tag (p.data.getD 0 0).toNat).2.answer p .writeAck t 0 [] 0)) ∧
    (∀ c ∈ commands, mine c →
      (t < 576 → T.net.fenced = true → exec c s = .next s) ∧
      (t < 576 → T.net.fenced = false → (s.region (regionOf t)).power = .nap →
        ∃ u, exec c s = .next u ∧ (u.tile t).net.waiting = T.net.waiting ++ [p] ∧ u.net.flight = s.net.flight.erase p ∧
          ((s.region (regionOf t)).waking = true ∨ regionOf t ∈ u.power.wakes)) ∧
      (here → p.tag ≠ 0xFFFF →
        let typ := if p.typ = .read then .readData else .writeAck
        (p.dstLid ≠ s.lidOr t → ∃ u, exec c s = .next u ∧ answered u typ 2 ∧ u.mem = s.mem ∧ u.events = s.events) ∧
        (p.dstLid = s.lidOr t → s.tag t ≠ 0 → p.tag ≠ s.tag t →
          ∃ u, exec c s = .next u ∧ answered u typ 1 ∧ u.mem = s.mem ∧
            (u.tile t).reg 0xA0B = p.srcLid % 2 ^ 16 * 2 ^ 16 + min (fld (T.reg 0xA0B) 0 16 + 1) 0xFFFF) ∧
        (p.dstLid = s.lidOr t → s.tag t ≠ 0 → p.tag = s.tag t → p.cut = true →
          ∃ u, exec c s = .next u ∧ answered u typ 4 ∧ u.mem = s.mem))) ∧
    -- answers at their sender
    (∀ c : Instr, (p.typ = .writeAck ∧ c = .writeAck p) ∨ (p.typ = .readData ∧ c = .readData p) ∨ (p.typ = .memData ∧ c = .memData p) ∨
        (p.typ = .memAck ∧ c = .memAck p) →
      t < 576 → T.net.fenced = false → p.cut = false → T.net.requests.find? (fun q => q.pkt.txn == p.txn && !q.busy) = some q → q.more = [] →
        let over_ := (s.landed p).modTile t fun T => { T with net := { T.net with requests := T.net.requests.filter fun x => x.pkt.txn != q.pkt.txn } }
        (p.status = 0 → q.for_ = .save → exec c s = .next over_) ∧
        (p.status = 1 → q.for_ = .save → ∃ u, exec c s = .next u ∧ bit ((u.tile t).reg 0xC05) 3 = true ∧ (u.tile t).net.requests = (over_.tile t).net.requests) ∧
        (p.status = 3 → ∃ u, exec c s = .next u ∧ u.net.flight = s.net.flight.erase p ∧
          (u.tile t).net.requests = T.net.requests.map fun x => if x.pkt.txn = p.txn then { x with busy := true } else x) ∧
        (∀ n, (p.status = 2 ∧ q.moved = false) ∨ (p.status = 4 ∧ q.cut = false) → s.reResolve t q.pkt = some n → q.pkt.typ ≠ .droveData →
          ∃ u, exec c s = .next u ∧ u.net.flight = s.net.flight.erase p ++ [{ q.pkt with dst := n, vc := 0, cut := false }] ∧
            (∀ x ∈ (u.tile t).net.requests, x.pkt.txn = p.txn → (p.status = 2 → x.moved = true) ∧ (p.status = 4 → x.cut = true))) ∧
        ((p.status = 2 ∧ q.moved = true) ∨ (p.status = 4 ∧ q.cut = true) ∨ p.status = 5 → q.for_ = .save →
          ∃ u, exec c s = .next u ∧ bit ((u.tile t).reg 0xC05) 4 = true ∧ (u.tile t).net.requests = (over_.tile t).net.requests ∧
            ∃ e, u.events = s.events ++ [e] ∧ e.code = 0x3006) ∧
        (∀ k, k < 2 → q.for_ = .coreStore k → p.status = 0 →
          ∃ u, exec c s = .next u ∧ (u.core (mkCore t k)).stores = (s.core (mkCore t k)).stores.filter fun x => x.1 != q.pkt.txn) ∧
        (∀ k w, k < 2 → q.for_ = .coreLoad k → p.status = 0 → (s.core (mkCore t k)).loads = [w] → w.txn = q.pkt.txn → w.vec = false → w.pos = 0 →
            (s.core (mkCore t k)).gBad w.rd = false → 0 < w.rd → w.rd < 32 → w.len ≤ 8 → (s.core (mkCore t k)).gr w.rd = 0 →
          ∃ u, exec c s = .next u ∧ (u.core (mkCore t k)).loads = [] ∧ (u.core (mkCore t k)).gBad w.rd = bit p.poison 0 ∧
            (u.core (mkCore t k)).gr w.rd = extend w.signed w.width (fld (p.data.getD 0 0).toNat (8 * w.inWord) (8 * w.len)) % 2 ^ 64)) ∧
    (∀ (v : TileIx) (txn : BitVec 12), q.more = [] → q.pkt.typ ≠ .droveData → (s.tile v).net.fenced = false →
      let rs := (s.tile v).net.requests
      (rs.find? (fun q => q.pkt.txn == txn.toNat && !q.busy) = some q →
        (∀ n, q.timedOut = false → s.reResolve v q.pkt = some n →
          ∃ u, exec (.requestTimeout v txn) s = .next u ∧ u.net.flight = s.net.flight ++ [{ q.pkt with dst := n, vc := 0, cut := false }]) ∧
        (q.timedOut = true → q.for_ = .save → ∃ u, exec (.requestTimeout v txn) s = .next u ∧
          (u.tile v).net.requests = rs.filter (fun x => x.pkt.txn != q.pkt.txn) ∧ bit ((u.tile v).reg 0xC05) 4 = true)) ∧
      (∀ n, rs.find? (fun q => q.pkt.txn == txn.toNat && q.busy) = some q → s.reResolve v q.pkt = some n →
        ∃ u, exec (.busyResend v txn) s = .next u ∧ u.net.flight = s.net.flight ++ [{ q.pkt with dst := n, vc := 0, cut := false }] ∧
          bit ((u.tile v).reg 0xC05) 5 = true))

/-- R304, R307, R312-R314, R317, R318, R320-R323, R344: routers. A packet of a reserved type or a forged Fold tag is discarded; another
takes the port of its entry, or the escape port on BV3 where the entry detours or its output is not live, or is answered UNREACHABLE. The
oldest request wins its output. A grant that outlasts OVERHOLD is closed with a poisoned tail, and its holder is fenced or its link
declared failed. A corrected beat is counted; a beat that fails its fourth replay fails its link. TABLE writes the inactive bank, and a
bank switch makes it the active one. Conventions of the model: logs 27, 29. -/
def Obligations.RoutersForwardAndArbitrate : Prop :=
  ∀ (s : State) (t : TileIx) (p : Packet),
    let R := s.router t
    let e := s.route t p.dst
    (∀ input age,
      (p.typ = .reserved ∨ (p.tag = 0xFFFF ∧ isFold p.src = false) →
        ∃ u, exec (.routerForward t input age p) s = .next u ∧ u.net.flight = s.net.flight.erase p ∧ ∃ x, u.events = s.events ++ [x] ∧ x.code = 0x3005) ∧
      (p.typ ≠ .reserved → p.tag ≠ 0xFFFF ∨ isFold p.src = true → p.vc ≠ 2 → bit e 7 = true → s.net.flight = [p] →
        (p.vc ≠ 3 → bit e 6 = false → s.outLive t (fld e 0 3) = true →
          exec (.routerForward t input age p) s = .next (s.setRouter t { R with raised := R.raised ++ [(fld e 0 3, input.val, p.vc, age.toNat)] })) ∧
        (p.vc = 3 ∨ bit e 6 = true ∨ s.outLive t (fld e 0 3) = false → s.outLive t (fld e 3 3) = true →
          ∃ u, exec (.routerForward t input age p) s = .next u ∧ u.net.flight = [{ p with vc := 3 }] ∧
            u.router t = { R with raised := R.raised ++ [(fld e 3 3, input.val, 3, age.toNat)] })) ∧
      (p.typ = .write ∨ p.typ = .read ∨ p.typ = .notice → p.tag ≠ 0xFFFF → p.vc ≠ 2 → bit e 7 = false → (s.tile t).net.fenced = false →
        ∃ u a, exec (.routerForward t input age p) s = .next u ∧ u.net.flight = s.net.flight.erase p ++ [a] ∧ a.status = 5 ∧ a.dst = p.src ∧ a.txn = p.txn)) ∧
    (∀ (out : Fin 5) (elapsed : BitVec 12),
      ((∀ x ∈ R.raised, x.1 ≠ out.val) → ∃ u, exec (.routerArbitration t out elapsed) s = .next u ∧ u.router t = R) ∧
      (∀ x ∈ R.raised, x.1 = out.val →
        ∃ u w, exec (.routerArbitration t out elapsed) s = .next u ∧ tget (u.router t).holder out = some (w, 0) ∧
          (∃ y ∈ R.raised, y.1 = out.val ∧ w = 4 * y.2.1 + y.2.2.1 ∧ min 4095 (x.2.2.2 + elapsed.toNat) ≤ min 4095 (y.2.2.2 + elapsed.toNat)) ∧
          (u.router t).raised.length + 1 = R.raised.length)) ∧
    (∀ (out : Fin 5) (ticks : BitVec 16),
      (tget R.holder out = none ∨ ticks.toNat < R.overhold → exec (.overholdCutoff t out ticks p) s = .next s) ∧
      (∀ h, tget R.holder out = some h → R.overhold ≤ ticks.toNat → s.net.flight = [p] →
        ∃ u, exec (.overholdCutoff t out ticks p) s = .next u ∧ tget (u.router t).holder out = none ∧
          (h.1 / 4 = 4 → u.net.flight = [{ p with cut := true }] ∧ (u.tile t).net.fenced = true ∧ bit ((u.tile t).reg 0xC05) 1 = true) ∧
          (h.1 / 4 < 4 → u.net.failedLinks.contains (4 * t.val + h.1 / 4) = true))) ∧
    (∀ (side : Side) (x : Option Packet),
      (∃ u, exec (.linkBeatReceive t side 0 false x) s = .next u ∧ tget (u.router t).replays side = 0 ∧ u.tiles = s.tiles) ∧
      (∃ u, exec (.linkBeatReceive t side 1 false x) s = .next u ∧ bit ((u.tile t).reg 0xC05) 0 = true ∧ tget (u.router t).replays side = 0) ∧
      (tget R.replays side < 4 → tget R.replaysMs side < 16 →
        ∃ u, exec (.linkBeatReceive t side 2 false x) s = .next u ∧ tget (u.router t).replays side = tget R.replays side + 1 ∧
          tget (u.router t).replaysMs side = tget R.replaysMs side + 1 ∧ u.net.failedLinks = s.net.failedLinks) ∧
      (4 ≤ tget R.replays side ∨ 16 ≤ tget R.replaysMs side →
        ∃ u, exec (.linkBeatReceive t side 2 false x) s = .next u ∧ u.net.failedLinks.contains (4 * t.val + side.val) = true)) ∧
    (s.org.dead.contains (regionOf t) = false →
      (∀ (dst : Fin 672) (b : BitVec 8), ∃ u, exec (.table t (.route false dst b)) s = .next u ∧
        tget (u.router t).table ((1 - R.bank) * 672 + dst.val) = some b.toNat ∧
        ∀ k, k ≠ (1 - R.bank) * 672 + dst.val → tget (u.router t).table k = tget R.table k) ∧
      (∀ (lid : Fin 540) (n : Option TileIx), ∃ u, exec (.table t (.bind lid n)) s = .next u ∧
        tget (u.tile t).net.bmap lid = some (n.map (·.val))) ∧
      ∃ u, exec .bankSwitch s = .next u ∧ u.router t = { R with bank := 1 - R.bank }) ∧
    (s.org.dead.contains (regionOf t) = true → (∀ w, exec (.table t w) s = .next s) ∧ ∃ u, exec .bankSwitch s = .next u ∧ u.router t = R)

/-- R325-R332, R348: droves. An install by the tile gives BAD_ID, EXISTS or BAD_MEMBER, or holds the drove with its members in order and
answers OK; a removal from another tile gives NOT_FOUND or NOT_BELLWETHER. At a fork a packet goes to each branch with credit and is kept
for the others, and a buffered copy leaves when its branch gains credit. A pruned branch has its members counted at the bellwether;
acknowledgements are counted once each; the report goes out once the members are all counted. Conventions of the model: logs 27, 29. -/
def Obligations.DrovesForkAndReport : Prop :=
  ∀ (s : State) (t : TileIx) (id : BitVec 16) (p : Packet),
    let T := s.tile t
    let R := s.router t
    let tag := s.tag t
    let done := fun (u : State) (result : Nat) => (u.tile t).reg 0xC04 = result ∧ (u.tile t).net.drvBusy = false
    (∀ n : BitVec 10, (T.net.drvBusy = true → exec (.droveInstall t n id) s = .next s ∧ exec (.droveRemove t id) s = .next s) ∧
      (T.net.drvBusy = false → T.spd.cb = [] →
        let count := n.toNat + 1
        let off := fld (T.reg 0xC03) 0 23
        let lid := fun (i : Nat) => s.nat (spdKey t (off + 2 * i)) 2
        off % 32 = 0 → off + 2 * count + 32 ≤ 2 ^ 23 → s.spdSound t off (2 * count) →
          (0x1000 ≤ id.toNat → ∃ u, exec (.droveInstall t n id) s = .next u ∧ done u 6) ∧
          (id.toNat < 0x1000 → s.droveAt tag id.toNat ≠ none → ∃ u, exec (.droveInstall t n id) s = .next u ∧ done u 3) ∧
          (id.toNat < 0x1000 → s.droveAt tag id.toNat = none → (∃ i, i < count ∧ lid i ∉ s.members tag) ∨ (∃ i j, i < j ∧ j < count ∧ lid i = lid j) →
            ∃ u, exec (.droveInstall t n id) s = .next u ∧ done u 2 ∧ (u.tile t).droves = T.droves) ∧
          (id.toNat < 0x1000 → s.droveAt tag id.toNat = none → (∀ i, i < count → lid i ∈ s.members tag) → (∀ i j, i < j → j < count → lid i ≠ lid j) →
            (∀ r, (s.router r).forks = []) →
              ∃ u d, exec (.droveInstall t n id) s = .next u ∧ done u 0 ∧ (u.tile t).droves = T.droves ++ [d] ∧ d.id = id.toNat ∧ d.tag = tag ∧
                d.members = (upto 0 count).map lid ∧ d.timeout = max 16 (fld (T.reg 0xC01) 0 16)))) ∧
    (T.net.drvBusy = false → Tab.wf s.tiles = true →
      (s.droveAt tag id.toNat = none → ∃ u, exec (.droveRemove t id) s = .next u ∧ done u 4) ∧
      (∀ b, s.droveAt tag id.toNat = some b → b ≠ t.val → ∃ u, exec (.droveRemove t id) s = .next u ∧ done u 5) ∧
      (∀ d, s.droveAt tag id.toNat = some t.val → T.droves = [d] → d.id = id.toNat → d.tag = tag →
        (T.sends = [] → ∃ u, exec (.droveRemove t id) s = .next u ∧ done u 0 ∧ (u.tile t).droves = [] ∧
          ∀ f ∈ (u.router t).forks, ¬(f.tag = tag ∧ f.drove = id.toNat)) ∧
        (∀ x, T.sends = [x] → x.drove = id.toNat → x.tag = tag →
          ∃ u, exec (.droveRemove t id) s = .next u ∧ (u.tile t).net.drvBusy = true ∧ (u.tile t).droves = [{ d with removing := true }]))) ∧
    (∀ tg : BitVec 16, (s.droveAt tg.toNat id.toNat = none → exec (.droveRebuild tg id) s = .next s) ∧
      (∀ x ∈ T.sends, s.droveAt tg.toNat id.toNat = some t.val → x.drove = id.toNat → x.tag = tg.toNat → exec (.droveRebuild tg id) s = .next s) ∧
      (∀ d, s.droveAt tg.toNat id.toNat = some t.val → T.sends = [] → T.droves = [d] → d.id = id.toNat → d.tag = tg.toNat → (∀ r, (s.router r).forks = []) → d.members = [] →
        ∃ u, exec (.droveRebuild tg id) s = .next u ∧ (u.router t).forks = [{ tag := tg.toNat, drove := id.toNat, beneath := [0, 0, 0, 0, 0], timeout := d.timeout }])) ∧
    -- a fork of two branches, with the tile's own member and its neighbour in the east
    (∀ f v, p.typ = .droveData → p.dst = t.val → p.vc = 2 → p.left = 0 → R.forks = [f] → f.tag = p.tag → f.drove = p.drove → f.mask = 2 + 16 → f.uni = [] →
        R.pruned = [] → R.forkBuf = [] → s.net.flight = [p] → neighbour t 1 = some v → s.linkLive t 1 = true → p.data.length ≤ 64 →
      let east := { p with dst := v, left := 0 }
      let here := { p with dst := t.val, dstLid := f.here, left := 32 }
      (∃ u, exec (.droveData p 0) s = .next u ∧ u.net.flight = [east, here] ∧ (u.router t).forkBuf = []) ∧
      (∃ u, exec (.droveData p 2) s = .next u ∧ u.net.flight = [here] ∧ (u.router t).forkBuf = [(2, p)])) ∧
    (∀ f v, R.forks = [f] → f.tag = p.tag → f.drove = p.drove → R.forkBuf = [(2, p)] → R.pruned = [] → neighbour t 1 = some v → (∀ x ∈ s.net.flight, x.vc ≠ 2) →
      (exec (.forkBufferSend t 1) s = .next ((s.setRouter t { R with forkBuf := [] }).launch { p with dst := v, left := 0 })) ∧
      ∃ u a, exec (.droveBranchPrune t 1 p) s = .next u ∧ (u.router t).forkBuf = [] ∧ (u.router t).pruned = [(p.tag, p.drove, p.txn, 1)] ∧
        u.net.flight = s.net.flight ++ [a] ∧ a.typ = .pruneNote ∧ a.dst = p.src ∧ a.data = [BitVec.ofNat 256 (f.beneath.getD 1 0 % 1024 + 1024)] ∧
        ∃ x, u.events = s.events ++ [x] ∧ x.code = 0x3004) ∧
    (R.forkBuf = [] → exec (.forkBufferSend t 1) s = .next s) ∧
    (∀ x d, p.dst = t.val → p.last = false → T.net.fenced = false → T.sends = [x] → x.is p.tag p.drove p.txn = true → T.droves = [d] → d.id = p.drove → d.tag = p.tag → d.removing = false →
      let w := (p.data.getD 0 0).toNat
      let counted := fun (y : DroveSend) => y.delivered.length + y.refused.length + y.prunedCount
      (p.typ = .droveAck → p.status = 0 →
        ((fld w 0 16 ∈ x.delivered ∨ fld w 0 16 ∈ x.refused) → x.lastIn = false → ∃ u, exec (.droveAck p) s = .next u ∧ (u.tile t).sends = [x]) ∧
        (fld w 0 16 ∉ x.delivered → fld w 0 16 ∉ x.refused → bit w 16 = false →
          let y := { x with delivered := setIns x.delivered (fld w 0 16), poisoned := x.poisoned || bit w 17 }
          (x.lastIn = false ∨ counted y < d.members.length → ∃ u, exec (.droveAck p) s = .next u ∧ (u.tile t).sends = [y]) ∧
          (x.lastIn = true → d.members.length ≤ counted y →
            ∃ u a, exec (.droveAck p) s = .next u ∧ (u.tile t).sends = [] ∧ u.net.flight = s.net.flight.erase p ++ [a] ∧ a.typ = .droveAck ∧ a.dst = x.sender ∧
              a.txn = x.senderTxn ∧ a.last = true ∧ fld (a.data.getD 0 0).toNat 0 16 = y.delivered.length % 2 ^ 16))) ∧
      (p.typ = .pruneNote → x.lastIn = false →
        ∃ u, exec (.pruneNote p) s = .next u ∧ (u.tile t).sends = [{ x with prunedCount := x.prunedCount + fld w 0 10 }]))

/-- R353, R354, R356-R359, R364, R564: the reference goes over to its other oscillator; a transit PLL without lock ends its region, a
region PLL without lock only its compute rail and tiles; a stretched period is counted by its amount, at most what STRETCH_MAX allows; a
pending change gates the clock, and the restart sets FMULT, lets the clock run and leaves running links waiting for calibration; the
timestamp moves 40,940 to 40,980 ns from marker to marker. Conventions of the model: log 5. -/
def Obligations.RegionClocks : Prop :=
  ∀ (s : State) (r : RegionIx),
    let R := s.region r
    (∃ u e, exec .oscillatorSwitch s = .next u ∧ u.power = { s.power with oscillator := 1 - s.power.oscillator } ∧
      u.events = s.events ++ [e] ∧ e.code = 0x8101 ∧ u.regions = s.regions ∧ u.tiles = s.tiles) ∧
    (s.org.dead.contains r.val = true → exec (.transitPllLockTimeout r) s = .next s ∧ exec (.regionPllLockTimeout r) s = .next s) ∧
    (s.org.dead.contains r.val = false →
      (∃ u, exec (.transitPllLockTimeout r) s = .next u ∧ u.org.dead.contains r.val = true) ∧
      (R.railOffLatched = true → exec (.regionPllLockTimeout r) s = .next s) ∧
      (R.railOffLatched = false → ∃ u, exec (.regionPllLockTimeout r) s = .next u ∧ (u.region r).railOffLatched = true ∧ (u.region r).pllFailed = true ∧
        u.org.dead = s.org.dead ∧ ∀ t ∈ regionTiles r, u.org.unfit.contains t = true)) ∧
    (∀ a : Fin 4, exec (.clockStretch r a) s = .next
      (if R.power = .on ∧ R.stopped = false then
        s.setRegion r { R with stretch := tput R.stretch (min a.val R.rckStretchMax + 1) ((tget R.stretch (min a.val R.rckStretchMax + 1) + 1) % 2 ^ 64) }
       else s.setRegion r R)) ∧
    (R.pendingFmult = none ∨ R.changing ≠ none ∨ R.slewTo ≠ none ∨ R.stopped = true → exec (.frequencyChange r) s = .next s) ∧
    (∀ f, R.pendingFmult = some f → R.changing = none → R.slewTo = none → R.stopped = false → R.power = .on → R.tripped = false →
      exec (.frequencyChange r) s = .next (s.setRegion r { R with changing := some f, pendingFmult := none, stopped := true, regionLock := false })) ∧
    (R.changing = none → exec (.frequencyRestart r) s = .next s) ∧
    (∀ f, R.changing = some f →
      (R.tripped = true → exec (.frequencyRestart r) s = .next (s.setRegion r { R with changing := none, fmult := f, regionLock := false, stopped := true })) ∧
      (R.power = .on → R.tripped = false →
        ∃ u, exec (.frequencyRestart r) s = .next u ∧
          u.region r = { R with changing := none, fmult := f, regionLock := true, stopped := false, voltMv := if f ≤ R.fmult then s.voltFor r f else R.voltMv } ∧
          ∀ t ∈ regionTiles r, ∀ d, d < 4 → (neighbour t d).isSome = true → (s.tile t).sched.state = .running → (tget (u.tile t).sched.cal d).pending = true)) ∧
    (∀ v, R.slewTo = some v → exec (.voltageSlewDone r) s = .next (s.setRegion r { R with voltMv := v, slewTo := none })) ∧
    (∀ k : Fin 41, exec (.timestampMarker k) s = .next { s with time := (s.time + 40940 + k.val) % 2 ^ 64 })

/-- R362, R363, R366, R369-R373, R376, R377, R381-R385: a calibration sets its pad or fails; GO runs a sound segment from schedule tick 0
with 16 credits a link, and one with a reserved code ends in FAULT; a tick is performed where its words are present, its credits and room
are there and the gate is open, else it is a slip, where only a word is absent, or a hold; a sent word joins the neighbour's FIFO and a
taken one the delivery buffer; ABORT discards what has come. Conventions of the model: log 32. -/
def Obligations.ScheduledMode : Prop :=
  ∀ (s : State) (t : TileIx),
    let T := s.tile t
    let d := T.sched
    (∀ (side : Side) (lam : BitVec 8),
      (neighbour t side = none ∨ d.state = .running → exec (.calibrationDone t side lam) s = .next s) ∧
      ((neighbour t side).isSome = true → d.state ≠ .running →
        (lam.toNat ≤ 2 * linkL t side - 1 → ∃ u, exec (.calibrationDone t side lam) s = .next u ∧
          tget (u.tile t).sched.cal side = { pad := 2 * linkL t side - 1 - lam.toNat, calibrated := true } ∧ u.events = s.events) ∧
        (2 * linkL t side - 1 < lam.toNat → s.tag t = 0 → ∃ u e, exec (.calibrationDone t side lam) s = .next u ∧
          tget (u.tile t).sched.cal side = { failed := true } ∧ bit ((u.tile t).reg 0xC2C) 3 = true ∧ u.events = s.events ++ [e] ∧ e.code = 0x3101))) ∧
    (let pc := T.reg 0xC22 % 2048
     let (l, b) := schRun d.mem pc (2048 - pc)
     (d.state ≠ .idle → d.state ≠ .boundary → exec (.schGo t) s = .next s) ∧
     (d.state = .idle ∨ d.state = .boundary →
        (fld (tget d.mem pc).toNat 0 4 > 2 → ∃ u, exec (.schGo t) s = .next u ∧ (u.tile t).sched.state = .fault ∧
          fld ((u.tile t).reg 0xC2C) 4 4 = 1 ∧ bit ((u.tile t).reg 0xC2C) 0 = true) ∧
        (∀ e, b = some e → s.segmentCause t l b = 0 → 0 < e.start →
          ∃ u, exec (.schGo t) s = .next u ∧ (u.tile t).sched.state = .running ∧ (u.tile t).sched.sigma = 0 ∧ (u.tile t).sched.length = e.start ∧
            (u.tile t).sched.first = pc ∧ ∀ k, k < 4 → s.vergeSched t k = true → tget (u.tile t).sched.credits k = 16))) ∧
    (d.state ≠ .running → d.state ≠ .fault → exec (.schAbort t) s = .next s) ∧
    (d.state = .running ∨ d.state = .fault → ∃ u, exec (.schAbort t) s = .next u ∧ (u.tile t).sched.state = .aborting ∧
      ∀ k, k < 4 → tget (u.tile t).sched.fifo k = (tget d.fifo k).filter fun w => !w.present) ∧
    (d.state ≠ .aborting ∨ (∃ k, k < 4 ∧ tget d.fifo k ≠ []) → exec (.abortDrained t) s = .next s) ∧
    (d.state = .aborting → (∀ k, k < 4 → tget d.fifo k = []) → (∀ k v, k < 4 → neighbour t k = some v → ∀ w ∈ tget (s.tile v).sched.fifo (opposite k), w.present = true) →
      exec (.abortDrained t) s = .next (s.modTile t fun T => { T with sched := { T.sched with state := .idle } })) ∧
    (∀ cmd : BitVec 32,
      (d.loadBusy = true ∨ d.state = .running → exec (.schLoad t cmd) s = .next s) ∧
      (d.loadBusy = false → d.state ≠ .running → ∃ u, exec (.schLoad t cmd) s = .next u ∧ (u.tile t).sched.loadBusy = true ∧
        (u.tile t).reg 0xC24 = fld cmd.toNat 16 11 * 2 ^ 16 + fld cmd.toNat 0 12) ∧
      exec (.schLimitWrite t cmd) s = .next (s.modTile t fun T => T.setReg 0xC27 (fld cmd.toNat 31 1 * 2 ^ 31 + fld cmd.toNat 0 20))) ∧
    (d.loadBusy = false → exec (.schLoadDone t) s = .next s) ∧
    (let src := fld (T.reg 0xC23) 4 19
     let dest := fld (T.reg 0xC24) 16 11
     let n := fld (T.reg 0xC24) 0 12 + 1
     d.loadBusy = true → dest + n ≤ 2048 → 16 * (src + n) + 32 ≤ 2 ^ 23 → T.spd.cb = [] → s.spdSound t (16 * src) (16 * n) →
      ∃ u, exec (.schLoadDone t) s = .next u ∧ (u.tile t).sched.loadBusy = false ∧
        (∀ i, i < n → tget (u.tile t).sched.mem (dest + i) = BitVec.ofNat 128 (s.nat (spdKey t (16 * src + 16 * i)) 16)) ∧
        ∀ k, k < dest ∨ dest + n ≤ k → tget (u.tile t).sched.mem k = tget d.mem k) ∧
    (∀ c, exec (.schDoneRead ⟨t, c⟩) s = .next (s.emit (.regRead (2 * t.val + c.val) 0xC26 d.done))) ∧
    (∀ ready, s.ticking t = false → ∀ n, exec (.scheduleTick t ready n) s = .next s) ∧
    (∀ ready, s.ticking t = true → d.state ≠ .running ∨ T.preempting = true → exec (.scheduleTick t ready 0) s = .next s) ∧
    (∀ l b ready, s.ticking t = true → d.state = .running → T.preempting = false → schRun d.mem d.first (2048 - d.first) = (l, b) →
      let limit := T.reg 0xC27
      let gate := bit limit 31 = false ∨ d.sigma ≤ fld limit 0 20
      let step := fun (x : Sched) => { x with sigma := x.sigma + 1, stalled := false }
      (¬gate → exec (.scheduleTick t ready 0) s = .next (s.modSched t fun x => { x with holds := (x.holds + 1) % 2 ^ 64 })) ∧
      (gate → (∀ k, k < 4 → s.vergeSched t k = false) → d.sigma + 1 < d.length → exec (.scheduleTick t ready 0) s = .next (s.modSched t step)) ∧
      (gate → (∀ k, k < 4 → s.vergeSched t k = false) → d.sigma + 1 = d.length → d.first + l.length + 1 < 2048 →
        ∃ u, exec (.scheduleTick t ready 0) s = .next u ∧ (u.tile t).sched.state = .boundary ∧ (u.tile t).sched.sigma = d.length ∧
          (u.tile t).reg 0xC22 = d.first + l.length + 1) ∧
      -- one scheduled link, east
      (∀ v, gate → (∀ k, k < 4 → s.vergeSched t k = decide (k = 1)) → neighbour t 1 = some v →
        let L := linkL t 1
        (L ≤ d.sigma → d.sigma < d.length → d.length ≤ d.sigma + L → d.delivery = [] →
          (d.wordThere 1 L d.sigma = false → exec (.scheduleTick t ready 0) s = .next (s.modSched t fun x => { x with slips := (x.slips + 1) % 2 ^ 64 })) ∧
          (∀ w q e, tget d.fifo 1 = w :: q → d.wordThere 1 L d.sigma = true → l = [e] → e.covers 1 1 d.sigma = true → e.words = 1 → w.count = 1 → d.sigma + 1 < d.length →
            ∃ u, exec (.scheduleTick t ready 0) s = .next u ∧ tget (u.tile t).sched.fifo 1 = q ∧ (u.tile t).sched.sigma = d.sigma + 1 ∧
              (u.tile t).sched.delivery = [(d.sigma, { off := e.place d.sigma % 2 ^ 23, bytes := Word256.bytes (w.data.getD 0 0), poison := bit w.poison 0 })] ∧
              tget (u.tile v).sched.credits 3 = tget (s.tile v).sched.credits 3 + 1)) ∧
        (d.sigma < L → d.sigma + L < d.length →
          (tget d.credits 1 = 0 → exec (.scheduleTick t ready 0) s = .next (s.modSched t fun x => { x with holds := (x.holds + 1) % 2 ^ 64 })) ∧
          (∀ e, 0 < tget d.credits 1 → ready = true → d.delivery = [] → l = [e] → e.covers 0 1 d.sigma = true → e.words = 1 → T.spd.cb = [] → e.place d.sigma % 32 = 0 →
              s.spdSound t (e.place d.sigma) 32 → e.place d.sigma + 32 ≤ 2 ^ 23 →
            ∃ u, exec (.scheduleTick t ready 0) s = .next u ∧ tget (u.tile t).sched.credits 1 = tget d.credits 1 - 1 ∧
              tget (u.tile v).sched.fifo 3 = tget (s.tile v).sched.fifo 3 ++
                [{ index := d.sigma % 16, count := 1, data := [wordOf (s.bytes (spdKey t (e.place d.sigma)) 32)] }])))) ∧
    (∀ x r, s.ticking t = true → d.state = .idle → d.delivery = x :: r → x.2.off % 32 = 0 → x.2.off < 2 ^ 23 → x.2.bytes.length = 32 → T.spdBlocked (x.2.off / 32) = false → T.spd.cb = [] →
      ∃ u, exec (.scheduleTick t true 1) s = .next u ∧ (u.tile t).sched.delivery = r ∧ u.bytes (spdKey t x.2.off) 32 = x.2.bytes ∧
        u.marked (spdKey t x.2.off) = x.2.poison) ∧
    (∀ side : Side, ((∀ w ∈ tget d.fifo side, w.present = true) → exec (.scheduledWordArrive t side) s = .next s) ∧
      (∀ w q, tget d.fifo side = w :: q → w.present = false → d.state ≠ .aborting →
        exec (.scheduledWordArrive t side) s = .next (s.modSched t fun x => { x with fifo := tput x.fifo side ({ w with present := true } :: q) })) ∧
      (∀ w q v, tget d.fifo side = w :: q → w.present = false → d.state = .aborting → neighbour t side = some v →
        ∃ u, exec (.scheduledWordArrive t side) s = .next u ∧ tget (u.tile t).sched.fifo side = q ∧
          tget (u.tile v).sched.credits (opposite side) = tget (s.tile v).sched.credits (opposite side) + 1)) ∧
    (d.state ≠ .running ∨ d.stalled = true → exec (.schStall t) s = .next s) ∧
    (d.state = .running → d.stalled = false → ∃ u e, exec (.schStall t) s = .next u ∧ (u.tile t).sched.stalled = true ∧ bit ((u.tile t).reg 0xC2C) 2 = true ∧
      (u.tile t).sched.sigma = d.sigma ∧ u.events = s.events ++ [e] ∧ e.code = 0x3103)

/-- R391, R393-R396, R399-R405, R672: a walk of a context's tables ends in the translation its entries give or in the fault it meets; the
outcome releases every source held on the page, or holds it in a fault of its own; a walk on the SVA route ends by the host's answers.
Conventions of the model: logs 8, 33. -/
def Obligations.PageWalksEnd : Prop :=
  ∀ (s : State) (ctx : CtxIx) (page : BitVec 56),
    let F := s.func (s.ctx ctx).fn
    (∀ r : BitVec 8,
      (s.findWalk r.toNat ctx page.toNat = none → exec (.walkComplete r ctx page) s = .next s ∧
        ∀ e b o rd wr, exec (.atsTranslationCompletion r ctx page e b o rd wr) s = .next s) ∧
      ∀ w, s.findWalk r.toNat ctx page.toNat = some w →
        let fn := (s.ctx ctx).fn
        (w.ats = true → exec (.walkComplete r ctx page) s = .next (if F.ats && F.pri then s else s.walkEnd r.toNat ctx page.toNat (.error 7))) ∧
        (w.ats = false → ∀ res u, s.walk r.toNat ctx page.toNat = (res, u) → exec (.walkComplete r ctx page) s = .next (u.walkEnd r.toNat ctx page.toNat res)) ∧
        (w.ats = false ∨ w.pageReq = true → ∀ e b o rd wr, exec (.atsTranslationCompletion r ctx page e b o rd wr) s = .next s) ∧
        (w.ats = true → w.pageReq = false → ∀ (b o : BitVec 64) (rd wr : Bool),
          exec (.atsTranslationCompletion r ctx page true b o rd wr) s = .next (s.walkEnd r.toNat ctx page.toNat (.error 7)) ∧
          (rd = true → w.write = false ∨ wr = true → b.toNat = 4096 → exec (.atsTranslationCompletion r ctx page false b o rd wr) s =
            .next (s.walkEnd r.toNat ctx page.toNat (.ok { ctx := ctx, va := page.toNat / 4096 * 4096, size := 4096, w := wr, target := 1, out := o.toNat, ats := true }))) ∧
          (rd = true → w.write = false ∨ wr = true → b.toNat = 2 ^ 21 → o.toNat % 2 ^ 21 = 0 → exec (.atsTranslationCompletion r ctx page false b o rd wr) s =
            .next (s.walkEnd r.toNat ctx page.toNat (.ok { ctx := ctx, va := page.toNat / 2 ^ 21 * 2 ^ 21, size := 2 ^ 21, w := wr, target := 1, out := o.toNat, ats := true }))) ∧
          (rd = false ∨ (w.write = true ∧ wr = false) →
            (s.mmu.priBlocked.contains fn = true → exec (.atsTranslationCompletion r ctx page false b o rd wr) s = .next (s.walkEnd r.toNat ctx page.toNat (.error 6))) ∧
            (s.mmu.priBlocked.contains fn = false → s.pageReqs (portOfFn fn) < 512 → ∃ u,
              exec (.atsTranslationCompletion r ctx page false b o rd wr) s = .next u ∧ u.out = s.out ++ [.ats (portOfFn fn) 1 (s.mmuCtx ctx).pasid page.toNat] ∧
              { w with pageReq := true } ∈ u.mmu.walks ∧ u.mmu.walks.length = s.mmu.walks.length ∧ u.tiles = s.tiles ∧ u.regions = s.regions)))) ∧
    -- one walk from the root to a 4 KiB page
    (∀ r va e3 e2 e1 e0,
      let root := (s.mmuCtx ctx).root
      let a3 := root + 8 * fld va 39 17
      let a2 := fld e3 12 40 * 4096 + 8 * fld va 30 9
      let a1 := fld e2 12 40 * 4096 + 8 * fld va 21 9
      let a0 := fld e1 12 40 * 4096 + 8 * fld va 12 9
      let table := fun e => bit e 0 = true ∧ bit e 1 = false ∧ entryReserved e = false
      (∀ x ∈ (s.region r).wcache, x.1 ≠ ctx.val) → s.ptRead a3 = .ok e3 → s.ownsFrame ctx a3 = true →
        (bit e3 0 = false → s.walk r ctx va = (.error 1, s)) ∧ (bit e3 0 = true → entryReserved e3 = true ∨ bit e3 1 = true → s.walk r ctx va = (.error 3, s)) ∧
        (table e3 → s.ptRead a2 = .ok e2 → s.ownsFrame ctx a2 = false → s.walk r ctx va = (.error 4, s.ctxEvent 0xB007 ctx [])) ∧
        (table e3 → s.ptRead a2 = .ok e2 → s.ownsFrame ctx a2 = true → table e2 → s.ptRead a1 = .ok e1 → s.ownsFrame ctx a1 = true → table e1 →
          s.ptRead a0 = .ok e0 → s.ownsFrame ctx a0 = true → bit e0 0 = true → bit e0 1 = true → bit e0 3 = false → entryReserved e0 = false →
          let out := fld e0 12 40 * 4096
          (fld e0 4 2 ≥ 2 → s.walk r ctx va = (.error 3, s)) ∧
          (fld e0 4 2 = 0 → hbmAddr out = none → s.walk r ctx va = (.error 4, s)) ∧
          (fld e0 4 2 = 1 ∨ (fld e0 4 2 = 0 ∧ pageInRange out 4096 = true ∧ s.ownsFrame ctx out = true) →
            s.walk r ctx va = (.ok { ctx := ctx, va := va / 4096 * 4096, size := 4096, w := bit e0 2, target := fld e0 4 2, out := out },
              s.modRegion r fun R => { R with wcache := ([(ctx.val, 2, va / 2 ^ 39, fld e3 12 40 * 4096), (ctx.val, 1, va / 2 ^ 30, fld e2 12 40 * 4096)] ++ R.wcache).eraseDups.take 64 })))) ∧
    -- the end of a walk, at its region's shared cache and held cores
    (∀ (r : RegionIx) res,
      let u := s.walkEnd r ctx page.toNat res
      (∀ w ∈ u.mmu.walks, ¬(w.region = r.val ∧ w.ctx = ctx.val ∧ w.va = page.toNat)) ∧
      (∀ e, res = .ok e → e.w = true → (u.region r).stlb = tlbInsert e 8192 (s.region r).stlb ∧ u.mmu.faults = s.mmu.faults) ∧
      ∀ (c : CoreId) h, regionOf c.tile = r.val → (s.core c).hold = some h → h.fault = none → h.resolved = none →
        (s.paddock (s.tag c.tile)).ctx = ctx.val → h.va / 4096 * 4096 = page.toNat →
        (∀ e, res = .ok e → h.write = false ∨ e.w = true → (u.core c).hold = none) ∧
        ∀ k, res = .error k ∨ (∃ e, res = .ok e ∧ h.write = true ∧ e.w = false ∧ k = 2) →
          ∃ id, (u.core c).hold = some { h with fault := some id } ∧
            ∃ f ∈ u.mmu.faults, f.id = id ∧ f.kind = k ∧ f.va = h.va ∧ f.write = h.write ∧ f.ctx = ctx.val ∧ f.unit = 16 + c.core.val ∧ f.recorded = false) ∧
    (let hit := s.mmu.walks.filter fun w => w.pageReq && w.ctx == ctx.val && w.va == page.toNat
     let fn := (s.ctx ctx).fn
     (hit = [] → ∀ c, exec (.prgResponse ctx page c) s = .next s) ∧
     (hit ≠ [] → ∃ u, exec (.prgResponse ctx page 0) s = .next u ∧ u.out = s.out ++ [.ats (portOfFn fn) 0 (s.mmuCtx ctx).pasid page.toNat] ∧
       u.mmu.walks.length = s.mmu.walks.length ∧ ∀ w ∈ u.mmu.walks, w.ctx = ctx.val → w.va = page.toNat → w.pageReq = false) ∧
     ∀ w, hit = [w] → exec (.prgResponse ctx page 1) s = .next (s.walkEnd w.region w.ctx w.va (.error 6)) ∧
       exec (.prgResponse ctx page 2) s = .next ({ s with mmu := { s.mmu with priBlocked := setIns s.mmu.priBlocked fn } }.walkEnd w.region w.ctx w.va (.error 6))) ∧
    (∀ fn : FnIx, ∃ u, exec (.priReenable fn) s = .next u ∧ (u.mmu.priBlocked.contains fn.val = false) ∧
      (∀ f, f ≠ fn.val → u.mmu.priBlocked.contains f = s.mmu.priBlocked.contains f) ∧
      { u with mmu := { u.mmu with priBlocked := s.mmu.priBlocked } } = s)

/-- R397, R398, R402, R403, R407, R436, R437, R440: an invalidation drops every covered entry of every cache at once, is ignored while its
requester has one under way, and completes, telling its requester, when no access under a dropped entry is outstanding; SVA is set only
with ATS and PRI on. Conventions of the model: log 33. -/
def Obligations.InvalidationsDropAndComplete : Prop :=
  ∀ (s : State) (pf : HostIx) (ctx : CtxIx) (t : TileIx),
    let pages := fun (n : BitVec 20) => 4096 * (n.toNat + 1)
    let mine := if s.pfCtx pf ctx then [ctx.val] else []
    let asked := fun v => { s with mmu := { s.mmu with invCmd := tput s.mmu.invCmd pf v } }
    -- what an invalidation drops
    (∀ b p cs, Tab.wf s.tiles = true → Tab.wf s.regions = true →
      let u := s.startInval b p cs
      (∀ t, u.tile t = { s.tile t with tlb := (s.tile t).tlb.filter fun e => !p e }) ∧
      (∀ r, u.region r = { s.region r with
        stlb := (s.region r).stlb.filter fun e => !p e
        wcache := (s.region r).wcache.filter fun w => !cs.contains w.1 }) ∧
      u.mmu.invs = s.mmu.invs ++ [{ by_ := b, ctxs := cs, places := s.droppedPlaces p }] ∧ u.events = s.events ∧ u.mem = s.mem ∧ u.host = s.host) ∧
    (∀ sva pasid,
      (s.pfCtx pf ctx = false → exec (.mmuSvaWrite pf ctx sva pasid) s = .next s) ∧
      (s.pfCtx pf ctx = true → sva = false ∨ ((s.func (s.ctx ctx).fn).ats = true ∧ (s.func (s.ctx ctx).fn).pri = true) →
        exec (.mmuSvaWrite pf ctx sva pasid) s = .next (s.setMmuCtx ctx { s.mmuCtx ctx with sva := sva, pasid := pasid.toNat })) ∧
      ((s.func (s.ctx ctx).fn).ats = false ∨ (s.func (s.ctx ctx).fn).pri = false → exec (.mmuSvaWrite pf ctx true pasid) s = .next s)) ∧
    (s.mmuBusy pf = true → exec (.mmuInvContext pf ctx) s = .next s ∧ exec (.mmuInvFunction pf) s = .next s ∧
      ∀ va n, exec (.mmuInvRange pf ctx va n) s = .next s) ∧
    (s.mmuBusy pf = false →
      exec (.mmuInvContext pf ctx) s = .next ((asked ctx).startInval (.mmu pf) (fun e => mine.contains e.ctx) mine) ∧
      exec (.mmuInvFunction pf) s = .next ((asked (2 ^ 31)).startInval (.mmu pf) (fun e => ((upto 0 256).filter (s.pfCtx pf)).contains e.ctx) ((upto 0 256).filter (s.pfCtx pf))) ∧
      ∀ (va : BitVec 64) n, ∃ u, exec (.mmuInvRange pf ctx va n) s = .next u ∧ tget u.mmu.invAddr pf = va.toNat / 4096 * 4096 ∧
        u.mmu.invs = s.mmu.invs ++ [{ by_ := .mmu pf, ctxs := mine, places := s.droppedPlaces fun e => e.within mine false (va.toNat / 4096 * 4096) (pages n) }] ∧
        ∀ i, ∀ e ∈ (u.tile i).tlb, e.within mine false (va.toNat / 4096 * 4096) (pages n) = false) ∧
    (s.xtcBusy t = true ∨ s.tag t = 0 → exec (.xtcInvAll t) s = .next s) ∧
    (s.xtcBusy t = true → ∀ va n, exec (.xtcInvRange t va n) s = .next s) ∧
    (s.xtcBusy t = false → s.tag t ≠ 0 →
      let c := s.tileCtx t
      (∃ u, exec (.xtcInvAll t) s = .next u ∧ (u.tile t).reg 0xB0A = 2 ^ 31 ∧ (∀ i, ∀ e ∈ (u.tile i).tlb, e.ctx ≠ c) ∧ (∀ r, ∀ e ∈ (u.region r).stlb, e.ctx ≠ c) ∧
        ∃ i, u.mmu.invs = s.mmu.invs ++ [i] ∧ i.by_ = .tile t ∧ i.ctxs = [c]) ∧
      ∀ (va : BitVec 64) n, ∃ u, exec (.xtcInvRange t va n) s = .next u ∧ (u.tile t).reg 0xB0A = n.toNat ∧
        (∀ i, ∀ e ∈ (u.tile i).tlb, e.within [c] false (va.toNat / 4096 * 4096) (pages n) = false) ∧
        (∀ r, ∀ e ∈ (u.region r).stlb, e.within [c] false (va.toNat / 4096 * 4096) (pages n) = false) ∧
        ∃ i, u.mmu.invs = s.mmu.invs ++ [i] ∧ i.by_ = .tile t) ∧
    (∀ (fn : FnIx) tag (va bytes : BitVec 64) (p : BitVec 20),
      exec (.atsInvalidateRequest fn tag (some p) va bytes) s = .next (s.startInval (.ats fn tag)
        (fun e => e.ats && e.within ((s.fnCtxs fn).filter fun c => (s.mmuCtx c).pasid == p.toNat) false va.toNat bytes.toNat) []) ∧
      ∃ u, exec (.atsInvalidateRequest fn tag none va bytes) s = .next u ∧
        ∀ i, ∀ e ∈ (u.tile i).tlb, (e.ats && e.within (s.fnCtxs fn) false va.toNat bytes.toNat) = false) ∧
    (∀ fn : FnIx,
      exec (.atsPriDisable fn true true) s = .next (s.modFunc fn fun F => { F with ats := true, pri := true }) ∧
      ∀ ats pri, (ats && pri) = false → ∃ u, exec (.atsPriDisable fn ats pri) s = .next u ∧
        (u.func fn).ats = ats ∧ (u.func fn).pri = pri ∧ (∀ t, ∀ e ∈ (u.tile t).tlb, e.ats = true → (s.ctx e.ctx).live = true → (s.ctx e.ctx).fn = fn.val →
          s.host.ctxs.contains (e.ctx, s.ctx e.ctx) = true → (s.mmuCtx e.ctx).sva = false) ∧ u.mmu = s.mmu) ∧
    (∀ n : BitVec 16,
      (s.mmu.invs[n.toNat]? = none → exec (.invalidationComplete n) s = .next s) ∧
      ∀ i, s.mmu.invs[n.toNat]? = some i →
        let rest := { s with mmu := { s.mmu with invs := s.mmu.invs.erase i } }
        (s.placesBusy i = true → exec (.invalidationComplete n) s = .next s) ∧
        (s.placesBusy i = false →
          (∀ f, i.by_ = .mmu f → exec (.invalidationComplete n) s = .next
            { rest with mmu := { rest.mmu with invDone := tput s.mmu.invDone f ((tget s.mmu.invDone f + 1) % 2 ^ 16) } }) ∧
          (∀ t, i.by_ = .tile t → exec (.invalidationComplete n) s = .next rest) ∧
          (∀ f tag, i.by_ = .ats f tag → exec (.invalidationComplete n) s = .next (rest.emit (.ats (portOfFn f) 2 f tag))) ∧
          ∀ f q no free x, i.by_ = .cmd f q no free → ((rest.freeFrames free).queue f q).fetched.find? (fun f => f.no == no) = some x →
            exec (.invalidationComplete n) s = .next ((rest.freeFrames free).finish { fn := f, queue := q, no := no, id := x.c.id.toNat } 0 0 0 0)))

/-- R413, R415-R420, R438, R439: a fault's record goes to its context's queue, or waits for room; the handler is told once it is there,
the host by its vector; a resolution ends the fault, releasing its source or failing it, and one that names no outstanding fault is
flagged. Conventions of the model: logs 8, 33. -/
def Obligations.FaultRecordsAndResolutions : Prop :=
  ∀ (s : State) (ctx : CtxIx) (pf : HostIx) (t : TileIx) (c : CoreId),
    let m := s.mmuCtx ctx
    let size := 2 ^ m.log2
    ((∀ f ∈ s.mmu.faults, f.ctx = ctx.val → f.recorded = true) → exec (.faultRecordWrite ctx) s = .next s) ∧
    (∀ f, s.mmu.faults.find? (fun f => f.ctx == ctx.val && !f.recorded) = some f →
      ((m.tail + 1) % size = m.head →
        (m.fqFull = true → exec (.faultRecordWrite ctx) s = .next s) ∧
        (m.fqFull = false → ∃ u e, exec (.faultRecordWrite ctx) s = .next u ∧ u.mmuCtx ctx = { m with fqFull := true } ∧
          u.events = s.events ++ [e] ∧ e.code = 0x4003 ∧ u.mem = s.mem ∧ u.mmu.faults = s.mmu.faults)) ∧
      ((m.tail + 1) % size ≠ m.head →
        let k := hbmAddrKey (m.fqBase + 32 * m.tail)
        ∃ u, exec (.faultRecordWrite ctx) s = .next u ∧ u.bytes k 32 = toBytes (faultRecord s f) 32 ∧ u.marked k = false ∧
          (∀ a, a < k ∨ k + 32 ≤ a → u.byte a = s.byte a) ∧ u.mmuCtx ctx = { m with tail := (m.tail + 1) % size, fqFull := false } ∧
          { f with recorded := true } ∈ u.mmu.faults ∧ u.mmu.faults.length = s.mmu.faults.length ∧ u.tiles = s.tiles ∧
          (f.toCore = true → u.out = s.out ∧ ∀ h, s.handlerTile (f.id / 2 ^ 32) = some h → u.net.faultNotes = s.net.faultNotes ++ [(h, f.id, f.kind)]) ∧
          (f.toCore = false → u.net.faultNotes = s.net.faultNotes ∧ u.out = s.out ++ (if m.intEn then [.msix (s.ctx ctx).fn m.vector] else [])))) ∧
    (s.net.faultNotes.find? (fun n => n.1 == t.val) = none → exec (.faultNote t) s = .next s) ∧
    (∀ n, s.net.faultNotes.find? (fun n => n.1 == t.val) = some n → ∃ u, exec (.faultNote t) s = .next u ∧ u.net.faultNotes = s.net.faultNotes.erase n ∧
      ((s.tile t).notes.length < 64 → (u.tile t).notes = (s.tile t).notes ++ [(n.2.1, n.2.2)]) ∧
      (64 ≤ (s.tile t).notes.length → (u.tile t).notes = (s.tile t).notes ∧ bit ((u.tile t).reg 0xB01) 31 = true)) ∧
    (∀ h : BitVec 16,
      (s.pfCtx pf ctx = false → exec (.fqHeadWrite pf ctx h) s = .next s) ∧
      (s.pfCtx pf ctx = true → exec (.fqHeadWrite pf ctx h) s =
        .next (s.setMmuCtx ctx { m with head := h.toNat % size, fqFull := m.fqFull && decide ((m.tail + 1) % size = h.toNat % size) }))) ∧
    -- resolutions, by the host's registers and by the handler core's
    (∀ id : BitVec 64,
      (s.pfCtx pf ctx = false → exec (.fqResRetry pf ctx id) s = .next s ∧ exec (.fqResFail pf ctx id) s = .next s) ∧
      (s.isHandler c = false → exec (.fltResRetry c id) s = .next s ∧ exec (.fltResFail c id) s = .next s) ∧
      (s.pfCtx pf ctx = true → (∀ f ∈ s.mmu.faults, f.id = id.toNat → f.ctx ≠ ctx.val) → ∀ x ∈ [Instr.fqResRetry pf ctx id, Instr.fqResFail pf ctx id],
        ∃ u, exec x s = .next u ∧ u.mmuCtx ctx = { m with res := id.toNat, badRes := true } ∧ u.tiles = s.tiles ∧ u.mmu.faults = s.mmu.faults ∧
          (s.mmu.resolvedIds.contains id.toNat = true → (s.job (id.toNat / 2 ^ 32)).ctx = ctx.val → u.events = s.events) ∧
          (s.mmu.resolvedIds.contains id.toNat = false → ∃ e, u.events = s.events ++ [e] ∧ e.code = 0x4006)) ∧
      (s.isHandler c = true → (∀ f ∈ s.mmu.faults, f.id = id.toNat → f.ctx ≠ s.tileCtx c.tile) → ∀ x ∈ [Instr.fltResRetry c id, Instr.fltResFail c id],
        ∃ u, exec x s = .next u ∧ bit ((u.tile c.tile).reg 0xB01) 30 = true ∧ u.mmu.faults = s.mmu.faults ∧
          (s.mmu.resolvedIds.contains id.toNat = false → ∃ e, u.events = s.events ++ [e] ∧ e.code = 0x4006)) ∧
      (∀ f x h, s.mmu.faults.find? (fun f => f.id == id.toNat) = some f →
        (f.ctx = ctx.val ∧ s.pfCtx pf ctx = true ∧ x ∈ [Instr.fqResRetry pf ctx id, Instr.fqResFail pf ctx id]) ∨
          (f.ctx = s.tileCtx c.tile ∧ s.isHandler c = true ∧ x ∈ [Instr.fltResRetry c id, Instr.fltResFail c id]) →
        -- the source is core k of the tile that holds the member's rank
        ∀ k : CoreId, f.unit = 16 + k.core.val → ((s.members f.pad)[f.id / 2 ^ 22 % 1024]?.bind s.tileOf).getD f.src = k.tile.val →
          (s.core k).hold = some h → h.fault = some id.toNat →
          ∃ u, exec x s = .next u ∧ (∀ g ∈ u.mmu.faults, g.id ≠ id.toNat) ∧ u.mmu.resolvedIds.contains id.toNat = true ∧ u.events = s.events ∧
            (x = .fqResRetry pf ctx id ∨ x = .fltResRetry c id → (u.core k).hold = none) ∧
            (x = .fqResFail pf ctx id ∨ x = .fltResFail c id → (u.core k).hold = some { h with fault := none, resolved := some false }))) ∧
    (s.isHandler c = false → exec (.fltNoteRead c) s = .next (s.emit (.regRead (2 * c.tile.val + c.core.val) 0xB02 0)) ∧ ∀ h, exec (.fltHeadWrite c h) s = .next s) ∧
    (s.isHandler c = true →
      let n := ((s.tile c.tile).notes.headD (0, 0)).1
      (∃ u, exec (.fltNoteRead c) s = .next u ∧ u.out = s.out ++ [.regRead (2 * c.tile.val + c.core.val) 0xB02 (n % 2 ^ 32)] ∧
        (u.tile c.tile).notes = (s.tile c.tile).notes.drop 1 ∧ tget (u.core c).shadow 0xB02 = some (n / 2 ^ 32 % 2 ^ 32)) ∧
      ∀ h : BitVec 16, ∃ u, exec (.fltHeadWrite c h) s = .next u ∧ (u.tile c.tile).reg 0xB07 = h.toNat ∧
        (u.mmuCtx (s.tileCtx c.tile)).head = h.toNat % 2 ^ (s.mmuCtx (s.tileCtx c.tile)).log2)

/-- R424, R425, R428-R430, R432, R434, R435, R496, R497: members are told to stop and report their points; the last report freezes the
paddock, and its job is suspended, or saved; a save leaves the units to the next job, a restore puts the saved units back and the job
runs. Conventions of the model: log 34. -/
def Obligations.PreemptionSavesAndRestores : Prop :=
  ∀ (s : State) (t : TileIx) (q : BitVec 16),
    let T := s.tile t
    let M := s.paddock (s.tag t)
    let p := q.toNat
    let P := s.paddock p
    let calm := ∀ e ∈ s.host.funcs, e.2.resetting = false
    (M.preempt = false ∨ M.frozen = true → exec (.preempt t false) s = .next s) ∧
    (M.preempt = true → M.frozen = false → exec (.preempt t false) s = .next (s.setTile t { T with preempting := true })) ∧
    (M.preempt = true → exec (.preempt t true) s = .next s) ∧
    (M.preempt = false → exec (.preempt t true) s = .next (s.setTile t { T with preempting := false, atPoint := false })) ∧
    (T.preempting = false ∨ T.atPoint = true ∨ s.atPoint t = false → exec (.preemptDone t) s = .next s) ∧
    (T.preempting = true → T.atPoint = false → s.atPoint t = true → T.spd.cb = [] →
      let seen := setIns M.reported t
      ((s.memberTiles (s.tag t)).all seen.contains = false → exec (.preemptDone t) s =
        .next ((s.setTile t { T with atPoint := true }).setPaddock (s.tag t) { M with reported := seen })) ∧
      (calm → M.preempt = true → M.frozen = false → (s.memberTiles (s.tag t)).all seen.contains = true → ∀ j, M.resident = some j →
        ((s.job j).state = .suspending → (s.job j).saveAsked = false → (s.job j).holdHost = true → (s.job j).resumeNext = false →
          ∃ u, exec (.preemptDone t) s = .next u ∧ (u.paddock (s.tag t)).frozen = true ∧ (u.job j).state = .suspended ∧ (u.tile t).atPoint = true) ∧
        ((s.job j).state = .running → (∀ m ∈ s.org.moving, m.2.2.2 ≠ s.tag t) → s.areaFrames (s.tag t) ≤ (s.job j).area.frames.length →
          ∃ u, exec (.preemptDone t) s = .next u ∧ (u.paddock (s.tag t)).frozen = true ∧ (u.paddock (s.tag t)).saving = true ∧ (u.job j).state = .running))) ∧
    -- slices
    (P.resident = none → exec (.sliceEnd q) s = .next s ∧ exec (.saveAreaRoom q) s = .next s ∧ ∀ b w, exec (.restoreComplete q b w) s = .next s) ∧
    (∀ j, P.resident = some j →
      (s.foldUp = false ∨ P.slice = 0 ∨ (s.job j).state ≠ .running ∨ P.preempt = true ∨ P.after ≠ none ∨ s.turnJobs p = [] → exec (.sliceEnd q) s = .next s) ∧
      (s.foldUp = true → P.slice ≠ 0 → (s.job j).state = .running → P.preempt = false → P.after = none → s.turnJobs p ≠ [] →
        ∃ u, exec (.sliceEnd q) s = .next u ∧ u.paddock p = { P with after := some .slice, preempt := true, frozen := false, reported := [] } ∧ u.tiles = s.tiles ∧ u.mem = s.mem) ∧
      (P.frozen = false ∨ P.saving = true ∨ (s.job j).state ≠ .suspended ∨ s.turnJobs p = [] → exec (.saveAreaRoom q) s = .next s) ∧
      (P.frozen = true → P.saving = false → (s.job j).state = .suspended → s.turnJobs p ≠ [] →
        (s.takeArea j p = none → exec (.saveAreaRoom q) s = .next s) ∧
        ∀ s', s.takeArea j p = some s' → ∃ u, exec (.saveAreaRoom q) s = .next u ∧ (u.paddock p).saving = true ∧ (u.paddock p).resident = some j ∧ u.tiles = s.tiles)) ∧
    (P.saving = false → exec (.saveComplete q) s = .next s) ∧
    (∀ j, calm → P.saving = true → P.resident = some j →
      (P.after = none ∧ (s.job j).state = .suspended ∧ (s.job j).holds ≠ 0) ∨ (P.after = some .slice ∧ (s.job j).state = .running) →
      ∃ u, exec (.saveComplete q) s = .next u ∧ (u.job j).saved = true ∧ (u.job j).state = (s.job j).state ∧
        (u.job j).area.tiles = (s.memberTiles p).map s.saveTile ∧ (u.job j).area.mixed = P.mixed ∧ ((s.job j).owed = [] → u.mem = s.mem) ∧
        (u.paddock p).resident = none ∧ (u.paddock p).saving = false ∧ (u.paddock p).frozen = false ∧ (u.paddock p).preempt = false ∧ (u.paddock p).after = none ∧
        ((s.job j).state = .running → (u.job j).descheduled = true) ∧
        ∀ x ∈ s.memberTiles p, (u.tile x).core0 = (s.tile x).core0.wiped ∧ (u.tile x).core1 = (s.tile x).core1.wiped ∧ (u.tile x).seqr = {} ∧
          (u.tile x).chans = [] ∧ (u.tile x).preempting = false ∧ (u.tile x).sched.mem = (s.tile x).sched.mem) ∧
    (∀ j b w, P.resident = some j →
      let J := s.job j
      J.kind = .compute → J.paddock = p →
      (P.restoring = false ∨ (s.awake p).1 = false → exec (.restoreComplete q b w) s = .next (s.awake p).2) ∧
      (calm → P.restoring = true → (s.awake p).1 = true →
        (J.saved = true → b = true ∨ s.restorable j = false →
          ∃ u, exec (.restoreComplete q b w) s = .next u ∧ (u.paddock p).resident = none ∧ (u.paddock p).restoring = false ∧
            ∃ e ∈ u.events, e.code = if b then 0x4005 else 0x9104) ∧
        (J.cancelNext = false → J.suspendNext = false → J.saved = false ∨ (b = false ∧ w = [] ∧ s.restorable j = true) →
          ∃ u, exec (.restoreComplete q b w) s = .next u ∧ (u.job j).state = .running ∧ (u.job j).saved = false ∧ (u.job j).descheduled = false ∧
            (u.paddock p).resident = some j ∧ (u.paddock p).restoring = false ∧ (u.paddock p).preempt = false ∧ (u.paddock p).frozen = false ∧
            (J.saved = true → (s.memberTiles p).Nodup → ∀ (i x : Nat) (k : SavedTile), (s.memberTiles p)[i]? = some x → J.area.tiles[i]? = some k →
              (u.tile x).core0 = k.tile.core0 ∧ (u.tile x).core1 = k.tile.core1 ∧ (u.tile x).chans = k.tile.chans ∧ (u.tile x).droves = k.tile.droves ∧
              (u.tile x).arr.slots = k.tile.arr.slots ∧ (u.tile x).sched.cal = (s.tile x).sched.cal ∧ (u.tile x).tlb = (s.tile x).tlb)))) ∧
    -- a queued job starts on its free paddock
    (∀ (h : BitVec 32) host,
      let j := h.toNat
      let J := s.job j
      let K := s.paddock J.paddock
      (J.live = false ∨ J.kind ≠ .compute ∨ K.releasing = true ∨ s.foldUp = false ∨ s.nextJob J.paddock ≠ some j → exec (.jobStart h host) s = .next s) ∧
      (calm → J.live = true → J.kind = .compute → s.foldUp = true → s.nextJob J.paddock = some j → s.padFree J.paddock = true → (s.awake J.paddock).1 = true →
        let ts := s.memberTiles J.paddock
        (J.state ≠ .queued → exec (.jobStart h host) s = .next ((s.awake J.paddock).2.startRestore j J.paddock)) ∧
        (J.state = .queued → ts.length < J.img.minMembers → ∃ u, exec (.jobStart h host) s = .next u ∧ (u.paddock J.paddock).resident = none ∧ ∃ e ∈ u.events, e.code = 0x9104) ∧
        (J.state = .queued → J.img.minMembers ≤ ts.length → J.entryTable = false → J.img.segments = [] → K.slice = 0 →
          ∃ u, exec (.jobStart h host) s = .next u ∧ (u.job j).state = .running ∧ (u.job j).started = true ∧ (u.paddock J.paddock).resident = some j ∧
            ∀ x ∈ ts, ∀ k, k < 2 → ((u.tile x).core k).running = true ∧ ((u.tile x).core k).pc = BitVec.ofNat 64 (0xFF00000000000000 + J.entry) ∧
              tget ((u.tile x).core k).g 1 = BitVec.ofNat 64 J.arg ∧ tget ((u.tile x).core k).p 0 = BitVec.allOnes 64 ∧
              ∀ o, o < 2 ^ 17 → u.byte (privKey x k o) = 0)))

/-- R39, R86, R185, R188, R675, R676, R692, R694: a tile reset stops its cores and empties its units, keeping scratchpad, zone map and
repairs; a region reset does so for its four tiles and its own caches and dispatch slots; a fenced tile's reset fails its job first;
CLEARING ends when every tile of it is filled. Conventions of the model: log 34. -/
def Obligations.ResetsAndClearing : Prop :=
  ∀ (s : State) (t : TileIx) (r : RegionIx),
    let fresh := fun (u : State) (x : Nat) =>
      (u.tile x).core0.running = false ∧ (u.tile x).core1.running = false ∧ (u.tile x).core0.g = [] ∧ (u.tile x).core0.hold = none ∧ (u.tile x).seqr = {} ∧ (u.tile x).chans = [] ∧
      (u.tile x).sched.state = .idle ∧ (u.tile x).sched.mem = (s.tile x).sched.mem ∧ (u.tile x).arr.slots = [] ∧ (u.tile x).arr.bypass = (s.tile x).arr.bypass ∧ (u.tile x).droves = (s.tile x).droves ∧
      (∀ n, srKept n = true → (u.tile x).reg n = (s.tile x).reg n) ∧ ∀ n, srKept n = false → (u.tile x).reg n = srReset n
    (∃ u, exec (.tileReset t) s = .next u ∧ fresh u t ∧ u.marks = (s.cbFlushAll t).marks ∧ u.mem = (s.cbFlushAll t).mem ∧
      ((s.tile t).spd.cb = [] → u.mem = s.mem ∧ ∀ x, x ≠ t.val → u.tile x = s.tile x)) ∧
    (∃ u, exec (.regionReset r) s = .next u ∧ (∀ x ∈ regionTiles r, fresh u x) ∧ (u.region r).slot0 = {} ∧ (u.region r).slot1 = {} ∧
      (u.region r).stlb = [] ∧ (u.region r).wcache = [] ∧ (∀ w ∈ u.mmu.walks, w.region ≠ r.val) ∧ (u.region r).power = (s.region r).power ∧
      ∀ i, i ≠ r.val → u.region i = s.region i) ∧
    ((s.tile t).net.fenced = false → exec (.fencedTileReset t) s = .next s) ∧
    ((s.tile t).net.fenced = true →
      ((s.paddock (s.tag t)).resident = none → ∃ u, exec (.fencedTileReset t) s = .next u ∧ fresh u t ∧ (u.tile t).net.fenced = false) ∧
      ∀ j, (s.paddock (s.tag t)).resident = some j → (s.job j).terminal = false → exec (.fencedTileReset t) s = .next ((s.failJob j 0x20).resetTile t)) ∧
    -- CLEARING ends
    (Tab.wf s.host.paddocks = true → (∀ e ∈ s.host.funcs, e.2.resetting = false) → (∀ e ∈ s.host.paddocks, e.2.live = true → e.2.releasing = false ∧ e.2.resident = none) →
      (s.org.clearing.contains r.val = true → s.stillFilling (s.clearedTiles r) = true →
        exec (.clearingEnd (some r) none) s = .next s) ∧
      (s.org.clearing.contains r.val = true → s.stillFilling (s.clearedTiles r) = false → s.org.toBind = [] →
        ∃ u, exec (.clearingEnd (some r) none) s = .next u ∧ u.org.clearing.contains r.val = false ∧ u.org.geoGen = (s.org.geoGen + 2) % 2 ^ 32 ∧
          u.org.binds = s.org.binds ∧ u.mem = s.mem) ∧
      (s.org.clearingTiles.contains t.val = true → s.org.toFill.contains t.val = false →
        ∃ u, exec (.clearingEnd none (some t)) s = .next u ∧ u.org.clearingTiles.contains t.val = false ∧ u.org.clearing = s.org.clearing))

/-- R344, R345, R448-R452, R460, R465: a stack that serves writes the words of a MEM_WRITE with their marks, or merges a masked one's
enabled bytes, and acknowledges it; it answers a MEM_READ with the words after correction, an uncorrectable one marked; it refuses tag 0,
answers CUT, BUSY in reset, UNREACHABLE when out of service or outside its windows, and holds a request while it self-refreshes.
Conventions of the model: logs 8, 23, 41. -/
def Obligations.HbmRequests : Prop :=
  ∀ (s : State) (p : Packet) (k : StackIx), stackOfNode p.dst = some k.val →
    let K := s.stack k
    let o := ((hbmAddr (p.addr % 2 ^ 42)).map (·.2)).getD 0
    let key := fun (i : Nat) => hbmKey k (32 * (o / 32 + i))
    let serves := p.tag ≠ 0 ∧ p.cut = false ∧ K.state = .inService ∧ hbmRequestOk k p = true ∧ K.selfRefresh = false
    let answered := fun (u : State) (typ : PType) (st : Nat) => ∃ a : Packet,
      u.net.flight = s.net.flight.erase p ++ [a] ∧ a.typ = typ ∧ a.status = st ∧ a.src = p.dst ∧ a.dst = p.src ∧ a.txn = p.txn ∧ a.tag = p.tag
    (p.typ = .memWrite → serves → bit p.addr 48 = false → p.data.length = p.words → 0 < p.words → p.words ≤ 64 →
      ∃ u, exec (.memWrite p []) s = .next u ∧ answered u .memAck 0 ∧ u.events = s.events ∧
        (∀ i, i < p.words → u.marked (key i) = bit p.poison i ∧ tget (u.stack k).upset (o / 32 + i) = 0 ∧
          ∀ j, j < 32 → u.byte (key i + j) = BitVec.ofNat 8 (fld (p.data.getD i 0).toNat (8 * j) 8)) ∧
        ∀ a, (∀ i, i < p.words → a < key i ∨ key i + 32 ≤ a) → u.byte a = s.byte a) ∧
    (p.typ = .memWrite → serves → bit p.addr 48 = true → tget K.upset (o / 32) = 0 →
      ∃ u, exec (.memWrite p []) s = .next u ∧ answered u .memAck 0 ∧ u.marked (key 0) = (s.marked (key 0) || bit p.poison 1) ∧
        (∀ j, j < 32 → u.byte (key 0 + j) = if bit (fld (p.data.getD 0 0).toNat 0 32) j then BitVec.ofNat 8 (fld (p.data.getD 1 0).toNat (8 * j) 8) else s.byte (key 0 + j)) ∧
        ∀ a, a < key 0 ∨ key 0 + 32 ≤ a → u.byte a = s.byte a) ∧
    (p.typ = .memRead → serves → 0 < p.words → p.words ≤ 64 → bit p.addr 48 = false → (∀ i, i < p.words → tget K.upset (o / 32 + i) = 0) →
      ∃ u a, exec (.memRead p []) s = .next u ∧ u.net.flight = s.net.flight.erase p ++ [a] ∧ a.typ = .memData ∧ a.status = 0 ∧ a.dst = p.src ∧ a.txn = p.txn ∧
        u.mem = s.mem ∧ u.marks = s.marks ∧ u.events = s.events ∧ a.data.length = p.words ∧
        ∀ i, i < p.words → a.data.getD i 0 = wordOf (s.bytes (key i) 32) ∧ bit a.poison i = s.marked (key i)) ∧
    -- errors of one word
    (p.typ = .memRead → serves → p.words = 1 → bit p.addr 48 = false → ∀ n, 0 < n → ∃ u a, exec (.memRead p [(o / 32, n)]) s = .next u ∧
      u.net.flight = s.net.flight.erase p ++ [a] ∧ a.status = 0 ∧ tget (u.stack k).upset (o / 32) = 0 ∧ (u.stack k).errAddr = o / 32 * 32 ∧
      (n ≤ 2 → a.data = [wordOf (s.bytes (key 0) 32)] ∧ bit a.poison 0 = s.marked (key 0) ∧ u.mem = s.mem ∧ (u.stack k).ce = min (K.ce + 1) (2 ^ 32 - 1) ∧ (u.stack k).errKind = 1) ∧
      (2 < n → bit a.poison 0 = true ∧ u.marked (key 0) = true ∧ (u.stack k).ue = min (K.ue + 1) (2 ^ 32 - 1) ∧ (u.stack k).errKind = 2 ∧
        ∃ e ∈ u.events, e.code = 0x5003)) ∧
    (∀ c typ, (p.typ = .memRead ∧ c = Instr.memRead p [] ∧ typ = PType.memData) ∨ (p.typ = .memWrite ∧ c = Instr.memWrite p [] ∧ typ = PType.memAck) →
      (p.tag = 0 → ∃ u, exec c s = .next u ∧ answered u typ 1 ∧ u.mem = s.mem) ∧
      (p.tag ≠ 0 → p.cut = true → ∃ u, exec c s = .next u ∧ answered u typ 4 ∧ u.mem = s.mem) ∧
      (p.tag ≠ 0 → p.cut = false →
        (K.state = .inReset → ∃ u, exec c s = .next u ∧ answered u typ 3 ∧ u.mem = s.mem ∧ u.events = s.events) ∧
        (K.state = .out → ∃ u, exec c s = .next u ∧ answered u typ 5 ∧ u.mem = s.mem ∧ u.events = s.events) ∧
        (K.state = .inService →
          (hbmRequestOk k p = false → ∃ u, exec c s = .next u ∧ answered u typ 5 ∧ u.mem = s.mem ∧ ∃ e, u.events = s.events ++ [e] ∧ e.code = 0x5009) ∧
          (hbmRequestOk k p = true → K.selfRefresh = true → exec c s = .next s))))

/-- R452, R453, R455, R456, R459-R461, R463-R466, R469, R695: scrubbing goes line by line round the stack; a migration ends in a
retirement; self-refresh is entered by an idle stack and left for a request; a reset keeps data, training ends it at its rate, or takes
the stack out; a test step runs part by part, and one that showed an error has its pseudo-channel retired. Conventions of the model: logs
36, 37. -/
def Obligations.HbmStacksServe : Prop :=
  ∀ (s : State) (k : StackIx),
    let K := s.stack k
    let working := K.state = .inService
    let lineSound := fun (L : Nat) => ∀ i, i < 8 → tget K.upset (8 * L + i) = 0
    let next := if K.scrubLine + 1 = stackLines then 0 else K.scrubLine + 1
    let skipped := K.migrating = some (K.scrubLine % 64) ∨ K.testing = some (K.scrubLine % 64)
    let out := fun (u : State) => (u.stack k).state = .out ∧ (u.stack k).testing = none ∧ u.mem = s.mem ∧ ∃ e, u.events = s.events ++ [e] ∧ e.code = 0x5007
    let reset := { K with
      state := .inReset, selfRefresh := true, ce := 0, ue := 0, errAddr := 0, errKind := 0
      testing := none, testPart := 0, softRepairs := [], hardRepairs := K.hardRepairs ++ K.softRepairs }
    (¬working ∨ K.selfRefresh = true → ∀ l b, exec (.hbmScrubStep k l b) s = .next s) ∧
    (working → K.selfRefresh = false → ∀ own, skipped ∨ lineSound K.scrubLine →
      exec (.hbmScrubStep k [] own) s = .next (s.setStack k { K with scrubLine := next })) ∧
    (working → K.selfRefresh = false → ¬skipped → lineSound K.scrubLine → K.scrubLine < stackLines → ∀ i, i < 8 → ∀ own,
      ∃ u, exec (.hbmScrubStep k [(8 * K.scrubLine + i, 3)] own) s = .next u ∧ (u.stack k).scrubLine = next ∧
        u.marked (hbmKey k (32 * (8 * K.scrubLine + i))) = true ∧ (u.stack k).ue = min (K.ue + 1) (2 ^ 32 - 1) ∧ (u.stack k).errKind = if own then 3 else 2) ∧
    (K.migrating = none ∨ ¬working → ∀ l, exec (.migrationStep k l) s = .next s) ∧
    (∀ p, K.migrating = some p → working → lineSound (64 * K.migPtr + p) →
      (K.migPtr + 1 < channelLines → exec (.migrationStep k []) s = .next (s.setStack k { K with migPtr := K.migPtr + 1 })) ∧
      (channelLines ≤ K.migPtr + 1 → K.pendingRetire = [] → ∃ u, exec (.migrationStep k []) s = .next u ∧ (u.stack k).migrating = none ∧
        (u.stack k).retired = setIns K.retired p ∧ u.mem = s.mem ∧ u.marks = s.marks ∧ ∃ e, u.events = s.events ++ [e] ∧ e.code = 0x5005)) ∧
    (∀ temp : BitVec 8, exec (.hbmRefresh k temp) s = .next (if K.working then s.setStack k { K with temp := temp.toNat } else s)) ∧
    (working → K.migrating = none → K.testing = none → K.srIdle ≠ 0 ∨ K.srForced = true → exec (.selfRefreshEntry k) s = .next (s.setStack k { K with selfRefresh := true })) ∧
    (¬working ∨ K.migrating ≠ none ∨ K.testing ≠ none ∨ (K.srIdle = 0 ∧ K.srForced = false) → exec (.selfRefreshEntry k) s = .next s) ∧
    (working → K.srForced = false → exec (.selfRefreshExit k) s = .next (s.setStack k { K with selfRefresh := false })) ∧
    (¬working ∨ K.srForced = true → exec (.selfRefreshExit k) s = .next s) ∧
    -- reset and training
    (K.edgeFailed = true ∨ (working ∧ K.migrating ≠ none) → exec (.stackReset k) s = .next s) ∧
    (K.edgeFailed = false → ¬working ∨ K.migrating = none → ∃ u, exec (.stackReset k) s = .next u ∧ u.stack k = reset ∧ u.mem = s.mem ∧ u.marks = s.marks ∧ u.events = s.events) ∧
    (K.state ≠ .inReset → ∀ b r l, exec (.hbmTrainingDone k b r l) s = .next s) ∧
    (K.state = .inReset →
      exec (.hbmTrainingDone k true none []) s = .next (s.setStack k { K with trainingSaved := false }) ∧
      (∃ u, exec (.hbmTrainingDone k false none []) s = .next u ∧ out u) ∧
      ∀ b (r : Fin 3), ∃ u, exec (.hbmTrainingDone k b (some r) []) s = .next u ∧ (u.stack k).state = .inService ∧ (u.stack k).rate = r.val ∧
        (r ≠ 0 → ∃ e ∈ u.events, e.code = 0x5008) ∧ (K.lostPower = false → u.mem = s.mem ∧ u.marks = s.marks) ∧
        (K.lostPower = true → ∀ o, o < 2 ^ 36 → u.byte (hbmKey k o) = 0 ∧ u.marked (hbmKey k o) = false)) ∧
    (¬working → ∀ b, exec (.hbmControllerError k b) s = .next s) ∧
    (working → (∃ u, exec (.hbmControllerError k false) s = .next u ∧ out u) ∧
      (K.migrating = none → ∃ u, exec (.hbmControllerError k true) s = .next u ∧ u.stack k = { reset with internalUe := true } ∧ u.mem = s.mem)) ∧
    -- test steps
    (K.testing = none → ∀ b, exec (.testStepPart k b) s = .next s) ∧
    (∀ p, K.testing = some p →
      let last := if K.testData then 6 else 5
      (K.testPart < last → exec (.testStepPart k false) s = .next (s.setStack k { K with testPart := K.testPart + 1, testErr := K.testErr })) ∧
      (K.testPart = 4 → K.retired = [] → K.pendingRetire = [] → exec (.testStepPart k true) s =
        .next (s.setStack k { K with testPart := 5, testErr := true, pendingRetire := [p] })) ∧
      (last ≤ K.testPart → s.start.phase ≠ 10 →
        (K.pendingRetire = [] → ∃ u, exec (.testStepPart k false) s = .next u ∧ (u.stack k).testing = none ∧ (u.stack k).testErr = false ∧
          (u.stack k).retired = K.retired ∧ u.mem = s.mem) ∧
        (K.pendingRetire = [p] → ∃ u, exec (.testStepPart k false) s = .next u ∧ (u.stack k).testing = none ∧ (u.stack k).retired = setIns K.retired p ∧
          (u.stack k).migrating = K.migrating ∧ ∃ e ∈ u.events, e.code = 0x5005)) ∧
      (last ≤ K.testPart → s.start.phase = 10 → K.state ≠ .out → K.pendingRetire = [] → ∀ e l, K.testPlan = e :: l → K.testErr = false ∨ K.testAgain = true ∨ s.start.cold = false →
        ∃ u, exec (.testStepPart k false) s = .next u ∧ (u.stack k).testing = some e.1 ∧ (u.stack k).testBg = e.2 ∧ (u.stack k).testPlan = l ∧ (u.stack k).testPart = 2)) ∧
    exec (.hbmCeRead k) s = .next ((s.emit (.regRead (0x10000 + k.val) 0x003 K.ce)).setStack k { K with ce := 0 }) ∧
    exec (.hbmUeRead k) s = .next ((s.emit (.regRead (0x10000 + k.val) 0x004 K.ue)).setStack k { K with ue := 0 })

/-- R471-R474, R505, R506, R598, R692, R716: a session takes the highest common version, or fails, and waits for service; a reset, however
it is asked for, silences the function's queues at once and ends with its contexts and registers cleared; a link that goes down resets its
functions; virtual functions come with one queue pair each. Conventions of the model: logs 6, 35. -/
def Obligations.SessionsAndResets : Prop :=
  ∀ (s : State) (fn : FnIx) (p : HostIx),
    let F := s.func fn
    let P := s.port p
    let hi := fld F.hver 24 8
    let lo := fld F.hver 8 8
    let takes := F.enabled = false ∧ F.resetting = false ∧ s.start.stopped = false ∧ (fn.val < 4 ∨ F.vfOn = true)
    let starts := fun (v : Nat) => ∃ u, exec (.fncEnable fn) s = .next u ∧
      u.func fn = { F with enabled := true, enableHeld := false, nver := v, ready := true, verFail := false } ∧ u.events = s.events ∧
      u.queue fn 0 = { made := true, sqBase := F.asq, cqBase := F.acq, log2Sq := fld F.aqa 0 5, log2Cq := fld F.aqa 16 5, intEn := true }
    let down := fun (u : State) (f : Nat) => (u.func f).enabled = false ∧ (u.func f).ready = false ∧ (∀ q, q < 4096 → (u.queue f q).made = false) ∧
      (f < 4 → ∀ v ∈ vfsOf f, (u.func v).vfOn = false) ∧
      -- with no paddock left the reset ends at once
      ((∀ e ∈ s.host.paddocks, e.2.live = true → (s.ctx e.2.ctx).fn ≠ f) → (u.func f).resetting = false ∧ (u.func f).nver = 0 ∧
        (∀ c, c < 256 → (u.ctx c).live = true → (u.ctx c).fn ≠ f) ∧ ∃ e ∈ u.events, e.code = 0x6005 ∧ e.fn = f)
    (¬takes → exec (.fncEnable fn) s = .next s) ∧
    (takes → s.start.phase ≠ 0 → exec (.fncEnable fn) s = .next (s.setFunc fn { F with enableHeld := true })) ∧
    (takes → s.start.phase = 0 →
      (hi = 2 → starts (0x200 + min (fld F.hver 16 8) 4)) ∧ (hi ≠ 2 → lo = 2 → starts (0x200 + min (fld F.hver 0 8) 4)) ∧
      (hi = 1 → lo ≠ 2 → starts (0x100 + min (fld F.hver 16 8) 9)) ∧ (hi ≠ 2 → hi ≠ 1 → lo = 1 → starts (0x100 + min (fld F.hver 0 8) 9)) ∧
      (hi ≠ 2 → hi ≠ 1 → lo ≠ 2 → lo ≠ 1 → ∃ u e, exec (.fncEnable fn) s = .next u ∧ u.func fn = { F with enabled := true, enableHeld := false, verFail := true } ∧
        u.host.queues = s.host.queues ∧ u.events = s.events ++ [e] ∧ e.code = 0x6007)) ∧
    (F.enabled = false → F.enableHeld = false → exec (.fncDisable fn) s = .next s) ∧
    (F.enabled = true ∨ F.enableHeld = true → ∃ u, exec (.fncDisable fn) s = .next u ∧ down u fn) ∧
    (∃ u, exec (.flr fn) s = .next u ∧ down u fn) ∧
    (P.up = false → exec (.hostLinkDown p) s = .next s) ∧
    (P.up = true → ∃ u, exec (.hostLinkDown p) s = .next u ∧ down u p ∧ u.port p = { P with up := false, reads := [] } ∧ ∃ e ∈ u.events, e.code = 0x6006) ∧
    (∃ u, exec (.perstNAssert p) s = .next u ∧ down u p ∧ u.port p = { P with perst := true, up := false, reads := [] }) ∧
    exec (.perstNDeassert p) s = .next (s.setPort p { P with perst := false }) ∧
    (∃ u, exec (.hostPortReset p) s = .next u ∧ down u p ∧ u.port p = { P with up := false, reads := [] }) ∧
    (∀ w g, (P.perst = true ∨ P.out = true → exec (.hostLinkTrained p w g) s = .next s) ∧
      (P.perst = false → P.out = false → ∃ u, exec (.hostLinkTrained p w g) s = .next u ∧ u.port p = { P with up := true, width := w, gt := g } ∧ u.host.funcs = s.host.funcs ∧
        (16 ≤ w → 64 ≤ g → u.events = s.events) ∧ (w < 16 ∨ g < 64 → ∃ e, u.events = s.events ++ [e] ∧ e.code = 0x6008))) ∧
    (∀ n : Fin 64, (∀ e ∈ s.host.funcs, e.2.resetting = false) → (∀ v ∈ vfsOf p, (s.func v).vfOn = false) →
      ∃ u, exec (.vfEnable p n) s = .next u ∧ u.host.queues = s.host.queues ∧ (∀ v ∈ (vfsOf p).take n, u.func v = { s.func v with vfOn := true, queues := 1 }) ∧
        ∀ f, f ∉ (vfsOf p).take n → u.func f = s.func f) ∧
    (∀ (n : Fin 64) v, v ∈ (vfsOf p).drop n → (s.func v).vfOn = true → ∃ u, exec (.vfEnable p n) s = .next u ∧ (u.func v).enabled = false ∧
      (u.func v).vfOn = false ∧ ∀ q, q < 4096 → (u.queue v q).made = false)

/-- R478-R483, R500, R503, R504, R508: doorbells and tail words move a queue's indices or stop it; a fetch takes the next entry where its
completions can be reserved, and answers a reserved or too new opcode at once; a final completion is one entry in the ring, with the phase
of its pass; completions of host reads deliver their bytes, poisoned where the request failed. Conventions of the model: logs 6, 38, 39. -/
def Obligations.QueuesFetchAndComplete : Prop :=
  ∀ (s : State) (fn : FnIx) (q : BitVec 16) (p : HostIx),
    let n := q.toNat
    let Q := s.queue fn q.toNat
    let runs := Q.made = true ∧ Q.stopped = false
    let stops := fun (c : Instr) (cause : Nat) => ∃ u e, exec c s = .next u ∧ u.queue fn n = { Q with stopped := true, cause := cause } ∧
      u.events = s.events ++ [e] ∧ e.code = 0x6004
    (∀ i : BitVec 16,
      (¬runs → exec (.sqTailDoorbell fn q i) s = .next s ∧ exec (.cqHeadDoorbell fn q i) s = .next s) ∧
      (Q.inDevice = true → exec (.sqTailDoorbell fn q i) s = .next s) ∧
      (runs → Q.inDevice = false → 2 ^ Q.log2Sq ≤ i.toNat → stops (.sqTailDoorbell fn q i) 1) ∧
      (runs → Q.inDevice = false → i.toNat < 2 ^ Q.log2Sq → exec (.sqTailDoorbell fn q i) s = .next (s.setQueue fn n { Q with sqTail := i.toNat })) ∧
      (let freed := (i.toNat + 2 ^ Q.log2Cq - Q.cqHead) % 2 ^ Q.log2Cq
       runs → (2 ^ Q.log2Cq ≤ i.toNat ∨ Q.cqUsed < freed → stops (.cqHeadDoorbell fn q i) 2) ∧
        (i.toNat < 2 ^ Q.log2Cq → freed ≤ Q.cqUsed → exec (.cqHeadDoorbell fn q i) s = .next (s.setQueue fn n { Q with cqHead := i.toNat, cqUsed := Q.cqUsed - freed })))) ∧
    (∀ host,
      (¬runs ∨ Q.inDevice = false → exec (.deviceRingPoll fn q host) s = .next s) ∧
      (runs → Q.inDevice = true →
        (s.ctxRead Q.ctx host (pagePieces Q.tailVa 8) = .error 0x20 → stops (.deviceRingPoll fn q host) 5) ∧
        (s.ctxRead Q.ctx host (pagePieces Q.tailVa 8) = .error 0x21 → stops (.deviceRingPoll fn q host) 3) ∧
        ∀ bs, s.ctxRead Q.ctx host (pagePieces Q.tailVa 8) = .ok bs →
          (2 ^ Q.log2Sq ≤ ofBytes bs % 2 ^ 16 → stops (.deviceRingPoll fn q host) 1) ∧
          (ofBytes bs % 2 ^ 16 < 2 ^ Q.log2Sq → exec (.deviceRingPoll fn q host) s = .next (s.setQueue fn n { Q with sqTail := ofBytes bs % 2 ^ 16 })))) ∧
    -- fetching
    (∀ (w : BitVec 512) (bad : Bool),
      let c := sqEntry w.toNat
      let op := c.opcode.toNat
      let got := s.setQueue fn n { Q with
        sqHead := (Q.sqHead + 1) % 2 ^ Q.log2Sq
        fetchNo := Q.fetchNo + 1
        fetched := Q.fetched ++ [{ c := c, no := Q.fetchNo, hold := opEntries op }] }
      let o : Owed := { fn := fn, queue := n, no := Q.fetchNo, id := c.id.toNat }
      let room := Q.cqUsed + natSum (Q.fetched.map (·.hold)) + opEntries op ≤ 2 ^ Q.log2Cq
      (¬runs ∨ Q.deleting ≠ none ∨ Q.sqHead = Q.sqTail ∨ (s.func fn).resetting = true → exec (.commandFetch fn q w bad) s = .next s) ∧
      (runs → Q.deleting = none → Q.sqHead ≠ Q.sqTail → (s.func fn).resetting = false → Q.inDevice = false →
        (bad = true → stops (.commandFetch fn q w bad) 3) ∧
        (bad = false →
          (¬room → exec (.commandFetch fn q w bad) s = .next s) ∧
          (room → opVersion op = none → exec (.commandFetch fn q w bad) s = .next (got.finish o 0x11 0 0 0)) ∧
          ∀ v, room → opVersion op = some v →
            (v ≤ (s.func fn).nver → exec (.commandFetch fn q w bad) s = .next got) ∧
            ((s.func fn).nver < v → exec (.commandFetch fn q w bad) s = .next (got.finish o 0x10 0 0 0)))) ∧
      (runs → Q.deleting = none → Q.sqHead ≠ Q.sqTail → (s.func fn).resetting = false → Q.inDevice = true →
        ∀ k, s.ctxPlace Q.ctx (Q.sqBase + 64 * Q.sqHead) false = .error k → stops (.commandFetch fn q w bad) 5)) ∧
    -- a final completion in a host ring of a session at major 2
    (∀ (o : Owed) st r0 r1 job, o.fn = fn.val → o.queue = n → Q.made = true → Q.inDevice = false → Q.deleting = none → 0x200 ≤ (s.func fn).nver →
        (Q.fetched.any fun f => f.no == o.no) = true → job ≠ 0 →
      let last := Q.cqTail + 1 = 2 ^ Q.log2Cq
      let u := s.finish o st r0 r1 job
      let bs := toBytes r0 8 ++ toBytes r1 8 ++ toBytes job 4 ++ toBytes Q.sqHead 2 ++ toBytes n 2 ++ toBytes o.id 2 ++ toBytes st 1 ++
        toBytes (16 * (s.job job).holds + jobCode (s.job job).state) 1 ++ toBytes (2 ^ 31 * b01 Q.phase) 4
      (u.queue fn n).fetched = Q.fetched.filter (fun f => f.no != o.no) ∧ (u.queue fn n).cqUsed = Q.cqUsed + 1 ∧
        (u.queue fn n).cqTail = (if last then 0 else Q.cqTail + 1) ∧ (u.queue fn n).phase = (if last then !Q.phase else Q.phase) ∧
        (Q.intEn = true → Q.coalCount = 0 → Q.coalUs = 0 →
          u.out = s.out ++ [.hostWrite (portOfFn fn) (Q.cqBase + 32 * Q.cqTail) bs false, .msix fn Q.vector]) ∧
        (Q.intEn = false → u.out = s.out ++ [.hostWrite (portOfFn fn) (Q.cqBase + 32 * Q.cqTail) bs false])) ∧
    (exec (.coalesceTimeout fn q) s = .next (if Q.made = true ∧ 0 < Q.pendingInt ∧ Q.coalUs ≠ 0 then
      (s.setQueue fn n { Q with pendingInt := 0 }).emit (.msix fn Q.vector) else s)) ∧
    -- reads of host memory
    (∀ (tag : BitVec 14) ok ep data,
      ((s.port p).reads.find? (fun r => r.tag == tag.toNat) = none → exec (.hostCompletionReceived p tag ok ep data) s = .next s ∧ exec (.completionTimeout p tag) s = .next s) ∧
      ∀ r k, (s.port p).reads.find? (fun r => r.tag == tag.toNat) = some r → r.pkt = some k → data.length = r.n → r.n = 32 * k.words → k.words ≤ 64 →
        let ends := fun (c : Instr) (bad : Bool) (code : Nat) => ∃ u a, exec c s = .next u ∧ u.net.flight = s.net.flight ++ [a] ∧ a.typ = .memData ∧ a.status = 0 ∧
          a.dst = k.src ∧ a.txn = k.txn ∧ a.data.length = k.words ∧ (∀ i, i < k.words → bit a.poison i = bad) ∧ (∀ x ∈ (u.port p).reads, x.tag ≠ r.tag) ∧
          (code ≠ 0 → ∃ e, u.events = s.events ++ [e] ∧ e.code = code) ∧ (code = 0 → u.events = s.events ∧ ∀ i, i < k.words → a.data.getD i 0 = wordOf ((data.drop (32 * i)).take 32))
        ends (.hostCompletionReceived p tag true false data) false 0 ∧ ends (.hostCompletionReceived p tag false ep data) true 0x6002 ∧
        ends (.hostCompletionReceived p tag true true data) true 0x6003 ∧ ends (.completionTimeout p tag) true 0x6002)

/-- R473, R475, R477, R481, R483-R490, R725: a queue, allotment, context or paddock command that a queue starts is checked in the order of
R483, changes nothing where a check fails, and else has its effect and its completion. Conventions of the model: logs 39, 42, 43. -/
def Obligations.AdminAndPaddockCommands : Prop :=
  ∀ (s : State) (fn : FnIx) (q : BitVec 16) (c : SqEntry) (o : Owed),
    let x := c.ctx.toNat
    let p := wf c.w1 0 16
    let P := s.paddock p
    let done := fun (u : State) (r0 r1 : Nat) => Host.Outcome.next (φ := Fault) (ρ := Refusal) (u.finish o 0 r0 r1 0)
    let fails := fun (n : Nat) => Host.Outcome.next (φ := Fault) (ρ := Refusal) (s.finish o n 0 0 0)
    -- a queue with no command to start; an admin command in another queue
    (∀ i, i ∈ [Instr.createQueue fn q c, .deleteQueue fn q c, .allot fn q c, .createContext fn q c, .destroyContext fn q c, .createPaddock fn q c,
          .growPaddock fn q c, .shrinkPaddock fn q c, .setPaddock fn q c, .replacePaddock fn q c, .releasePaddock fn q c, .getPlacement fn q c] →
      (s.queue fn q.toNat).fetched.find? (fun f => !f.started) = none → exec i s = .next s) ∧
    (s.starts fn q.toNat 0x05 c o → q.toNat ≠ 0 → sqStray c [] = false → exec (.destroyContext fn q c) s = fails 0x13) ∧
    (s.starts fn q.toNat 0x01 c o → q.toNat = 0 →
      let lq := wf c.w3 0 16
      let sound := sqStray c [maskAll, maskAll, msk 0 27 + msk 32 12, msk 0 32, maskAll] = false ∧ lq ≠ 0 ∧ lq < s.fnQueues fn ∧ 1 ≤ wf c.w3 16 5 ∧ wf c.w3 16 5 ≤ 16 ∧
        1 ≤ wf c.w3 21 5 ∧ wf c.w3 21 5 ≤ 16 ∧ wf c.w1 0 12 = 0 ∧ wf c.w2 0 12 = 0 ∧ wf c.w3 32 11 < fnVectors fn ∧
        (0x204 ≤ s.ver fn ∨ (wf c.w4 8 8 = 0 ∧ wf c.w4 16 16 = 0)) ∧ (bit c.w3.toNat 26 = true → s.ctxMine fn (wf c.w4 0 8) = true)
      (s.ver fn < 0x204 → wf c.w4 8 8 ≠ 0 ∨ wf c.w4 16 16 ≠ 0 → exec (.createQueue fn q c) s = fails 0x10) ∧
      (sound → (s.queue fn lq).made = true → exec (.createQueue fn q c) s = fails 0x14) ∧
      (sound → (s.queue fn lq).made = false → exec (.createQueue fn q c) s = done (s.setQueue fn lq {
        made := true, sqBase := c.w1.toNat, cqBase := c.w2.toNat, log2Sq := wf c.w3 16 5, log2Cq := wf c.w3 21 5, inDevice := bit c.w3.toNat 26
        vector := wf c.w3 32 11, intEn := bit c.w3.toNat 43, ctx := wf c.w4 0 8, coalCount := wf c.w4 8 8, coalUs := wf c.w4 16 16, tailVa := c.w5.toNat }) 0 0)) ∧
    (s.starts fn q.toNat 0x02 c o → q.toNat = 0 → sqStray c [msk 0 16] = false →
      (p = 0 → exec (.deleteQueue fn q c) s = fails 0x11) ∧
      (p ≠ 0 → p < s.fnQueues fn → (s.queue fn p).made = true → (s.queue fn p).deleting = none → ∃ u, exec (.deleteQueue fn q c) s = .next u ∧
        ((∀ f ∈ (s.queue fn p).fetched, f.isJob = true) → u.queue fn p = {}) ∧
        ((∃ f ∈ (s.queue fn p).fetched, f.isJob = false) → u.queue fn p = { s.queue fn p with deleting := some o }))) ∧
    (s.starts fn q.toNat 0x03 c o → q.toNat = 0 → sqStray c [msk 0 8 + msk 16 16 + msk 32 16] = false → wf c.w1 40 8 ≤ 144 →
      let t := wf c.w1 0 8
      let T := s.func t
      (4 ≤ fn.val → (4 ≤ t ∨ (wf c.w1 16 16 = 0 ∧ wf c.w1 32 8 = 0)) → exec (.allot fn q c) s = fails 0x13) ∧
      (fn.val < 4 → 4 ≤ t → pfOf t = fn.val → T.vfOn = true → s.queuesUsed t ≤ wf c.w1 16 16 → 1 ≤ wf c.w1 16 16 → s.contextsUsed t ≤ wf c.w1 32 8 → s.regionsUsed t ≤ wf c.w1 40 8 →
        wf c.w1 16 16 + s.queuesUsed fn ≤ s.fnQueues fn + T.queues → wf c.w1 16 16 ≤ T.queues + s.fnQueues fn →
        wf c.w1 32 8 + s.contextsUsed fn ≤ s.fnContexts fn + T.contexts → wf c.w1 32 8 ≤ T.contexts + s.fnContexts fn →
        wf c.w1 40 8 + s.regionsUsed fn ≤ s.fnQuota fn + T.quota → wf c.w1 40 8 ≤ T.quota + s.fnQuota fn →
        exec (.allot fn q c) s = done (s.setFunc t { T with queues := wf c.w1 16 16, contexts := wf c.w1 32 8, quota := wf c.w1 40 8 }) 0 0)) ∧
    (s.starts fn q.toNat 0x04 c o → q.toNat = 0 → sqStray c [msk 0 2 + msk 8 20 + msk 32 17, maskAll, maskAll] = false → 6 ≤ wf c.w1 32 5 → wf c.w1 32 5 ≤ 16 →
      wf c.w2 0 12 = 0 → wf c.w3 0 12 = 0 → wf c.w1 37 11 < fnVectors fn →
      (bit c.w1.toNat 1 = true → (s.func fn).ats = false ∨ (s.func fn).pri = false → exec (.createContext fn q c) s = fails 0x13) ∧
      (bit c.w1.toNat 0 = true → 4 ≤ fn.val → exec (.createContext fn q c) s = fails 0x13) ∧
      ((bit c.w1.toNat 1 = true → (s.func fn).ats = true ∧ (s.func fn).pri = true) → (bit c.w1.toNat 0 = true → fn.val < 4) →
        (s.fnContexts fn ≤ s.contextsUsed fn → exec (.createContext fn q c) s = fails 0x12) ∧
        ∀ n fs, s.contextsUsed fn < s.fnContexts fn → s.freeCtx = some n → s.findFrames 0xFF (cdiv (32 * 2 ^ wf c.w1 32 5) 4096) 1 = some fs → bit c.w1.toNat 0 = true →
          ∃ u, exec (.createContext fn q c) s = done u n 0 ∧ (∀ f ∈ fs, u.frame f = .faultQueue n) ∧
            u.ctx n = { live := true, fn := fn, hostTables := true, fqFrames := fs } ∧
            u.mmuCtx n = {
              live := true, fn := fn, sva := bit c.w1.toNat 1, pasid := wf c.w1 8 20, svaBase := c.w2.toNat, svaLimit := c.w3.toNat
              fqBase := frameAddr 0xFF (fs.headD 0), log2 := wf c.w1 32 5, intEn := bit c.w1.toNat 48, vector := wf c.w1 37 11 })) ∧
    (s.starts fn q.toNat 0x05 c o → q.toNat = 0 → sqStray c [] = false →
      (s.ctxMine fn x = false → exec (.destroyContext fn q c) s = fails 0x15) ∧
      (s.ctxMine fn x = true → (s.ctxRing x = true ∨ ∃ e ∈ s.host.paddocks, e.2.live = true ∧ e.2.ctx = x) → exec (.destroyContext fn q c) s = fails 0x14) ∧
      (s.ctxMine fn x = true → s.ctxRing x = false → (∀ e ∈ s.host.paddocks, e.2.live = true → e.2.ctx ≠ x) → ∃ u, exec (.destroyContext fn q c) s = done u 0 0 ∧
        (u.ctx x).live = false ∧ (∀ t, ∀ e ∈ (u.tile t).tlb, e.ctx ≠ x) ∧ (∀ w ∈ u.mmu.walks, w.ctx ≠ x) ∧ (∀ f ∈ u.mmu.faults, f.ctx ≠ x) ∧
        (Tab.wf s.host.frames = true → ∀ f, u.frame f ≠ .ctx x ∧ u.frame f ≠ .table x ∧ u.frame f ≠ .faultQueue x))) ∧
    -- paddocks
    (s.starts fn q.toNat 0x10 c o → attrsBeyond (s.ver fn) c.w5.toNat = false → sqStray c (0 :: bitmapMasks ++ [msk 0 13 + msk 16 16]) = false →
      let rs := bitmapRegions c
      (s.ctxMine fn x = false → rs ≠ [] → wf c.w5 0 8 = 0 → exec (.createPaddock fn q c) s = fails 0x15) ∧
      (s.ctxMine fn x = true → rs ≠ [] → wf c.w5 0 8 = 0 →
        ((∃ r ∈ rs, s.assignable r = false) → exec (.createPaddock fn q c) s = fails 0x14) ∧
        ((∀ r ∈ rs, s.assignable r = true) →
          (s.fnQuota fn < s.regionsUsed fn + rs.length → exec (.createPaddock fn q c) s = fails 0x12) ∧
          (s.regionsUsed fn + rs.length ≤ s.fnQuota fn → s.padCount < 144 → ∃ u, exec (.createPaddock fn q c) s = done u s.freePaddock rs.length ∧
            u.paddock s.freePaddock = { live := true, ctx := x, prio := wf c.w5 8 4, mixed := bit c.w5.toNat 12, slice := wf c.w5 16 16, regions := rs.foldl setIns [] } ∧
            u.org.geoGen = (s.org.geoGen + 2) % 2 ^ 32))) ∧
      (s.ctxMine fn x = true → rs = [] → 0 < wf c.w5 0 8 → wf c.w5 0 8 ≤ 144 →
        let rs := s.countRegions (wf c.w5 0 8)
        (rs.length < wf c.w5 0 8 → exec (.createPaddock fn q c) s = fails 0x12) ∧
        (rs.length = wf c.w5 0 8 → s.regionsUsed fn + rs.length ≤ s.fnQuota fn → s.padCount < 144 → ∃ u, exec (.createPaddock fn q c) s = done u s.freePaddock rs.length ∧
          (u.paddock s.freePaddock).regions = rs.foldl setIns []))) ∧
    (s.starts fn q.toNat 0x11 c o → sqStray c (msk 0 16 :: bitmapMasks) = false → bitmapRegions c ≠ [] →
      (s.padMine fn x p = false → exec (.growPaddock fn q c) s = fails 0x15) ∧
      (s.padMine fn x p = true → s.padBusy p = true ∨ (∃ r ∈ bitmapRegions c, s.assignable r = false) → exec (.growPaddock fn q c) s = fails 0x14) ∧
      (s.padMine fn x p = true → s.padBusy p = false → (∀ r ∈ bitmapRegions c, s.assignable r = true) → P.jobs = [] →
        s.regionsUsed fn + (bitmapRegions c).length ≤ s.fnQuota fn → ∃ u, exec (.growPaddock fn q c) s = done u 0 0 ∧
          u.paddock p = { P with regions := (bitmapRegions c).foldl setIns P.regions } ∧ u.tiles = s.tiles)) ∧
    (s.starts fn q.toNat 0x12 c o → sqStray c (msk 0 16 :: bitmapMasks) = false → bitmapRegions c ≠ [] → s.padMine fn x p = true →
      let rs := bitmapRegions c
      ((∃ r ∈ rs, r ∉ P.regions) ∨ rs.length = P.regions.length → exec (.shrinkPaddock fn q c) s = fails 0x11) ∧
      ((∀ r ∈ rs, r ∈ P.regions) → rs.length ≠ P.regions.length →
        (s.padBusy p = true → exec (.shrinkPaddock fn q c) s = fails 0x14) ∧
        (s.padBusy p = false → P.resident = none → exec (.shrinkPaddock fn q c) s = done (s.doShrink p rs) 0 0) ∧
        ∀ j, s.padBusy p = false → P.resident = some j → (s.job j).state = .suspended → P.saving = false → s.areaFrames p ≤ (s.job j).area.frames.length →
          ∃ u, exec (.shrinkPaddock fn q c) s = .next u ∧ u.paddock p = { P with after := some (.shrink o rs), saving := true })) ∧
    (s.starts fn q.toNat 0x13 c o → attrsBeyond (s.ver fn) c.w5.toNat = false → sqStray c [msk 0 16, 0, 0, 0, msk 8 5 + msk 16 16 + msk 32 3] = false → s.padMine fn x p = true →
      (∀ j ∈ P.jobs, (s.job j).state ≠ .running ∧ (s.job j).state ≠ .suspending ∧ (s.job j).state ≠ .resuming) ∨ bit c.w5.toNat 33 = false →
        exec (.setPaddock fn q c) s = done (s.setPaddock p { P with
          prio := if bit c.w5.toNat 32 then wf c.w5 8 4 else P.prio
          mixed := if bit c.w5.toNat 33 then bit c.w5.toNat 12 else P.mixed
          slice := if bit c.w5.toNat 34 then wf c.w5 16 16 else P.slice }) 0 0) ∧
    (s.starts fn q.toNat 0x14 c o → sqStray c [msk 0 17 + msk 32 32, maskAll, maskAll, maskAll, maskAll, maskAll, maskAll] = false → s.padMine fn x p = true →
      bit c.w1.toNat 16 = false → replacePairs c = [] →
      (s.org.geoGen ≠ wf c.w1 32 32 → exec (.replacePaddock fn q c) s = fails 0x14) ∧
      (s.org.geoGen = wf c.w1 32 32 → P.releasing = false → P.after = none → P.resident = none →
        exec (.replacePaddock fn q c) s = .next (((s.accept o { status := 1 }).liftGeometry p).finish o 0 0 0 0))) ∧
    (∀ l t, s.starts fn q.toNat 0x14 c o → sqStray c [msk 0 17 + msk 32 32, maskAll, maskAll, maskAll, maskAll, maskAll, maskAll] = false → s.padMine fn x p = true →
      bit c.w1.toNat 16 = true → pairStray c = false → replacePairs c = [(l, tx t, ty t)] → t < 576 → s.freeTile t = true → fieldOf t = l / 60 → s.lidPaddock l = p →
      s.org.geoGen = wf c.w1 32 32 → P.releasing = false → P.after = none → ∀ j, P.resident = some j → (s.job j).state = .running → (s.job j).saved = false →
        s.areaFrames p ≤ (s.job j).area.frames.length → ∃ u, exec (.replacePaddock fn q c) s = .next u ∧ (u.paddock p).after = some (.replace o [(l, t)]) ∧ (u.paddock p).preempt = true) ∧
    (s.starts fn q.toNat 0x15 c o → sqStray c [msk 0 16] = false →
      (s.padMine fn x p = false → exec (.releasePaddock fn q c) s = fails 0x15) ∧
      (s.padMine fn x p = true → P.releasing = true → exec (.releasePaddock fn q c) s = fails 0x14) ∧
      (s.padMine fn x p = true → P.releasing = false → exec (.releasePaddock fn q c) s = .next ((s.accept o { status := 1 }).beginRelease p (some o)) ∧
        (P.jobs = [] → s.clearOver p = true → ∃ u, exec (.releasePaddock fn q c) s = .next u ∧ u.paddock p = {}))) ∧
    (s.starts fn q.toNat 0x16 c o → sqStray c [msk 0 16, maskAll, msk 0 16] = false → wf c.w2 0 12 = 0 → s.padMine fn x p = true →
      let n := 32 * ((s.members p).length + 1)
      (wf c.w3 0 16 < n → exec (.getPlacement fn q c) s = fails 0x11) ∧
      (n ≤ wf c.w3 0 16 → exec (.getPlacement fn q c) s = done (s.emit (.hostWrite (portOfFn fn) c.w2.toNat
        (toBytes (s.org.geoGen + (s.members p).length * 2 ^ 32 + p * 2 ^ 48) 32 ++ (s.members p).flatMap fun l => (s.geoEntry fn l).flatMap fun w => toBytes w 4) false)) s.org.geoGen n))

/-- R419, R444, R445, R451, R481, R485, R491-R493: frames, mappings, copies, faults and images of a context: what each command takes,
writes, frees or resolves, and the checks that turn it away. Conventions of the model: logs 39, 43. -/
def Obligations.MemoryAndImageCommands : Prop :=
  ∀ (s : State) (fn : FnIx) (q : BitVec 16) (c : SqEntry) (o : Owed) (host : HostMem),
    let x := c.ctx.toNat
    let C := s.ctx x
    let done := fun (u : State) (r0 : Nat) => Host.Outcome.next (φ := Fault) (ρ := Refusal) (u.finish o 0 r0 0 0)
    let fails := fun (n : Nat) => Host.Outcome.next (φ := Fault) (ρ := Refusal) (s.finish o n 0 0 0)
    let mine := s.ctxMine fn x = true
    (∀ i, i ∈ [Instr.alloc fn q c, .free fn q c, .map fn q c, .unmap fn q c, .copy fn q c, .getFaults fn q c, .resolve fn q c, .loadImage fn q c host, .unloadImage fn q c] →
      (s.queue fn q.toNat).fetched.find? (fun f => !f.started) = none → exec i s = .next s) ∧
    (s.starts fn q.toNat 0x20 c o → sqStray c [maskAll, msk 0 8] = false → c.w1 ≠ 0 → wf c.w2 0 8 < 20 ∨ wf c.w2 0 8 = 0xFF →
      (¬mine → exec (.alloc fn q c) s = fails 0x15) ∧
      (mine → s.findFrames (wf c.w2 0 8) c.w1.toNat 1 = none → exec (.alloc fn q c) s = fails 0x12) ∧
      ∀ fs, mine → s.findFrames (wf c.w2 0 8) c.w1.toNat 1 = some fs →
        exec (.alloc fn q c) s = done (s.setFrames fs (.ctx x)) (frameAddr (wf c.w2 0 8) (fs.headD 0))) ∧
    (s.starts fn q.toNat 0x21 c o → sqStray c [maskAll, maskAll] = false → wf c.w1 0 12 = 0 → c.w2 ≠ 0 →
      let fs := framesOf c.w1.toNat (4096 * c.w2.toNat)
      (¬mine ∨ fs.length < c.w2.toNat ∨ (∃ f ∈ fs, s.frame f ≠ .ctx x ∧ s.frame f ≠ .table x) → exec (.free fn q c) s = fails 0x15) ∧
      (mine → c.w2.toNat ≤ fs.length → (∀ f ∈ fs, s.frame f = .ctx x ∨ s.frame f = .table x) →
        ((∃ f ∈ fs, s.frame f = .table x ∨ s.frameMapped x f = true) → exec (.free fn q c) s = fails 0x14) ∧
        ((∀ f ∈ fs, s.frame f = .ctx x ∧ s.frameMapped x f = false ∧ s.frameRing x f = false) → ∃ u, exec (.free fn q c) s = done u 0 ∧
          (∀ f ∈ fs, u.frame f = .free ∧ ∀ i, i < 4096 → u.byte (frameKey f + i) = 0) ∧ (∀ f, f ∉ fs → u.frame f = s.frame f) ∧ u.tiles = s.tiles))) ∧
    -- one page mapped where its tables stand
    (s.starts fn q.toNat 0x22 c o → mine → sqStray c [maskAll, maskAll, msk 0 5 + msk 8 9, maskAll] = false → wf c.w3 0 2 = 2 → wf c.w3 3 2 = 0 → bit c.w3.toNat 16 = false →
      c.w1.toNat % 4096 = 0 → c.w2.toNat = 4096 → c.w4.toNat % 4096 = 0 → c.w1.toNat + 4096 ≤ 2 ^ 56 →
      (C.hostTables = true → exec (.map fn q c) s = fails 0x13) ∧
      (C.hostTables = false → (∃ m ∈ C.maps, m.1 < c.w1.toNat + 4096 ∧ c.w1.toNat < m.1 + m.2.1) → exec (.map fn q c) s = fails 0x14) ∧
      ∀ t, C.hostTables = false → (∀ m ∈ C.maps, ¬(m.1 < c.w1.toNat + 4096 ∧ c.w1.toNat < m.1 + m.2.1)) → s.tableFor x c.w1.toNat 0 = some (t, s) →
        exec (.map fn q c) s = done ((s.store (hbmAddrKey (t + 8 * fld c.w1.toNat 12 9)) (toBytes (leafWord c.w4.toNat 1 (bit c.w3.toNat 2) false) 8)).setCtx x
          { C with maps := C.maps ++ [(c.w1.toNat, 4096, 1, c.w4.toNat)] }) 0) ∧
    (s.starts fn q.toNat 0x23 c o → mine → sqStray c [maskAll, maskAll, msk 0 1] = false → wf c.w1 0 12 = 0 → wf c.w2 0 12 = 0 → c.w2 ≠ 0 →
      let inside := fun (m : Nat × Nat × Nat × Nat) => c.w1.toNat ≤ m.1 ∧ m.1 + m.2.1 ≤ c.w1.toNat + c.w2.toNat
      let meets := fun (m : Nat × Nat × Nat × Nat) => m.1 < c.w1.toNat + c.w2.toNat ∧ c.w1.toNat < m.1 + m.2.1
      ((∃ m ∈ C.maps, meets m ∧ ¬inside m) → exec (.unmap fn q c) s = fails 0x11) ∧
      ((∀ m ∈ C.maps, meets m → inside m) → C.hostTables = true → exec (.unmap fn q c) s = fails 0x13) ∧
      ((∀ m ∈ C.maps, ¬meets m ∧ ¬inside m) → C.hostTables = false → ∃ u, exec (.unmap fn q c) s = .next u ∧ (u.ctx x).maps = C.maps ∧ u.out = s.out ∧
        (∀ t, ∀ e ∈ (u.tile t).tlb, e.within [x] false c.w1.toNat c.w2.toNat = false) ∧
        ∃ i, u.mmu.invs = s.mmu.invs ++ [i] ∧ i.by_ = .cmd fn q.toNat o.no [] ∧ i.ctxs = [x])) ∧
    -- a copy from the host asks for its first page
    (s.starts fn q.toNat 0x24 c o → sqStray c [maskAll, maskAll, msk 0 2, maskAll] = false → c.w4 ≠ 0 → c.w4.toNat ≤ 2 ^ 40 →
      let h := s.newHandle
      (¬mine → bit c.w3.toNat 1 = false → exec (.copy fn q c) s = fails 0x15) ∧
      (mine → bit c.w3.toNat 1 = true → (s.mmuCtx x).sva = false → exec (.copy fn q c) s = fails 0x13) ∧
      ∀ place, (s.queue fn q.toNat).inDevice = false → mine → bit c.w3.toNat 1 = false → bit c.w3.toNat 0 = false → s.ctxPlace x c.w2.toNat true = .ok place →
        ∃ u r, exec (.copy fn q c) s = .next u ∧ (u.job h).live = true ∧ (u.job h).kind = .copy ∧ (u.job h).ctx = x ∧ (u.job h).state = .running ∧
          (u.job h).copyRead = true ∧ (u.job h).copyDone = 0 ∧ (u.port (portOfFn fn)).reads = (s.port (portOfFn fn)).reads ++ [r] ∧ r.job = h ∧ r.pkt = none ∧
          r.addr = c.w1.toNat ∧ r.n = min (min (4096 - c.w1.toNat % 4096) (4096 - c.w2.toNat % 4096)) c.w4.toNat) ∧
    -- what it asked for arrives, and ends it
    (∀ (p : HostIx) (tag : BitVec 14) (data : List (BitVec 8)) r a,
      (s.port p).reads.find? (fun r => r.tag == tag.toNat) = some r → r.pkt = none →
      let J := s.job r.job
      J.live = true → J.kind = .copy → J.copyRead = true → J.copyOut = false → J.state = .running → J.copyBad = false → data.length = r.n → J.copyDone + r.n = J.copyLen → J.area.frames = [] → J.owed = [] →
      s.ctxPlace J.ctx (J.copyDev + J.copyDone) true = .ok (0, a) →
        ∃ u, exec (.hostCompletionReceived p tag true false data) s = .next u ∧ u.bytes (hbmAddrKey a) r.n = data ∧
          ((u.job r.job).state = .done ∨ (u.job r.job).live = false) ∧ ∀ k, k < hbmAddrKey a ∨ hbmAddrKey a + r.n ≤ k → u.byte k = s.byte k) ∧
    (s.starts fn q.toNat 0x25 c o → sqStray c [maskAll, msk 0 16] = false → wf c.w1 0 12 = 0 →
      let m := s.mmuCtx x
      let k := min (wf c.w2 0 16) ((m.tail + 2 ^ m.log2 - m.head) % 2 ^ m.log2)
      (¬mine → exec (.getFaults fn q c) s = fails 0x15) ∧
      (mine → k ≠ 0 → exec (.getFaults fn q c) s = done ((s.emit (.hostWrite (portOfFn fn) c.w1.toNat ((upto m.head k).flatMap fun i => s.fqRecord x (i % 2 ^ m.log2)) false)).setFqHead x (m.head + k)) k)) ∧
    (s.starts fn q.toNat 0x26 c o → sqStray c [maskAll, msk 0 2] = false → wf c.w2 0 2 = 1 ∨ wf c.w2 0 2 = 2 →
      let open_ := ∃ f ∈ s.mmu.faults, f.id = c.w1.toNat ∧ f.ctx = x
      let was := s.mmu.resolvedIds.contains c.w1.toNat = true ∧ (s.job (c.w1.toNat / 2 ^ 32)).ctx = x
      (¬mine ∨ (¬open_ ∧ ¬was) → exec (.resolve fn q c) s = fails 0x15) ∧ (mine → was → exec (.resolve fn q c) s = fails 0x14) ∧
      (mine → open_ → ¬was → exec (.resolve fn q c) s = done (s.resolve c.w1.toNat (wf c.w2 0 2 == 1)).2 0)) ∧
    (s.starts fn q.toNat 0x28 c o → sqStray c [maskAll] = false →
      (¬mine → exec (.loadImage fn q c host) s = fails 0x15) ∧
      (mine → (∀ e, s.parseImage x c.w1.toNat host = .error e → s.freeImage x ≠ none → e ∈ [0x10, 0x11, 0x20, 0x21] → exec (.loadImage fn q c host) s = fails e) ∧
        ∀ im i, s.parseImage x c.w1.toNat host = .ok im →
          (s.freeImage x = none → exec (.loadImage fn q c host) s = fails 0x12) ∧
          (s.freeImage x = some i → exec (.loadImage fn q c host) s = done (s.setCtx x { C with images := tput C.images i im }) i))) ∧
    (s.starts fn q.toNat 0x29 c o → sqStray c [msk 0 8] = false →
      let i := wf c.w1 0 8
      let used := ∃ e ∈ s.host.jobs, e.2.live = true ∧ e.2.kind = .compute ∧ e.2.ctx = x ∧ e.2.image = i ∧ e.2.state = .queued
      (¬mine ∨ (tget C.images i).live = false → exec (.unloadImage fn q c) s = fails 0x15) ∧
      (mine → (tget C.images i).live = true → (used → exec (.unloadImage fn q c) s = fails 0x14) ∧
        (¬used → exec (.unloadImage fn q c) s = done (s.setCtx x { C with images := tput C.images i {} }) 0)))

/-- R493-R499: SUBMIT makes a queued job; SUSPEND, RESUME and CANCEL meet a job's state as R498's table says, from a queue or through the
JOB block; QUERY reports it. Conventions of the model: logs 35, 39. -/
def Obligations.JobCommands : Prop :=
  ∀ (s : State) (fn : FnIx) (q : BitVec 16) (c : SqEntry) (o : Owed),
    let calm := ∀ e ∈ s.host.funcs, e.2.resetting = false
    let x := c.ctx.toNat
    let j := wf c.w1 0 32
    let J := s.job j
    let K := s.paddock J.paddock
    let F := s.func fn
    let S := s.job F.jobSel
    let fails := fun (n : Nat) => Host.Outcome.next (φ := Fault) (ρ := Refusal) (s.finish o n 0 0 0)
    let done := fun (u : State) => Host.Outcome.next (φ := Fault) (ρ := Refusal) (u.finish o 0 0 0 j)
    let gone := fun (u : State) (j : Nat) => (u.job j).state = .cancelled ∨ (u.job j).live = false
    let ctl := fun (n : Nat) => s.setFunc fn { F with ctlStat := n }
    (∀ i, i ∈ [Instr.submit fn q c, .suspend fn q c, .resume fn q c, .cancel fn q c, .query fn q c] →
      (s.queue fn q.toNat).fetched.find? (fun f => !f.started) = none → exec i s = .next s) ∧
    (s.starts fn q.toNat 0x30 c o → sqStray c [msk 0 25, maskAll, maskAll] = false → bit c.w1.toNat 24 = false → c.w2.toNat < 2 ^ 17 → c.w2.toNat % 4 = 0 →
      let p := wf c.w1 0 16
      let img := tget (s.ctx x).images (wf c.w1 16 8)
      let h := s.newHandle
      let active := (s.host.jobs.filter fun e => e.2.live && e.2.fn == fn.val && !e.2.terminal).length
      (s.padMine fn x p = false ∨ img.live = false → exec (.submit fn q c) s = fails 0x15) ∧
      (s.padMine fn x p = true → img.live = true → (s.paddock p).releasing = false → (s.paddock p).slice = 0 →
        ((s.members p).length < img.minMembers ∨ 4096 ≤ active → exec (.submit fn q c) s = fails 0x12) ∧
        (img.minMembers ≤ (s.members p).length → active < 4096 → ∃ u, exec (.submit fn q c) s = .next u ∧
          u.job h = { live := true, kind := .compute, fn := fn, ctx := x, paddock := p, image := wf c.w1 16 8, img := img, entry := c.w2.toNat, arg := c.w3.toNat, state := .queued
                      owed := [o], order := s.host.orderNo } ∧
          (u.paddock p).jobs = (s.paddock p).jobs ++ [h] ∧ u.tiles = s.tiles))) ∧
    -- requests of a queue
    (∀ i kind, (i = Instr.suspend fn q c ∧ kind = 1 ∧ s.starts fn q.toNat 0x31 c o ∧ sqStray c [msk 0 32] = false) ∨
        (i = Instr.resume fn q c ∧ kind = 2 ∧ s.starts fn q.toNat 0x32 c o ∧ sqStray c [msk 0 32, 0] = false) ∨
        (i = Instr.cancel fn q c ∧ kind = 3 ∧ s.starts fn q.toNat 0x33 c o ∧ sqStray c [msk 0 32, 0] = false) →
      (s.jobMine fn j = false → exec i s = fails 0x15) ∧
      (calm → s.jobMine fn j = true → J.kind = .compute →
        (J.state = .queued → (kind = 1 → exec i s = done (s.setJob j { J with holdHost := true })) ∧ (kind = 2 → exec i s = done (s.setJob j { J with holdHost := false })) ∧
          (kind = 3 → ∃ u, exec i s = .next u ∧ gone u j ∧ j ∉ (u.paddock J.paddock).jobs)) ∧
        (J.state = .running → J.descheduled = false → K.preempt = false → K.resident = some j →
          (kind = 1 → ∃ u, exec i s = .next u ∧ (u.job j).state = .suspending ∧ (u.job j).holdHost = true ∧ (u.job j).owed = J.owed ++ [{ o with kind := 1 }] ∧
            (u.paddock J.paddock).preempt = true ∧ (u.paddock J.paddock).frozen = false) ∧
          (kind = 2 → exec i s = done (s.setJob j { J with holdHost := false })) ∧
          (kind = 3 → ∃ u, exec i s = .next u ∧ (u.job j).state = .cancelling ∧ (u.job j).owed = J.owed ++ [{ o with kind := 3 }] ∧ (u.paddock J.paddock).preempt = true)) ∧
        (J.state = .suspended → J.saved = false → K.resident = some j → J.holdGeo = false → J.holdDev = false →
          (kind = 2 → ∃ u, exec i s = .next u ∧ (u.job j).state = .resuming ∧ (u.job j).holdHost = false ∧ (u.paddock J.paddock).restoring = true) ∧
          (kind = 3 → K.frozen = true → K.regions ≠ [] → K.releasing = false → ∃ u, exec i s = .next u ∧ ((u.job j).state = .cancelling ∨ gone u j))) ∧
        (J.state = .suspended → kind = 2 → J.holdGeo = true → exec i s = fails 0x14) ∧
        (J.state = .cancelling → kind ≠ 3 → exec i s = fails 0x14) ∧
        (J.state = .done ∨ J.state = .failed ∨ J.state = .cancelled → (kind = 3 → exec i s = done s) ∧ (kind ≠ 3 → exec i s = fails 0x14)))) ∧
    (s.starts fn q.toNat 0x34 c o → sqStray c [msk 0 32] = false →
      (s.jobMine fn j = false → exec (.query fn q c) s = fails 0x15) ∧
      (s.jobMine fn j = true → J.runFrom = none → exec (.query fn q c) s = .next (s.finish o 0
        (jobCode J.state + atBit J.holds 4 4 + atBit (b01 J.saved) 8 1 + atBit (b01 (J.kind == .maintenance)) 9 1 + atBit J.status 16 8 + atBit J.paddock 32 16) (J.runNs / 1000) j))) ∧
    -- requests through the JOB block
    (F.resetting = true → ∀ b, exec (.jobCtlSuspend fn b) s = .next s ∧ exec (.jobCtlResume fn) s = .next s ∧ exec (.jobCtlCancel fn) s = .next s) ∧
    (F.resetting = false →
      (s.jobMine fn F.jobSel = false → (∀ b, exec (.jobCtlSuspend fn b) s = .next (ctl 0x15)) ∧ exec (.jobCtlResume fn) s = .next (ctl 0x15) ∧ exec (.jobCtlCancel fn) s = .next (ctl 0x15)) ∧
      (calm → s.jobMine fn F.jobSel = true → S.kind = .compute →
        (S.state = .done ∨ S.state = .failed ∨ S.state = .cancelled → (∀ b, exec (.jobCtlSuspend fn b) s = .next (ctl 0x14)) ∧ exec (.jobCtlResume fn) s = .next (ctl 0x14) ∧
          exec (.jobCtlCancel fn) s = .next (ctl 0)) ∧
        (S.state = .queued → exec (.jobCtlSuspend fn false) s = .next ((ctl 0).setJob F.jobSel { S with holdHost := true }) ∧
          exec (.jobCtlResume fn) s = .next ((ctl 0).setJob F.jobSel { S with holdHost := false }) ∧ ∃ u, exec (.jobCtlCancel fn) s = .next u ∧ gone u F.jobSel ∧ (u.func fn).ctlStat = 0) ∧
        (S.state = .running → S.descheduled = false → (s.paddock S.paddock).preempt = false → (s.paddock S.paddock).resident = some F.jobSel →
          (∃ u, exec (.jobCtlSuspend fn false) s = .next u ∧ (u.job F.jobSel).state = .suspending ∧ (u.job F.jobSel).holdHost = true ∧ (u.func fn).ctlStat = 1 ∧ (u.paddock S.paddock).preempt = true) ∧
          ∃ u, exec (.jobCtlCancel fn) s = .next u ∧ (u.job F.jobSel).state = .cancelling ∧ (u.func fn).ctlStat = 1)))

/-- R512, R515-R524, R526-R528, R530, R531, R534-R537, R546, R547, R717: a port trains, carries traffic, replays, swaps and loses lanes,
fails and is reset; the floor is flooded and kept; control messages stop here, go on or are refused; port registers and cables.
Conventions of the model: logs 54, 55, 72. -/
def Obligations.LinksTrainCarryAndFail : Prop :=
  ∀ (s : State) (n : LampIx),
    let L := s.lamp n
    let may := s.start.stopped = false ∧ L.enable = true ∧ s.lampLicensed n = true ∧ L.authFails < 3
    let to_ := fun (f : Lamp → Lamp) => Host.Outcome.next (φ := Fault) (ρ := Refusal) (s.modLamp n f)
    let ev := fun (code : Nat) (d : List Nat) => ({ code := code, unit := n, detail := [L.peer.1, L.peer.2] ++ d } : EventRec)
    let failed := fun (u : State) (cause : Nat) => (u.lamp n).state = .down ∧ (u.lamp n).unacked = [] ∧ (u.lamp n).encrypted = false ∧ bit (u.lamp n).perr 2 = true ∧
      (∃ e, s.events ++ [e] <+: u.events ∧ e.code = 0x7004 ∧ e.detail.getLast? = some cause) ∧ ∀ m, m < 18 → m ≠ n → (u.lamp m).state = (s.lamp m).state
    let fmgr := s.fabric.fmgrOn = true
    let here := s.fabric.moduleId ≠ 0xFFF
    -- training
    (∀ sig, (L.state = .down → sig = true → may → L.waitRetry = false → exec (.signalDetectPoll n sig) s = to_ fun L => { L with state := .training, step := 1 }) ∧
      ((L.state ≠ .down ∨ sig = false ∨ ¬may ∨ L.waitRetry = true) → exec (.signalDetectPoll n sig) s = .next s)) ∧
    (∀ (lanes : List (Fin 9)) saved (v pv : BitVec 16) enc, L.state = .training ∨ L.state = .authenticating →
      let go := fun ok => exec (.trainingStepDone n ok lanes saved v pv enc) s
      (L.step < 5 → ∃ u, go false = .next u ∧ failed u L.step ∧ (u.lamp n).waitRetry = true) ∧
      (L.step = 1 → go true = to_ fun L => { L with step := 2 }) ∧
      (L.step = 2 → lanes.length ≤ 5 → go true = to_ fun L => { L with step := 3, rxFailed := (lanes.map (·.val)).foldl setIns [], rxBypass := ((lanes.map (·.val)).head?).getD 0xF }) ∧
      (L.step = 2 → 5 < lanes.length → ∃ u, go true = .next u ∧ failed u 2 ∧ (u.lamp n).waitRetry = true) ∧
      (L.step = 3 → ∃ u, go true = .next u ∧ (u.lamp n).step = 4 ∧ ((u.lamp n).savedUsed = true ↔ saved = true ∧ L.fromPreset = false ∧ L.saved ≠ none ∧ L.saved = L.hello)) ∧
      (L.step = 4 → ∀ k, (lampVersion L.offer L.offerPrev v.toNat pv.toNat = some k → go true = to_ fun L => { L with step := 5, state := .authenticating, ver := k })) ∧
      (L.step = 4 → lampVersion L.offer L.offerPrev v.toNat pv.toNat = none → ∃ u, go true = .next u ∧ (u.lamp n).state = .down ∧ bit (u.lamp n).perr 5 = true ∧ s.events ++ [ev 0x7006 []] <+: u.events) ∧
      (L.step = 5 → s.ident.attest = true → L.encrypt = enc → ∃ u, go true = .next u ∧ u.lamp n = { L with step := 6 } ∧ u.ident.sessions.any (fun x => x.place == 261 + n) = true) ∧
      (L.step = 5 → s.ident.attest = true → ∃ u, go false = .next u ∧ (u.lamp n).state = .down ∧ (u.lamp n).authFails = L.authFails + 1 ∧ (u.lamp n).waitRetry = true ∧ bit (u.lamp n).perr 3 = true ∧
        { code := 0xB001, unit := n, detail := [n.val] } ∈ u.events ∧ (2 ≤ L.authFails → ∃ e ∈ u.events, e.code = 0x7005 ∧ e.unit = n)) ∧
      (L.step = 6 → L.peer ≠ (0xFFF, 0xFF) → fmgr = false → go true = to_ fun L => { L with
        state := if L.rxFailed.length ≥ 2 ∨ L.txFailed.length ≥ 2 then .degraded else .up
        step := 0, authFails := 0, saved := L.hello, encrypted := L.encrypt, txKey := 0, rxKey := 0, txFrames := 0 })) ∧
    (∀ (m : BitVec 12) (port : BitVec 8), L.state = .authenticating → L.step = 6 →
      let p := (m.toNat, port.toNat)
      ((L.saved = none ∨ L.saved = some p) → exec (.hello n m port) s = to_ fun L => { L with hello := some p, peer := p }) ∧
      (L.saved ≠ none → L.saved ≠ some p → L.savedUsed = true → ∃ u, exec (.hello n m port) s = .next u ∧ (u.lamp n).state = .training ∧ (u.lamp n).step = 1 ∧ (u.lamp n).saved = none)) ∧
    (L.waitRetry = true → L.state = .down → may → ∃ u, exec (.trainingRetry n) s = .next u ∧ u.lamp n = { L with waitRetry := false, state := .training, step := 1 }) ∧
    (L.waitRetry = false → exec (.trainingRetry n) s = .next s) ∧
    (∀ b, L.state = .up → L.lowPwr = true → (b = true → 0x204 ≤ L.ver → exec (.lowPowerEntry n b) s = to_ fun L => { L with state := .lowPower }) ∧
      (b = false ∨ L.ver < 0x204 → exec (.lowPowerEntry n b) s = to_ id)) ∧
    (L.state = .lowPower → exec (.lowPowerExit n) s = to_ fun L => { L with state := .up }) ∧
    -- codewords and replay
    (L.carries = true →
      (∀ flits b c, L.asked = false → exec (.codewordReceive n none flits b c) s = .next ((s.modLamp n fun L => { L with ue := min (L.ue + 1) (2 ^ 32 - 1), asked := true }).emit (.lamug n 16 [L.rxSeq]))) ∧
      (∀ (c : Fin 17) f, f.typ = 1 ∨ f.typ = 2 → L.gbuf = [] → f.seq = L.rxSeq → exec (.codewordReceive n (some c) [f] false false) s = to_ fun L => { L with
        fec := (L.fec + c) % 2 ^ 64, unacked := L.unacked.filter (fun e => !seqUpTo e.1 f.ack), credits := listMod L.credits f.cvl fun k => min (k + f.credits) (if f.cvl = 2 then 32 else 1024)
        rxSeq := (L.rxSeq + 1) % 4096, asked := false }) ∧
      (∀ (seq : BitVec 12) newMs, let hit := L.unacked.map fun e => if seqUpTo seq.toNat e.1 = true then (e.1, e.2 + 1) else e
        ((newMs = true ∨ L.replaysMs < 64) → (∀ e ∈ hit, e.2 < 8) → ∃ u, exec (.replayReq n seq newMs) s = .next u ∧ (u.lamp n).unacked = hit.filter (fun e => seqUpTo seq.toNat e.1) ∧
          (u.lamp n).replaysMs = (if newMs then 1 else L.replaysMs + 1) ∧ u.out = s.out ++ [.lamug n 19 ((hit.filter fun e => seqUpTo seq.toNat e.1).map (·.1))]) ∧
        ((newMs = false ∧ 64 ≤ L.replaysMs) ∨ (∃ e ∈ hit, 8 ≤ e.2) → ∃ u, exec (.replayReq n seq newMs) s = .next u ∧ (u.lamp n).state = .down ∧ bit (u.lamp n).perr 2 = true)) ∧
      -- lanes
      (∀ lane : Fin 9, (L.txBypass = 0xF → ∃ u, exec (.laneCmd n lane) s = .next u ∧ u.lamp n = { L with txFailed := setIns L.txFailed lane, txBypass := lane } ∧ u.out = s.out ++ [.lamug n 18 [lane.val]]) ∧
        (L.txBypass ≠ 0xF → ∃ u, exec (.laneCmd n lane) s = .next u ∧ (u.lamp n).state = .degraded ∧ bit (u.lamp n).perr 1 = true ∧ ev 0x7003 [] ∈ u.events)) ∧
      (∀ lane : Fin 9, lane.val ∉ L.rxFailed → L.rxFailed.length < 5 → L.asked = false → ∃ u, exec (.laneFailure n lane) s = .next u ∧ (u.lamp n).rxFailed = setIns L.rxFailed lane ∧
        (L.state ≠ .degraded → L.rxBypass = 0xF → L.swapping = none → lane.val ≠ 8 → (u.lamp n).swapping = some lane.val ∧ u.out = s.out ++ [.lamug n 16 [L.rxSeq], .lamug n 17 [lane.val]]) ∧
        (L.state ≠ .degraded → L.rxBypass ≠ 0xF → (u.lamp n).state = .degraded)) ∧
      (∃ u, exec (.linkIdleTimeout n) s = .next u ∧ failed u 3)) ∧
    (∀ l, L.swapping = some l → ∃ u, exec (.swapMarker n) s = .next u ∧ u.lamp n = { L with swapping := none, rxBypass := l, perr := L.perr ||| 1 } ∧ u.events = s.events ++ [ev 0x7002 [l]]) ∧
    -- the floor
    (here → s.fabric.heard.foldl (fun v e => min v e.2.1) s.ownVersion = s.fabric.floor → (∀ m, m < 18 → (s.lamp m).carries = false) →
      exec .floorAdvTimer s = .next (s.modFabric fun F => { F with advSeq := (F.advSeq + 1) % 2 ^ 32 })) ∧
    (∀ (m : BitVec 12) (ver : BitVec 16) (seq : BitVec 32) (fl : BitVec 16), L.carries = true → m.toNat ≠ s.fabric.moduleId → (∀ e ∈ s.fabric.heard, e.1 ≠ m.toNat) →
      ∃ u, exec (.floorAdv n m ver seq fl) s = .next u ∧ u.fabric.heard = s.fabric.heard ++ [(m.toNat, ver.toNat, seq.toNat, s.time)] ∧
        u.fabric.floor = (u.fabric.heard.foldl (fun v e => min v e.2.1) s.ownVersion) ∧ (u.fabric.groupsOk = true → 0x300 ≤ u.fabric.floor ∨ s.fabric.floor = u.fabric.floor) ∧
        ∀ k, k < 18 → k ≠ n.val → (s.lamp k).carries = true → .lamug k 0x102 [m.toNat, ver.toNat, seq.toNat, fl.toNat] ∈ u.out) ∧
    (∀ m : BitVec 12, ∃ u, exec (.floorTableExpiry m) s = .next u ∧ u.fabric.heard = s.fabric.heard.filter (fun e => e.1 != m.toNat) ∧
      u.fabric.floor = u.fabric.heard.foldl (fun v e => min v e.2.1) s.ownVersion) ∧
    (exec .floorHoldExpiry s = .next (s.modFabric fun F => { F with groupsOk := F.groupsOk || decide (0x300 ≤ F.floor) })) ∧
    -- control messages
    (∀ (src dst : BitVec 12) b (es : List (BitVec 128)) (tok : BitVec 64) body,
      (here → dst.toNat = s.fabric.moduleId →
        exec (.linkState n dst body) s = .next (s.emit (.lamug n 0x203 body)) ∧
        (fmgr → s.fabric.fmgr = src.toNat → exec (.group n src dst es) s = .next (s.modFabric fun F => { F with groups := es.foldl (fun tb e => tput tb (fld e.toNat 0 8) (groupEntry e.toNat)) F.groups })) ∧
        (¬fmgr ∨ s.fabric.fmgr ≠ src.toNat → exec (.group n src dst es) s = .next (s.raise (ev 0x700A [src.toNat]))) ∧
        (b = true → exec (.echo n src dst b tok) s = .next (s.emit (.lamug n 0x207 [src.toNat, tok.toNat]))) ∧
        (b = false → ∀ p, s.fabricRoute 18 src.toNat = some p → ∃ u, exec (.echo n src dst b tok) s = .next u ∧ u.out = s.out ++ [.lamug p 0x107 [dst.toNat, src.toNat, 1, tok.toNat]])) ∧
      ((dst.toNat ≠ s.fabric.moduleId ∨ ¬here) →
        (s.fabricRoute n dst.toNat = none → exec (.linkState n dst body) s = .next s ∧ exec (.group n src dst es) s = .next s ∧ exec (.echo n src dst b tok) s = .next s) ∧
        ∀ p, s.fabricRoute n dst.toNat = some p → (∃ u, exec (.linkState n dst body) s = .next u ∧ u.out = s.out ++ [.lamug p 0x103 body] ∧ u.fabric.groups = s.fabric.groups) ∧
          (∃ u, exec (.group n src dst es) s = .next u ∧ u.out = s.out ++ [.lamug p 0x105 ([src.toNat, dst.toNat] ++ es.map (·.toNat))] ∧ u.fabric.groups = s.fabric.groups) ∧
          ∃ u, exec (.echo n src dst b tok) s = .next u ∧ u.out = s.out ++ [.lamug p 0x107 [src.toNat, dst.toNat, b01 b, tok.toNat]])) ∧
    -- keys
    (L.carries = true → L.encrypted = true → exec (.keyUpdate n) s = (to_ fun L => { L with rxKey := L.rxKey + 1 }) ∧
      ∃ u, exec (.rekeyTimer n) s = .next u ∧ (u.lamp n).txKey = L.txKey + 1 ∧ (u.lamp n).txFrames = 0 ∧ u.out = s.out ++ [.lamug n 0x106 [L.txKey + 1]]) ∧
    (L.encrypted = false → exec (.keyUpdate n) s = to_ id ∧ exec (.rekeyTimer n) s = .next s) ∧
    -- registers: writes are PF0's only
    (∀ (pf : HostIx) on (id : BitVec 12) (v : BitVec 16), pf ≠ 0 → exec (.lnkPortReset pf n) s = .next s ∧ exec (.lnkPortEnableWrite pf n on) s = .next s ∧ exec (.lnkEqForget pf n) s = .next s ∧
      exec (.lnkModuleWrite pf id) s = .next s ∧ exec (.lnkRtDataWrite pf v) s = .next s) ∧
    (L.state ≠ .outOfService → s.lampLicensed n = true → ∃ u, exec (.lnkPortReset 0 n) s = .next u ∧ (u.lamp n).state = .training ∧ (u.lamp n).step = 1 ∧ (u.lamp n).saved = L.saved ∧ (u.lamp n).ue = 0 ∧
      (u.lamp n).perr = 0 ∧ (u.lamp n).enable = true) ∧
    (L.state = .outOfService → exec (.lnkPortReset 0 n) s = .next s) ∧
    (L.enable = true → L.state ≠ .outOfService → ∃ u, exec (.lnkPortEnableWrite 0 n false) s = .next u ∧ (u.lamp n).state = .disabled ∧ n.val ∉ u.pins.cabPwr) ∧
    (L.enable = false → L.state = .disabled → ∃ u, exec (.lnkPortEnableWrite 0 n true) s = .next u ∧ u.lamp n = { L with enable := true, state := .down, waitRetry := false }) ∧
    (exec (.lnkEqForget 0 n) s = to_ fun L => { L with saved := none }) ∧
    (∀ pf : HostIx, (exec (.pfecUeRead pf n) s = .next ((s.emit (.regRead (0x20000 + pf) (0x8001C + 0x400 * n) L.ue)).modLamp n fun L => { L with ue := 0 })) ∧
      exec (.preplayRead pf n) s = .next ((s.emit (.regRead (0x20000 + pf) (0x80020 + 0x400 * n) L.replayed)).modLamp n fun L => { L with replayed := 0 })) ∧
    (∀ id : BitVec 12, ((∀ m, m < 18 → (s.lamp m).carries = false) → exec (.lnkModuleWrite 0 id) s = .next (s.modFabric fun F => { F with moduleId := id.toNat })) ∧
      (L.carries = true → exec (.lnkModuleWrite 0 id) s = .next s)) ∧
    (∀ v : BitVec 16, s.fabric.rtTable < 19 → exec (.lnkRtDataWrite 0 v) s = .next (s.modFabric fun F => { F with routes := tput F.routes (4096 * F.rtTable + F.rtDest) (v.toNat / 16 * 16) })) ∧
    -- cables and a port's end
    (∃ u, exec (.cabPresChange n true) s = .next u ∧ (u.pins.cabPwr.contains n.val = true ↔ s.lampLicensed n = true ∧ L.enable = true) ∧ u.fabric = s.fabric) ∧
    (L.carries = true → ∃ u, exec (.cabPresChange n false) s = .next u ∧ failed u 2) ∧
    (s.pins.cabPwr.contains n.val = true → L.carries = true → ∃ u, exec (.cabPwrOvercurrent n) s = .next u ∧ failed u 2 ∧ (u.lamp n).waitRetry = true ∧ u.pins.cabPwr = setDel s.pins.cabPwr n) ∧
    (s.pins.cabPwr.contains n.val = false → exec (.cabPwrOvercurrent n) s = .next s) ∧
    (L.state ≠ .outOfService → ∃ u, exec (.portBlockFailure n) s = .next u ∧ (u.lamp n).state = .outOfService ∧ s.events ++ [ev 0x7009 []] <+: u.events)

/-- R528, R532, R533, R535, R538, R539, R541-R545, R549: fabric packets stop here, go on or are counted out; endpoints are opened and
closed, poll their rings, take descriptors, serve requests and complete them; group writes and fabric hurdles. Conventions of the model:
logs 54, 56, 57. -/
def Obligations.EndpointsGroupsAndHurdles : Prop :=
  ∀ (s : State) (n : LampIx) (p : FPacket) (e : Fin 1024) (host : HostMem),
    let me := s.fabric.moduleId
    let E := s.endpoint e
    let D := s.endpoint p.dstEp
    let on := me ≠ 0xFFF ∧ (s.lamp n).carries = true
    let packet := fun (i : Instr) => i ∈ [Instr.fabricWrite n p, .fabricWriteAck n p host, .fabricRead n p host, .fabricReadData n p]
    let sends := fun (u : State) (m : Nat) (q : FPacket) => u.out = s.out ++ [.lamug m q.typ (fabricNumbers q)]
    let completes := fun (d : FDesc) (st moved : Nat) => Host.Outcome.next (φ := Fault) (ρ := Refusal) (s.descDone e d st moved)
    -- a module without an ID, or a port that is not up, takes nothing
    (¬on → (∀ i, packet i → exec i s = .next s) ∧ exec (.fabricGroup n p) s = .next s ∧ exec (.groupAck n p) s = .next s ∧ exec (.fabricHurdle n p) s = .next s) ∧
    -- packets of other modules
    (∀ i, packet i → on → p.dstMod ≠ me →
      (p.hops < 15 → (∀ m, s.fabricRoute n p.dstMod = some m → ∃ u : State, exec i s = .next u ∧ sends u m { p with hops := p.hops + 1 } ∧ u.mem = s.mem ∧ u.fabric.eps = s.fabric.eps) ∧
        (s.fabricRoute n p.dstMod = none → p.typ = 1 ∨ p.typ = 3 → exec i s = .next s) ∧
        (s.fabricRoute n p.dstMod = none → p.typ = 0 ∨ p.typ = 2 → ∀ m, s.fabricRoute 18 p.srcMod = some m → ∃ u : State, exec i s = .next u ∧ sends u m (fabricAnswer p 3))) ∧
      (p.hops = 15 → p.typ = 1 ∨ p.typ = 3 → ∃ u : State, exec i s = .next u ∧ u.out = s.out ∧ bit (u.lamp n).perr 6 = true ∧
        u.events = s.events ++ [{ code := 0x7008, unit := n, detail := [(s.lamp n).peer.1, (s.lamp n).peer.2, p.srcMod, p.dstMod] }])) ∧
    -- requests here
    (on → p.dstMod = me →
      let from_ := D.acceptMod = 0xFFF ∨ D.acceptMod = p.srcMod
      (∀ m, s.fabricRoute 18 p.srcMod = some m →
        ((D.open_ = false ∨ D.closing = true ∨ D.acceptW = false ∨ ¬from_ ∨ D.winBytes < p.offset + 32 * p.data.length) → ∃ u : State, exec (.fabricWrite n p) s = .next u ∧ sends u m (fabricAnswer p 1) ∧ u.mem = s.mem) ∧
        ((D.open_ = false ∨ D.closing = true ∨ D.acceptR = false ∨ ¬from_ ∨ D.winBytes < p.offset + 32 * p.words) → ∃ u : State, exec (.fabricRead n p host) s = .next u ∧ sends u m (fabricAnswer p 1) ∧ u.mem = s.mem) ∧
        (D.open_ = true → D.closing = false → from_ → ∀ a w,
          (D.acceptW = true → p.data = [w] → p.offset + 32 ≤ D.winBytes → s.ctxPlace D.ctx (D.winVa + p.offset) true = .ok (0, a) →
            ∃ u : State, exec (.fabricWrite n p) s = .next u ∧ sends u m (fabricAnswer p 0) ∧ u.bytes (hbmAddrKey a) 32 = toBytes w.toNat 32 ∧
              ∀ k, k < hbmAddrKey a ∨ hbmAddrKey a + 32 ≤ k → u.byte k = s.byte k) ∧
          (D.acceptW = true → p.data = [w] → p.offset + 32 ≤ D.winBytes → (∃ x, s.ctxPlace D.ctx (D.winVa + p.offset) true = .error x) →
            ∃ u : State, exec (.fabricWrite n p) s = .next u ∧ sends u m (fabricAnswer p 2) ∧ u.mem = s.mem) ∧
          (D.acceptR = true → p.words = 1 → p.offset + 32 ≤ D.winBytes → s.ctxPlace D.ctx (D.winVa + p.offset) false = .ok (0, a) →
            ∃ u : State, exec (.fabricRead n p host) s = .next u ∧ u.mem = s.mem ∧
              sends u m { fabricAnswer p 0 with words := 1, data := [wordOf (s.bytes (hbmAddrKey a) 32)], poison := b01 (s.hbmBad (hbmAddrKey a) 32) })))) ∧
    -- answers here: the last of a descriptor completes it
    (on → p.dstMod = me →
      ((∀ d ∈ D.descs, ∀ w ∈ d.wait, w.1 ≠ p.txn) → exec (.fabricWriteAck n p host) s = .next s ∧ exec (.fabricReadData n p) s = .next s) ∧
      ∀ d off, D.descs = [d] → d.wait = [(p.txn, off, 32, false)] → d.bytes ≤ d.sent → d.status = 0 →
        (d.op = 1 → ∃ u : State, exec (.fabricWriteAck n p host) s = .next (u.descDone p.dstEp d (completionStatus p.status) (if p.status = 0 then d.done + 32 else d.done)) ∧
          u.mem = s.mem ∧ u.out = s.out) ∧
        (d.op = 2 → p.status = 0 → ∀ w a, p.data = [w] → p.poison = 0 → s.ctxPlace D.ctx (d.local_ + off) true = .ok (0, a) →
          ∃ u : State, exec (.fabricReadData n p) s = .next (u.descDone p.dstEp d 0 (d.done + 32)) ∧ u.bytes (hbmAddrKey a) 32 = toBytes w.toNat 32 ∧
            ∀ k, k < hbmAddrKey a ∨ hbmAddrKey a + 32 ≤ k → u.byte k = s.byte k)) ∧
    -- completion entries, and requests that time out
    (∀ d st moved, E.open_ = true → E.closing = false → ∀ u, s.ctxWrite E.ctx (portOfFn (s.ctx E.ctx).fn) (pagePieces (E.cqVa + 16 * E.cqTail) 16)
        (toBytes d.user 8 ++ [BitVec.ofNat 8 st] ++ toBytes moved 6 ++ [if E.phase then 0x80 else 0]) = (true, u) → u.fabric = s.fabric → E.descs = [d] →
      completes d st moved = .next (u.modEp e fun X => { X with descs := [], cqTail := (E.cqTail + 1) % 2 ^ E.log2, phase := if (E.cqTail + 1) % 2 ^ E.log2 = 0 then !E.phase else E.phase })) ∧
    (∀ txn : BitVec 16, ((∀ d ∈ E.descs, ∀ w ∈ d.wait, w.1 ≠ txn.toNat) → exec (.fabricRequestTimeout e txn host) s = .next s) ∧
      ∀ d off k, E.descs = [d] → d.bytes ≤ d.sent → d.status = 0 →
        (d.wait = [(txn.toNat, off, k, true)] → ∃ u : State, exec (.fabricRequestTimeout e txn host) s = .next (u.descDone e d 0x24 d.done) ∧ u.out = s.out) ∧
        (d.op = 2 → d.wait = [(txn.toNat, off, k, false)] → ∀ m, s.fabricRoute 18 d.dstMod = some m → ∃ u : State, exec (.fabricRequestTimeout e txn host) s = .next u ∧
          sends u m { typ := 2, srcMod := me, dstMod := d.dstMod, srcEp := e, dstEp := d.target, txn := txn.toNat, offset := (d.offset + off) % 2 ^ 48, words := k / 32 } ∧
          (u.endpoint e).descs = [{ d with wait := [(txn.toNat, off, k, true)] }])) ∧
    -- configuration
    (∀ (pf : HostIx) (g : BitVec 8), pf ≠ 0 → exec (.epOpen pf e) s = .next s ∧ exec (.epClose pf e host) s = .next s ∧ exec (.groupEntryWrite pf g) s = .next s) ∧
    (let w := s.staged
     let result := fun r => Host.Outcome.next (φ := Fault) (ρ := Refusal) (s.epResult e r)
     (epReserved w = true → exec (.epOpen 0 e) s = result 1) ∧
     (epReserved w = false → (s.ctx (fld w 0 8)).live = false → exec (.epOpen 0 e) s = result 2) ∧
     (epReserved w = false → (s.ctx (fld w 0 8)).live = true → E.open_ = true → exec (.epOpen 0 e) s = result 3) ∧
     (epReserved w = false → (s.ctx (fld w 0 8)).live = true → E.open_ = false → ∃ u : State, exec (.epOpen 0 e) s = .next u ∧ u.fabric.epResult = 0 ∧ u.endpoint e =
       { open_ := true, ctx := fld w 0 8, home := fld w 8 8, acceptW := bit w 16, acceptR := bit w 17, log2 := fld w 24 4, acceptMod := fld w 32 12
         winVa := fld w 64 64, winBytes := fld w 128 64, sqVa := fld w 192 64, cqVa := fld w 256 64, tailVa := fld w 320 64 }) ∧
     (E.open_ = false → exec (.epClose 0 e host) s = result 4) ∧
     (E.open_ = true → E.head = E.tail → E.descs = [] → ∃ u : State, exec (.epClose 0 e host) s = .next u ∧ u.endpoint e = {} ∧ u.fabric.epResult = 0 ∧ u.out = s.out) ∧
     (E.open_ = true → E.head = E.tail → E.descs ≠ [] → ∃ u : State, exec (.epClose 0 e host) s = .next u ∧ u.endpoint e = { E with closing := true } ∧ u.fabric.epResult = 0) ∧
     ∀ g : BitVec 8, (fld w 54 74 ≠ 0 → ∃ u : State, exec (.groupEntryWrite 0 g) s = .next u ∧ u.fabric.epResult = 1 ∧ u.fabric.groups = s.fabric.groups) ∧
       (fld w 54 74 = 0 → ∃ u : State, exec (.groupEntryWrite 0 g) s = .next u ∧ u.fabric.epResult = 0 ∧ u.gentry g.toNat = groupEntry (w % 2 ^ 128))) ∧
    -- the rings
    (∀ full, (E.open_ = true → E.closing = false → full = false → (∀ b, s.ctxRead E.ctx host (pagePieces E.tailVa 4) = .ok b →
        exec (.endpointTailPoll e full host) s = .next (s.modEp e fun X => { X with full := false, tail := fld (ofBytes b) 0 12 % 2 ^ X.log2 })) ∧
        ((∃ x, s.ctxRead E.ctx host (pagePieces E.tailVa 4) = .error x) → ∃ u : State, exec (.endpointTailPoll e full host) s = .next u ∧ u.endpoint e = {} ∧
          u.events = s.events ++ [{ code := 0x700C, unit := e, detail := [E.home] }])) ∧
      (full = true → exec (.endpointTailPoll e full host) s = .next (s.modEp e fun X => { X with full := true }))) ∧
    (E.open_ = false ∨ E.closing = true ∨ E.full = true ∨ E.head = E.tail ∨ (∃ d ∈ E.descs, d.fence = true) ∨ (s.lamp E.home).state = .outOfService →
      exec (.descWrite e host) s = .next s ∧ exec (.descRead e host) s = .next s ∧ exec (.groupWrite e host) s = .next s ∧ exec (.descHurdle e host) s = .next s) ∧
    (∀ d, s.nextDesc e host = (some d, s) → (∀ x ∈ E.descs, x.no ≠ d.no) → s.fabricTxns.length < 65535 → Tab.wf s.fabric.eps = true →
      let taken := s.takeDesc e d
      (d.op = 2 → 0 < d.bytes → d.bytes ≤ 2048 → ∀ m, s.fabricRoute 18 d.dstMod = some m → ∃ (u : State) (txn : Nat), exec (.descRead e host) s = .next u ∧ txn ∉ s.fabricTxns ∧
        sends u m { typ := 2, srcMod := me, dstMod := d.dstMod, srcEp := e, dstEp := d.target, txn := txn, offset := d.offset % 2 ^ 48, words := d.bytes / 32 } ∧
        u.endpoint e = { E with head := (E.head + 1) % 2 ^ E.log2, descNo := E.descNo + 1, descs := E.descs ++ [{ d with sent := d.bytes, wait := [(txn, 0, d.bytes, false)] }] }) ∧
      (d.op = 1 → d.bytes = 32 → ∀ m w, s.fabricRoute 18 d.dstMod = some m → s.epReads E.ctx host d.local_ 1 = some ([w], 0) → ∃ (u : State) (txn : Nat), exec (.descWrite e host) s = .next u ∧ txn ∉ s.fabricTxns ∧
        sends u m { typ := 0, srcMod := me, dstMod := d.dstMod, srcEp := e, dstEp := d.target, txn := txn, offset := d.offset % 2 ^ 48, words := 1, data := [w] } ∧
        (u.endpoint e).descs = E.descs ++ [{ d with sent := 32, wait := [(txn, 0, 32, false)] }]) ∧
      (d.op ≠ 2 → exec (.descRead e host) s = .next s) ∧ (d.op ≠ 1 → exec (.descWrite e host) s = .next s) ∧
      (d.op = 3 → s.groupsUsable = false → exec (.groupWrite e host) s = .next (taken.descDone e d 0x28 0)) ∧
      (d.op = 4 → s.groupsUsable = false → exec (.descHurdle e host) s = .next (taken.descDone e d 0x28 0)) ∧
      (d.op = 3 → s.groupsUsable = true → (s.gentry (d.target % 256)).valid = false → exec (.groupWrite e host) s = .next (taken.descDone e d 0x2A 0)) ∧
      (d.op = 4 → s.groupsUsable = true → (s.gentry (d.target % 256)).valid = false → exec (.descHurdle e host) s = .next (taken.descDone e d 0x2A 0)) ∧
      -- a contribution that is not the last only counts; the root's last goes down
      (d.op = 4 → s.groupsUsable = true → (s.gentry (d.target % 256)).valid = true → (tget s.fabric.ghurdles (d.target % 256)).count = 0 →
        let g := d.target % 256
        (1 < (s.gentry g).beneath → exec (.descHurdle e host) s = .next (taken.modFabric fun F => { F with ghurdles := tput F.ghurdles g { count := 1, op := d.hop, value := d.value } })) ∧
        ((s.gentry g).beneath ≤ 1 → (s.gentry g).up = 31 → ∃ u : State, exec (.descHurdle e host) s = .next (u.hurdleDown g d.value) ∧ u.out = s.out)) ∧
      (d.op = 3 → s.groupsUsable = true → d.bytes = 32 → ∀ w, s.epReads E.ctx host d.local_ 1 = some ([w], 0) →
        let G := s.gentry (d.target % 256)
        G.valid = true → G.up < 18 → (s.lamp G.up).carries = true → 0x300 ≤ (s.lamp G.up).ver → ∃ (u : State) (txn : Nat), exec (.groupWrite e host) s = .next u ∧
          sends u G.up { typ := 4, srcMod := me, srcEp := e, dstEp := d.target % 256, txn := txn, offset := d.offset % 2 ^ 48, words := 1, data := [w], hops := 1 } ∧
          (u.endpoint e).descs = E.descs ++ [{ d with sent := 32, wait := [(txn, 0, 32, false)] }])) ∧
    -- groups at a module
    (on → s.groupRoom p = true →
      let G := s.gentry p.dstEp
      (G.valid = false → exec (.fabricGroup n p) s = .next s) ∧
      (G.valid = true → G.up < 18 → G.up ≠ n.val → (s.lamp G.up).carries = true → 0x300 ≤ (s.lamp G.up).ver → p.hops < 15 → ∃ u : State, exec (.fabricGroup n p) s = .next u ∧ sends u G.up { p with hops := p.hops + 1 }) ∧
      (G.valid = true → G.up = n.val → G.down = 0 → G.localEp ≠ 0x3FF → (s.endpoint G.localEp).open_ = false → ∃ u : State, exec (.fabricGroup n p) s = .next u ∧
        sends u n { typ := 5, vl := 1, status := 1, srcMod := me, dstMod := 0xFFF, srcEp := p.srcEp, dstEp := p.dstEp, txn := p.txn, offset := p.srcMod + 4096 })) ∧
    (on → s.groupRoom p = false → exec (.fabricGroup n p) s = .next s) ∧
    (on → p.dstMod = 0xFFF → (s.gentry p.dstEp).up < 18 → (s.lamp (s.gentry p.dstEp).up).carries = true →
      ∃ u : State, exec (.groupAck n p) s = .next u ∧ sends u (s.gentry p.dstEp).up { typ := 5, vl := 1, status := p.status, srcMod := me, dstMod := 0xFFF, srcEp := p.srcEp, dstEp := p.dstEp, txn := p.txn, offset := p.offset }) ∧
    (on → p.dstMod = me → ∀ d off, D.descs = [d] → d.wait = [(p.txn, off, d.bytes, false)] → d.status = 0 → d.sent = d.bytes →
      ∃ u : State, exec (.groupAck n p) s = .next (u.descDone p.dstEp d (completionStatus p.status) p.offset) ∧ u.out = s.out) ∧
    (p ∉ (s.lamp n).gbuf → exec (.groupBranchPrune n p) s = .next s) ∧
    (p ∈ (s.lamp n).gbuf → (s.gentry p.dstEp).up ≠ 31 → (s.lamp (s.gentry p.dstEp).up).carries = false → (tget s.fabric.ghurdles p.dstEp).count = 0 → (s.endpoint (s.gentry p.dstEp).localEp).descs = [] → (tget s.fabric.ghurdles p.dstEp).passedUp = false →
      ∃ u : State, exec (.groupBranchPrune n p) s = .next u ∧ (u.lamp n).gbuf = (s.lamp n).gbuf.erase p ∧ u.out = s.out) ∧
    -- hurdles at a module
    (on → p.dstEp < 256 → (s.gentry p.dstEp).valid = true → p.status = 0 →
      let w := (p.data.headD 0).toNat
      let H := tget s.fabric.ghurdles p.dstEp
      (H.count ≠ 0 → H.broken = false → H.op = fld w 64 3 → H.count + fld w 96 32 < (s.gentry p.dstEp).beneath → exec (.fabricHurdle n p) s = .next (s.modFabric fun F => { F with
        ghurdles := tput F.ghurdles p.dstEp { H with count := H.count + fld w 96 32, value := hurdleOp H.op H.value (fld w 0 64) } })) ∧
      (H.count ≠ 0 → H.op ≠ fld w 64 3 → ∃ u : State, exec (.fabricHurdle n p) s = .next u ∧ tget u.fabric.ghurdles p.dstEp = {} ∧ ∃ x ∈ u.events, x.code = 0x700D) ∧
      (H.count = 0 → (s.gentry p.dstEp).beneath ≤ fld w 96 32 → (s.gentry p.dstEp).up < 18 → (s.lamp (s.gentry p.dstEp).up).carries = true →
        ∃ u : State, exec (.fabricHurdle n p) s = .next u ∧ (tget u.fabric.ghurdles p.dstEp).passedUp = true ∧
          sends u (s.gentry p.dstEp).up { typ := 6, srcMod := me, dstEp := p.dstEp, words := 1, data := [hurdleWord (fld w 64 3) (fld w 0 64) (fld w 96 32)] })) ∧
    (me ≠ 0xFFF → p.dstEp < 256 → (s.gentry p.dstEp).valid = true →
      ((s.gentry p.dstEp).up ≠ n.val → exec (.hurdleDone n p) s = .next s) ∧
      ((s.gentry p.dstEp).up = n.val → p.status = 0 → exec (.hurdleDone n p) s = .next (s.hurdleDown p.dstEp (fld (p.data.headD 0).toNat 0 64))) ∧
      ((s.gentry p.dstEp).up = n.val → p.status ≠ 0 → exec (.hurdleDone n p) s = .next (s.breakGroup p.dstEp)))

/-- R552, R554, R556-R560, R565, R570, R574, R575, R585, R587, R607, R705: feeds and their sense contacts, regulators and bricks, power
states and wakes, ageing, the grant's enforcement and refits. Conventions of the model: logs 44, 45, 46. -/
def Obligations.PowerReachesTheRegions : Prop :=
  ∀ (s : State) (r : RegionIx) (b : BrickIx) (side : Bool),
    let P := s.power
    let R := s.region r
    let B := brickOfRegion r
    let power := fun (f : Power → Power) => s.modPower f
    let region := fun (f : Region → Region) => Host.Outcome.next (φ := Fault) (ρ := Refusal) (s.modRegion r f)
    let raised := fun (u : State) (code unit : Nat) (d : List Nat) => Host.Outcome.next (φ := Fault) (ρ := Refusal) (u.raise { code := code, unit := unit, detail := d })
    let lostSide := getSide P.feeds side = false ∧ getSide P.convs side = false
    -- feeds
    (∀ live, (lostSide → exec (.feedLoss side live) s = .next s) ∧
      (¬lostSide → exec (.feedLoss side live) s = raised (power fun P => { P with feeds := setSide P.feeds side live, convs := setSide P.convs side false }) 0x8001 (b01 side) [b01 side])) ∧
    (¬lostSide → exec (.fsenseOpen side) s = raised (power fun P => { P with fsense := setSide P.fsense side false, feeds := setSide P.feeds side false, convs := setSide P.convs side false }) 0x8001 (b01 side) [b01 side]) ∧
    (lostSide → exec (.fsenseOpen side) s = .next (power fun P => { P with fsense := setSide P.fsense side false })) ∧
    (exec (.fsenseClose side) s = .next (power fun P => { P with fsense := setSide P.fsense side true })) ∧
    (getSide P.fsense side = false ∨ getSide P.convs side = true ∨ P.lost = true → exec (.feedRestore side) s = .next s) ∧
    (getSide P.fsense side = true → getSide P.convs side = false → P.lost = false →
      exec (.feedRestore side) s = raised (power fun P => { P with feeds := setSide P.feeds side true, convs := setSide P.convs side true }) 0x8002 (b01 side) [b01 side]) ∧
    -- regulators and bricks
    (exec (.regulatorInputSwitch (.compute r)) s = .next s) ∧ (exec (.regulatorInputSwitch (.transit r)) s = .next (power fun P => { P with moved := setIns P.moved (144 + r) })) ∧
    (∀ k : Fin 42, exec (.regulatorInputSwitch (.edge k)) s = .next (power fun P => { P with moved := setIns P.moved (288 + k) })) ∧
    (b.val ∈ P.brickLimit ∨ b.val ∈ P.brickFailed → exec (.brickFoldback b) s = .next s) ∧
    (b.val ∉ P.brickLimit → b.val ∉ P.brickFailed → exec (.brickFoldback b) s = raised (power fun P => { P with brickLimit := setIns P.brickLimit b }) 0x8004 b [b.val]) ∧
    (b.val ∉ P.brickFailed → ∃ u, exec (.brickFailure b) s = .next u ∧ u.power.brickFailed = setIns P.brickFailed b ∧ s.events ++ [{ code := 0x8003, unit := b }] <+: u.events ∧ u.org.dead = s.org.dead ∧
      (∃ d ∈ u.org.defects, d.kind = 9 ∧ d.cause = 0x8003 ∧ d.where_ = [b.val]) ∧
      ∀ x ∈ brickRegions b, (144 + x) ∈ u.power.moved ∧ (x ∉ s.org.dead → (u.region x).power = .off ∧ (u.region x).stopped = true ∧ (u.region x).voltMv = 0 ∧
        ∀ t ∈ regionTiles x, t ∈ u.org.unfit ∧ (t, false) ∈ u.org.lost ∧ (u.tile t).chans = [])) ∧
    -- power states
    (exec (.idleEntry r) s = if R.power = .on ∧ R.tripped = false ∧ s.unitsIdle r = true then region fun R => { R with power := .idle } else .next s) ∧
    (R.power = .idle → exec (.idleExit r) s = region fun R => { R with power := .on }) ∧
    (R.power ≠ .idle → exec (.idleExit r) s = region id) ∧
    (R.live = true → s.mayNap r = true → ∃ u, exec (.napTimer r) s = .next u ∧ u = s.setRegion r (u.region r) ∧ (u.region r).power = .nap ∧ (u.region r).stopped = true ∧ (u.region r).voltMv = 450 ∧
      (u.region r).regionLock = false ∧ (u.region r).slot0 = R.slot0 ∧ (u.region r).slot1 = R.slot1) ∧
    (R.live = false ∨ s.mayNap r = false → exec (.napTimer r) s = .next s) ∧
    (R.tripped = false → R.power ≠ .off → s.mayOff r = true → ∃ u, exec (.offTimer r) s = .next u ∧ (u.region r).power = .off ∧ (u.region r).voltMv = 0 ∧ (u.region r).slot0 = {} ∧
      (∀ t ∈ regionTiles r, (u.tile t).chans = [] ∧ (u.tile t).spore.loaded = false) ∧ ∀ x, x ≠ r.val → u.region x = s.region x) ∧
    (s.mayOff r = false → exec (.offTimer r) s = .next s) ∧
    -- wakes
    (let need := if R.power = .off then 100 else 60
     s.foldUp = true → s.powerable r = true → R.waking = false → R.power = .off ∨ R.power = .nap → R.testFirst = false →
      ((s.waitersAt B).head? = some r.val → (R.power = .off → s.wakesAt B .off = 0) → (R.power = .nap → s.wakesAt B .nap < 2) → need ≤ s.headroom B →
        exec (.wakeStart r) s = .next ((s.modRegion r fun R => { R with waking := true, reserve := need, reserveMs := 2, wakeLow := R.wakeLow || s.power.lowest }).modPower
          fun P => { P with wakes := P.wakes.filter (· != r.val) })) ∧
      ((s.waitersAt B).head? ≠ some r.val ∨ s.headroom B < need ∨ (R.power = .off ∧ 1 ≤ s.wakesAt B .off) ∨ (R.power = .nap ∧ 2 ≤ s.wakesAt B .nap) → exec (.wakeStart r) s = .next s)) ∧
    (∀ d, (R.waking = false → exec (.wakeComplete r d) s = .next s) ∧
      (R.waking = true → R.power = .nap → (∀ t ∈ regionTiles r, (s.tile t).net.waiting = []) → R.pendingBank = none → ∃ u, exec (.wakeComplete r d) s = .next u ∧ (u.region r).power = .on ∧
        (u.region r).waking = false ∧ (u.region r).stopped = false ∧ (u.region r).fmult = (if R.wakeLow then 16 else R.fmult) ∧ (u.region r).voltMv = s.voltFor r (if R.wakeLow then 16 else R.fmult) ∧
        (u.region r).reserve = R.reserve ∧ ∀ t ∈ regionTiles r, (u.tile t).core0 = (s.tile t).core0 ∧ (u.tile t).spd = (s.tile t).spd)) ∧
    (R.waking = true → R.power = .off → s.start.phase = 0 → s.start.imageCopies ≠ [] → ∃ u, exec (.wakeComplete r false) s = .next u ∧ (u.region r).waking = false ∧ (u.region r).power = .off ∧ (u.region r).testFirst = true) ∧
    -- ageing
    (s.foldUp = true → ∀ (k : Fin 8) (i : Fin 4),
      let t := tileInRegion r i
      let v := s.ceil t k - 1
      0 < s.ceil t k → 56 ≤ s.ceil t 7 - 1 ∨ k.val ≠ 7 ∧ 56 ≤ s.ceil t 7 → ∃ u, exec (.ageingCheck r k [i]) s = .next u ∧ r.val ∈ u.start.recharWanted ∧ u.org.unfit = s.org.unfit ∧
        (∀ j, j ≤ k.val → u.ceil t j = min (s.ceil t j) v) ∧ (∀ j, k.val < j → j < 8 → u.ceil t j = s.ceil t j) ∧ (R.fmult ≤ u.topFmult r → u.region r = R) ∧
        ∃ e ∈ u.events, e.code = 0x800A ∧ e.node = t ∧ e.detail = [k.val, v]) ∧
    (s.foldUp = false → ∀ k l, exec (.ageingCheck r k l) s = .next s) ∧
    -- the grant
    (∀ e : BitVec 32, let x := R.corr * e.toNat / 1000000
      let A := min (5000 * R.grant) (R.burst + x - R.grant)
      (R.untrusted = true ∨ R.power ≠ .on ∨ R.stopped = true ∨ R.grant = 0 → exec (.grantEnforce r e) s = .next s) ∧
      (R.untrusted = false → R.power = .on → R.stopped = false → R.tripped = false → 0 < R.grant →
        (4 * x ≤ 5 * R.grant → x ≤ R.grant ∨ A < 5000 * R.grant → exec (.grantEnforce r e) s = region fun R => { R with burst := A, pacing := false, pacingMs := 0, pace := 0 }) ∧
        (5 * R.grant < 4 * x ∨ (R.grant < x ∧ A = 5000 * R.grant) → ∃ u, exec (.grantEnforce r e) s = .next u ∧ (u.region r).pacing = true ∧ (u.region r).burst = A ∧ (u.region r).pacingMs = R.pacingMs + 1 ∧
          (u.region r).fmult = R.fmult ∧
          (let k := (u.region r).pace
           let allowed := if A = 5000 * R.grant then 4 * R.grant else 5 * R.grant
           1 ≤ k ∧ k ≤ 4 ∧ (k < 4 → 32 * x ≤ allowed * (8 + k)) ∧ (1 < k → allowed * (7 + k) < 32 * x)) ∧
          ((R.pacingMs + 1) % 100 = 0 → 16 < R.fmult → R.changing = none → (u.region r).pendingFmult = some (R.fmult - 1)) ∧
          ((R.pacingMs + 1) % 100 ≠ 0 → (u.region r).pendingFmult = R.pendingFmult)))) ∧
    (R.untrusted = true → s.foldUp = true → exec (.estimatorRefit r) s = region fun R => { R with refit := true, trustCount := 0 }) ∧
    (R.untrusted = false ∨ s.foldUp = false → exec (.estimatorRefit r) s = region id)

/-- R466, R566-R569, R572, R574-R582, R584-R586, R589, R708: a millisecond's measurements, trust and shares; sensors, trips and heat;
coolant and the Fold cap; the module lowest state and regulator faults. Conventions of the model: logs 45, 46, 47, 48. -/
def Obligations.CapsHeatAndRegulatorFaults : Prop :=
  ∀ (s : State) (r : RegionIx) (m : PowerSample),
    let P := s.power
    let R := s.region r
    let region := fun (f : Region → Region) => Host.Outcome.next (φ := Fault) (ρ := Refusal) (s.modRegion r f)
    let ev := fun (code unit : Nat) (d : List Nat) => ({ code := code, unit := unit, detail := d, region := r } : EventRec)
    let trips := (upto 0 144).filter fun x => (s.region x).tripped
    -- measurements, trust and shares
    (s.foldUp = false → exec (.capAllocation m) s = .next s) ∧
    (s.foldUp = true →
      (∃ u, exec (.capAllocation m) s = .next u ∧ u.power.inputW = m.input / 1000 ∧ u.power.recent = (m.input / 1000 :: P.recent).take 1000 ∧ u.power.foldCw = m.fold / 10 ∧ u.power.feedDv = m.feedDv ∧ u.power.convW = m.convW ∧
        u.power.hostCap = P.hostCap ∧ u.power.foldCap = P.foldCap ∧ u.host = s.host ∧ u.mem = s.mem) ∧
      (m.input ≠ 0 → P.order = [0, 1, 2] → m.regions = [] → (∀ x, x < 144 → (s.region x).live = false) →
        let avail := (1000 * min 12000 (min P.hostCap P.foldCap) - m.fold) * m.outputs / m.input - m.transit
        let want := max m.memory m.memoryFloor
        let links := min m.links (avail - m.memoryFloor)
        let mem := min want (avail - links)
        ∃ u, exec (.capAllocation m) s = .next u ∧ (u.power.linksCut = true ↔ links < m.links) ∧ (want ≤ mem → u.power.memRate = 16) ∧
          (mem < want → u.power.memRate = min 16 (4 + (mem - m.memoryFloor) * 12 / max 1 (m.memory - m.memoryFloor)))) ∧
      (P.lowest = true → m.regions = [] → Tab.wf s.regions = true → ∃ u, exec (.capAllocation m) s = .next u ∧ ∀ x, x < 144 → (u.region x).fmult = (s.region x).fmult ∧ (u.region x).pendingFmult = (s.region x).pendingFmult) ∧
      (∀ x : RegionSample, m.regions = [x] → m.input = 0 → x.region = r → Tab.wf s.regions = true →
        let e := R.corr * x.raw / 1000000
        let off := max e x.measured - min e x.measured
        let warm := max x.predicted ((R.valid.map fun i => R.temps.getD i 0).foldl max 0)
        ∃ u, exec (.capAllocation m) s = .next u ∧ (u.region r).measMw = x.measured ∧
          (0 < x.raw → (u.region r).corr = min 2000000 (max 500000 ((3 * R.corr + x.measured * 1000000 / x.raw) / 4))) ∧
          (R.untrusted = false → R.badCount = 7 → x.measured < 4 * off → (u.region r).untrusted = true ∧ (u.region r).burst = 0 ∧ (u.region r).pacing = false ∧ ev 0x8008 0xFFFF [] ∈ u.events) ∧
          (R.untrusted = false → 4 * off ≤ x.measured → (u.region r).untrusted = false ∧ (u.region r).badCount = 0) ∧
          (R.untrusted = true → R.refit = true → R.trustCount = 63 → 10 * off ≤ x.measured → (u.region r).untrusted = false ∧ ev 0x8009 0xFFFF [] ∈ u.events) ∧
          (95 ≤ warm → (u.region r).limit = max 16 (R.limit - 1)) ∧ (warm < 90 → R.limit < 74 → R.coolMs = 9 → (u.region r).limit = R.limit + 1) ∧ (90 ≤ warm → warm < 95 → (u.region r).limit = R.limit))) ∧
    -- sensors and heat
    (∀ (temps : Vector (BitVec 8) 4), R.excluded = [] → R.away = [] → (∀ i j : Fin 4, temps[i].toNat ≤ temps[j].toNat + 9) →
      ((R.hot = true → 100 ≤ temps[0].toNat) → exec (.sensorSelfCheck r temps []) s = region fun R => { R with temps := temps.toList.map (·.toNat) }) ∧
      (∀ f : Fin 4, ∃ u, exec (.sensorSelfCheck r temps [f]) s = .next u ∧ (u.region r).excluded = [f.val] ∧ ev 0x8206 0xFFFF [f.val] ∈ u.events ∧ u.org.unfit = s.org.unfit) ∧
      (R.railOffLatched = false → r.val ∉ s.org.dead → ∃ u, exec (.sensorSelfCheck r temps [0, 1, 2, 3]) s = .next u ∧ (u.region r).railOffLatched = true ∧ (u.region r).power = .off ∧ r.val ∉ u.org.dead ∧
        ev 0x8207 0xFFFF [] ∈ u.events ∧ ∀ t ∈ regionTiles r, t ∈ u.org.unfit)) ∧
    (R.temp < 105 ∨ R.hot = true → exec (.thermalForcedDrop r) s = .next s) ∧
    (105 ≤ R.temp → R.hot = false → R.live = true → R.changing = none → R.fmult ≠ 16 → ∃ u, exec (.thermalForcedDrop r) s = .next u ∧
      u.region r = { R with hot := true, changing := some 16, pendingFmult := none, slewTo := none, stopped := true, regionLock := false }) ∧
    (∀ k : Fin 4, (k.val ∈ R.excluded ∨ R.tripped = true ∨ r.val ∈ s.org.dead → exec (.thermalTrip r k) s = .next s) ∧
      (k.val ∉ R.excluded → R.tripped = false → r.val ∉ s.org.dead → R.railOffLatched = false → ∃ u, exec (.thermalTrip r k) s = .next u ∧ (u.region r).tripped = true ∧ (u.region r).stopped = true ∧
        (u.region r).power = (if R.power = .off then .off else .nap) ∧ (u.region r).voltMv = (if R.power = .off then 0 else 450) ∧ (u.region r).waking = false ∧ (u.region r).changing = none ∧
        u.events = s.events ++ [ev 0x8202 k [k.val]] ∧ u.tiles = s.tiles ∧ (R.waking = true → r.val ∈ u.power.wakes))) ∧
    (let cool := R.valid ≠ [] ∧ R.temp < (if R.shutHot then 85 else 100)
     (R.tripped = false ∨ ¬cool → exec (.tripRelease r) s = .next s) ∧
     (R.tripped = true → cool → R.trips.length < 2 ∨ s.foldUp = true → ∃ u, exec (.tripRelease r) s = .next u ∧ u.region r = { R with
        tripped := false, shutHot := false, wakeLow := true, limit := if 2 ≤ R.trips.length then max 16 (R.limit - 8) else R.limit } ∧ (R.waking = false → r.val ∈ u.power.wakes) ∧
        u.events = s.events ++ [ev 0x8203 0xFFFF []]) ∧
     (R.tripped = true → 2 ≤ R.trips.length → s.foldUp = false → exec (.tripRelease r) s = .next s)) ∧
    (R.tripped = false ∨ R.shutHot = true ∨ R.temp < 120 → exec (.heatShutdown r) s = .next s) ∧
    (R.tripped = true → R.shutHot = false → 120 ≤ R.temp → s.padsIn r = [] → ∃ u, exec (.heatShutdown r) s = .next u ∧ (u.region r).power = .off ∧ (u.region r).tripped = true ∧ (u.region r).shutHot = true ∧ (u.region r).slot0 = {} ∧
      u.events = s.events ++ [ev 0x8205 0xFFFF []] ∧ (r.val ∈ s.org.clearing → r.val ∈ u.power.wakes) ∧ u.org = s.org) ∧
    (∀ (k : StackIx) (t : BitVec 8), let K := s.stack k
      let c := t.toNat
      ∃ u, exec (.hbmThermalThrottle k t) s = .next u ∧ (u.stack k).temp = c ∧ (u.stack k).throttle = (if 85 < c then max 4 (16 - (c - 85)) else 16) ∧
        ((u.stack k).srForced = true ↔ 100 ≤ c ∨ (K.srForced = true ∧ 95 ≤ c)) ∧ (100 ≤ c → K.working = true → (u.stack k).selfRefresh = true) ∧
        (100 ≤ c → K.srForced = false → { code := 0x8209, unit := k, detail := [c] } ∈ u.events) ∧ (c ≤ 85 → K.srForced = false → u.events = s.events) ∧ u.mem = s.mem) ∧
    (∀ (n : LampIx) (t : BitVec 8), ∃ u, exec (.linkEdgeThermal n t) s = .next u ∧ u = s.modPower (fun _ => u.power) ∧ tget u.power.edgeTemp (24 + n) = t.toNat ∧
      (u.power.hotEdges.contains (24 + n.val) = true ↔ 105 ≤ t.toNat ∨ (95 ≤ t.toNat ∧ P.hotEdges.contains (24 + n.val) = true))) ∧
    -- coolant
    (∀ (i o f : BitVec 16 × BitVec 16), P.inlets.1.isSome = true → P.inlets.2.isSome = true → P.flows.1.isSome = true → P.flows.2.isSome = true → s.foldUp = true →
      let hot := max i.1.toNat i.2.toNat
      let flow := min f.1.toNat f.2.toNat
      let cap := max 3500 (min (12000 - 1000 * ((hot - 400) / 10)) (if flow < 240 then 12000 * flow / 240 else 12000))
      ∃ u, exec (.foldCapUpdate i o f) s = .next u ∧ u.power.foldCap = cap ∧ u.power.inlets = (some i.1.toNat, some i.2.toNat) ∧ u.power.flows = (some f.1.toNat, some f.2.toNat) ∧
        u.events = (if cap = P.foldCap then s.events else s.events ++ [{ code := 0x820A, detail := [cap] }])) ∧
    (∀ v : Option (BitVec 16), s.foldUp = true → ∃ u, exec (.coolantSensorCheck 0 v) s = .next u ∧ u.power.inlets = (v.map (·.toNat), P.inlets.2) ∧ u.power.flows = P.flows ∧
      (v = none → P.inlets.2 = none → u.power.foldCap ≤ 6000)) ∧
    (∀ v : Option (BitVec 16), (∃ u, exec (.coolantSensorCheck 3 v) s = .next u ∧ u.power.outlets = (P.outlets.1, v.map (·.toNat)) ∧ u.power.inlets = P.inlets) ∧
      ∃ u, exec (.coolantSensorCheck 5 v) s = .next u ∧ u.power.flows = (P.flows.1, v.map (·.toNat))) ∧
    -- the module lowest state
    (∀ g, g = none ∨ (∃ x, g = some x ∧ regNo x ∉ P.masked) → (g = none → 2 ≤ trips.length) → ∃ u, exec (.dropLineAssert g) s = .next u ∧ u.power.lowest = true ∧
      u.events = s.events ++ [{ code := if g = none then 0x8204 else 0x8006, unit := (match g with | some x => regNo x | none => 0xFFFF), detail := [] }] ∧
      (∀ x, g = some x → regNo x ∈ u.power.alerts) ∧ u.host = s.host ∧ u.tiles = s.tiles ∧
      (r.val ∉ s.org.dead → R.live = true → (u.region r).forced = true ∧ (R.changing = none → R.fmult ≠ 16 → (u.region r).changing = some 16 ∧ (u.region r).stopped = true) ∧ (∀ f, R.changing = some f → (u.region r).pendingFmult = some 16)) ∧
      (r.val ∉ s.org.dead → R.waking = true → (u.region r).wakeLow = true)) ∧
    (∀ x, regNo x ∈ P.masked → exec (.dropLineAssert (some x)) s = .next s) ∧ (trips.length < 2 → exec (.dropLineAssert none) s = .next s) ∧
    (s.foldUp = false ∨ P.lowest = false ∨ P.alerts ≠ [] ∨ 2 ≤ trips.length → exec .lowestStateRelease s = .next s) ∧
    (s.foldUp = true → P.lowest = true → P.alerts = [] → trips.length < 2 → Tab.wf s.regions = true → ∃ u, exec .lowestStateRelease s = .next u ∧ u.power = { P with lowest := false, ramp := true } ∧ u.region r = { R with forced := false } ∧
      u.events = s.events ++ [{ code := 0x8007, detail := [] }]) ∧
    -- regulators and shorts
    (r.val ∈ s.org.dead → exec (.regionShort r) s = .next s) ∧
    (∀ i, i = Instr.regionShort r ∨ (∃ b c, i = .regulatorFault (.compute r) .short b c) ∨ (∃ f b c, i = .regulatorFault (.transit r) f b c) → r.val ∉ s.org.dead → s.padsIn r = [] →
      ∃ u, exec i s = .next u ∧ u.org.dead = setIns s.org.dead r ∧ (u.region r).power = .off ∧ (u.region r).railOffLatched = true ∧ (u.region r).transitLock = false ∧ (∀ t ∈ regionTiles r, t ∈ u.org.unfit) ∧
        (∀ d ∈ s.org.defects, d ∈ u.org.defects) ∧ (∃ d ∈ u.org.defects, d.kind = 1 ∧ d.where_ = [r.val]) ∧ ((∀ f b c, i ≠ .regulatorFault (.transit r) f b c) → ev 0x8005 0xFFFF [] ∈ u.events)) ∧
    (∀ b c, R.railOffLatched = false → r.val ∉ s.org.dead → ∃ u, exec (.regulatorFault (.compute r) .over_ b c) s = .next u ∧ (u.region r).railOffLatched = true ∧ (u.region r).power = .off ∧ r.val ∉ u.org.dead ∧ ∀ t ∈ regionTiles r, t ∈ u.org.unfit) ∧
    (∀ b, ∃ u, exec (.regulatorFault (.compute r) .input false b) s = .next u ∧ u.regions = s.regions ∧ u.power.alerts = setDel P.alerts r ∧ (b = false → r.val ∉ P.masked → u.power.masked = setIns P.masked r)) ∧
    (∀ b, ∃ u, exec (.regulatorFault (.compute r) .input true b) s = .next u ∧ brickOfRegion r ∈ u.power.brickFailed) ∧
    (∀ side f b c, ∃ u, exec (.regulatorFault (.converter side) f b c) s = .next u ∧ getSide u.power.convs side = false ∧ getSide u.power.feeds side = getSide P.feeds side) ∧
    (∀ (k : Fin 42) f b c, ∃ u, exec (.regulatorFault (.edge k) f b c) s = .next u ∧ (k.val < 20 → (u.stack k).state = .out ∧ (u.stack k).edgeFailed = true) ∧ (20 ≤ k.val → k.val < 24 → (u.port (k - 20)).out = true) ∧
      (24 ≤ k.val → (u.lamp (k - 24)).state = .outOfService))

/-- R27, R464, R553, R595-R597, R599, R600, R604, R607-R610, R613, R615-R618, R669, R692, R704, R709: the bus falls and the Fold supply
rises; a start goes through its phases; waves, gleaning, self-test and its findings; lost tiles are re-bound and their state is moved.
Conventions of the model: logs 49, 50, 51, 52, 53. -/
def Obligations.StartsAndLostTiles : Prop :=
  ∀ (s : State) (r : RegionIx) (t : TileIx) (lics : List (BitVec 8)) (banks : List (Fin 2)) (seals : Fin 3),
    let S := s.start
    let O := s.org
    let start := fun (f : Start → Start) => Host.Outcome.next (φ := Fault) (ρ := Refusal) (s.modStart f)
    let ends := Instr.startPhaseEnd lics banks seals
    let bare := fun (u : State) => u.mem = [] ∧ u.marks = [] ∧ u.host.jobs = [] ∧ u.host.paddocks = [] ∧ u.host.ctxs = [] ∧ u.host.queues = [] ∧ u.mmu = State.reset.mmu ∧ u.ident.sessions = [] ∧
      u.org.defects = O.defects ∧ u.org.unfit = O.unfit ∧ u.org.dead = O.dead ∧ u.org.binds = O.binds ∧ u.time = s.time ∧ u.pending = s.pending ∧
      (Tab.wf s.regions = true → (u.region r).power = .off ∧ (u.region r).railOffLatched = (s.region r).railOffLatched) ∧ (Tab.wf s.tiles = true → (u.tile t).chans = [] ∧ (u.tile t).core0 = {} ∧ (u.tile t).spd.spares = (s.tile t).spd.spares)
    -- the bus falls, and the supply rises again
    (s.power.lost = true ∨ s.power.convs ≠ (false, false) → exec .busUndervoltage s = .next s) ∧
    (s.power.lost = false → s.power.convs = (false, false) → ∃ u, exec .busUndervoltage s = .next u ∧ bare u ∧ u.power.lost = true ∧ u.power.hostCap = s.power.hostCap ∧ u.power.order = s.power.order ∧
      (S.stopped = true → u.start.stopRecord = S.stopRecord ∧ u.fold.seq = s.fold.seq) ∧ (S.stopped = false → u.start.stopRecord = false ∧ (s.foldAlive = true → u.fold.seq = s.fold.seq + 1))) ∧
    (∀ a b intact, (s.power.lost = false ∨ (a = false ∧ b = false) → exec (.moduleReset a b intact) s = .next s) ∧
      (s.power.lost = true → a = true ∨ b = true → ∃ u, exec (.moduleReset a b intact) s = .next u ∧ bare u ∧ u.power.lost = false ∧ u.power.feeds = (a, b) ∧ u.start.phase = 1 ∧ u.start.stopRecord = false ∧ u.fold.starts = s.fold.starts + 1 ∧
        (u.start.cold = false ↔ S.stopRecord = true ∧ intact = true ∧ S.nextCold = false ∧ S.first = false ∧ s.trainingKept ((upto 0 18).filter s.lampLicensed) = true))) ∧
    -- phases
    (s.power.lost = true ∨ (3 ≤ S.phase ∧ s.foldAlive = false) ∨ S.phase ∈ [0, 6, 7, 9, 10] → exec ends s = .next s) ∧
    (s.power.lost = false → S.phase = 1 → exec ends s = start fun x => { x with phase := 2 }) ∧
    (s.power.lost = false → S.phase = 2 → exec ends s = .next { s with start := { S with phase := 3 }, pins := { s.pins with tapDrive := 0 } }) ∧
    (s.power.lost = false → s.foldAlive = true →
      (S.phase = 3 → ∃ u, exec ends s = .next u ∧ u.start.phase = 4 ∧ (u.ident.attest = true ↔ deviceId.2 = some Config.deviceCert) ∧ (seals = 2 → u.start.cold = true) ∧ (seals = 1 → ∃ e ∈ u.events, e.code = 0x9006) ∧
        (s.ident.licences = [] → u.org.variant = if s.ident.fuseF then .f else if s.ident.fuseP then .p else .e) ∧
        ∀ d ∈ O.defects, d.kind ≠ 0x0D → d ∈ u.org.defects) ∧
      (S.phase = 4 → (s.fold.bankA.valid = false ∨ 0 ∈ banks) → (s.fold.bankB.valid = false ∨ 1 ∈ banks) → ∃ u, exec ends s = .next u ∧ u.start.phase = 5 ∧ u.foldAlive = false ∧ u.fold.bankA.valid = false ∧ u.fold.bankB.valid = false) ∧
      (S.phase = 5 → ∃ u, exec ends s = .next u ∧ u.start.phase = 6 ∧ u.net.routed = true ∧ (r.val ∉ O.dead → (u.region r).transitLock = true) ∧
        ∀ n, n < 18 → s.lampLicensed n = true → (s.lamp n).enable = true → (s.lamp n).state = .down → (u.lamp n).state = .training ∧ (u.lamp n).step = 1) ∧
      (S.phase = 8 → ((∃ x ∈ s.startTiles, (s.tile x).spore.state ≠ 4) → exec ends s = .next s) ∧
        ((∀ x ∈ s.startTiles, (s.tile x).spore.state = 4) → ∃ u, exec ends s = .next u ∧ u.start.phase = 9 ∧ S.imageCopies <+: u.start.imageCopies))) ∧
    (S.phase = 6 → S.coolantWait = true → (s.coolantOk = true → exec .startCoolantWait s = start fun x => { x with phase := 7, coolantWait := false }) ∧ (s.coolantOk = false → exec .startCoolantWait s = .next s)) ∧
    (S.phase ≠ 7 ∨ 4 ≤ S.waves ∨ s.power.wakes ≠ [] → exec .waveStart s = .next s) ∧
    (S.phase = 7 → S.waves < 4 → s.power.wakes = [] → (∀ x, x < 144 → (s.region x).reserve = 0 ∧ (s.region x).waking = false) → ∃ u, exec .waveStart s = .next u ∧ u.start.waves = S.waves + 1 ∧
      u.power.wakes = (upto 0 144).filter (fun x => waveOf x == S.waves && s.powerable x && (s.region x).power == .off) ∧ (r.val ∈ u.power.wakes → (u.region r).wakeLow = true)) ∧
    -- spores and copies of the image
    (let p := (s.tile t).spore
     (S.phase ≠ 8 ∨ p.round = true ∨ 3 ≤ p.rounds ∨ (p.state ≠ 1 ∧ p.state ≠ 2) → exec (.gleanRound t) s = .next s) ∧
     (S.phase = 8 → p.round = false → p.rounds < 3 → p.state = 1 ∨ p.state = 2 →
       ((∀ i, i < p.count → i ∈ p.received) → 0 < p.count → ∃ u, exec (.gleanRound t) s = .next u ∧ (u.tile t).spore = { p with state := 2, round := false, rounds := p.rounds + 1 }) ∧
       (∀ n, p.count = 0 → p.received = [] → neighbour t 0 = some n → s.fit n = true → ∃ u, exec (.gleanRound t) s = .next u ∧ (u.tile t).spore.round = true ∧ (u.tile t).spore.count = 768 ∧ (u.tile t).spore.rounds = p.rounds + 1))) ∧
    (∀ bad : List StackIx, ∃ u, exec (.tileImageCopyRebuild bad) s = .next u ∧ (∀ c ∈ S.imageCopies, (s.stack c.1).working = true → (∀ k ∈ bad, k.val ≠ c.1) → c ∈ u.start.imageCopies) ∧
      (∀ c ∈ u.start.imageCopies, c ∉ S.imageCopies → (s.stack c.1).working = true ∧ c.2.length = 378 ∧ ∀ f ∈ c.2, u.frame f = .device)) ∧
    -- self-test
    (s.underTest r = false → ∀ f, exec (.selfTestStep r f) s = .next s) ∧
    (s.underTest r = true → exec (.selfTestStep r []) s = .next s ∧
      (r.val ∉ O.dead → (s.region r).railOffLatched = false → ∃ u, exec (.selfTestStep r [.shared]) s = .next u ∧ (u.region r).railOffLatched = true ∧ r.val ∉ u.org.dead ∧ (∀ x ∈ regionTiles r, x ∈ u.org.unfit) ∧ { code := 0x9003, region := r } ∈ u.events) ∧
      (r.val ∉ O.dead → s.padsIn r = [] → ∃ u, exec (.selfTestStep r [.transit]) s = .next u ∧ u.org.dead = setIns O.dead r) ∧
      ∀ i : Fin 4, let x := tileInRegion r i
        (∀ k : Fin 8, ∀ c, (x ∉ O.unfit → ∃ u, exec (.selfTestStep r [.tileUnit i]) s = .next u ∧ u.org.unfit = setIns O.unfit x ∧ (x, true) ∈ u.org.lost ∧ ∃ e ∈ u.events, e.code = 0x9002 ∧ e.node = x) ∧
          (x ∉ O.unfit → ∃ u, exec (.selfTestStep r [.point i k none]) s = .next u ∧ u.org.unfit = setIns O.unfit x ∧ ∃ e ∈ u.events, e.code = 0x800B ∧ e.node = x) ∧
          (exec (.selfTestStep r [.point i k (some 0)]) s = .next s) ∧
          (c = s.ceil x k → exec (.selfTestStep r [.point i k (some 2)]) s = .next (s.lowerCeil x k (c - 2))))) ∧
    (s.underTest (regionOf t) = false → exec (.selfTestEnd t) s = .next s) ∧
    (s.underTest (regionOf t) = true → S.phase = 0 → (s.region (regionOf t)).testFirst = false → ∃ u, exec (.selfTestEnd t) s = .next u ∧ t.val ∈ u.start.tested ∧ (u.tile t).spore.state = (if (s.tile t).spore.state = 5 then 5 else 0) ∧
      t.val ∈ u.org.toFill ∧ (u.tile t).chans = []) ∧
    (S.phase ≠ 10 ∨ (∃ k, k < 20 ∧ ((s.stack k).testing ≠ none ∨ (s.stack k).testPlan ≠ [])) → exec .startComplete s = .next s) ∧
    (S.phase = 10 → (∀ k, k < 20 → (s.stack k).testing = none ∧ (s.stack k).testPlan = []) → (∀ e ∈ s.host.funcs, e.2.enableHeld = false) →
      exec .startComplete s = .next ((s.raise { code := 0x9001, detail := [b01 S.cold, s.time - S.began] }).modStart fun x => { x with
        phase := 0, first := false, tested := [], nextCold := false, fastCount := if x.cold then x.fastCount else x.fastCount + 1 })) ∧
    -- lost tiles
    (s.foldUp = false ∨ s.lossTurn t = false → exec (.tileLossHandle t) s = .next s) ∧
    (s.foldUp = true → s.lossTurn t = true →
      (s.lidOf t = none → s.org.toBind = [] → ∃ u, exec (.tileLossHandle t) s = .next u ∧ u.org.lost = O.lost.filter (fun e => e.1 != t.val) ∧ u.org.binds = O.binds ∧ ∃ e ∈ u.events, e.code = 0x9002 ∧ e.node = t) ∧
      ∀ l, s.lidOf t = some l → s.org.toBind = [] → s.tag t = 0 →
        (∀ x, s.choose27 l (fun _ => true) = some x → ∃ u, exec (.tileLossHandle t) s = .next u ∧ u.tileOf l = some x ∧ (∀ e ∈ u.org.lost, e.1 ≠ t.val) ∧
          { code := 0x9103, lid := l, node := x, region := regionOf x, detail := [l, t.val, x] } ∈ u.events ∧ (u.tile t).chans = []) ∧
        (s.choose27 l (fun _ => true) = none → ∃ u, exec (.tileLossHandle t) s = .next u ∧ u.tileOf l = none ∧ (∀ e ∈ u.org.lost, e.1 ≠ t.val) ∧
          { code := 0x9102, lid := l, node := t, region := regionOf t, detail := [l, t.val] } ∈ u.events)) ∧
    (O.moving = none → exec .stateMoveCopyDone s = .next s) ∧
    (∀ l old new p, O.moving = some (l, old, new, p) → (old, true) ∈ O.lost → (s.paddock p).resident ≠ none → s.freeTile new = true → s.tileOf l = some old → O.toBind = [] →
      ((s.paddock p).frozen = false → exec .stateMoveCopyDone s = .next s) ∧
      (∀ j, (s.paddock p).frozen = true → (s.paddock p).resident = some j → (s.job j).state = .suspended → ∃ u, exec .stateMoveCopyDone s = .next u ∧ u.org.moving = none ∧ u.tileOf l = some new))

/-- R482, R483, R629, R631-R637, R640, R641, R653-R655: the Fold answers the Fufin message set by mailbox and MCTP, MCTP control commands
and PLDM monitoring; what each answer holds, which are refused where, and the orderly stop. Conventions of the model: logs 60, 62, 73, 74. -/
def Obligations.FoldAnswersMessages : Prop :=
  ∀ (s : State) (via : Transport) (tag : BitVec 16) (pf : HostIx),
    let F := s.fold
    let no := transportNo via
    let msg := fun (op : Nat) (pay : List Byte) => packed [(2, op), (1, 6), (1, 0), (2, tag.toNat), (1, 0), (1, 0), (4, pay.length), (4, 0)] ++ pay
    let rsp := fun (op st : Nat) (pay : List Byte) => Out.answer no op st ((packed [(2, op), (1, 6), (1, 1), (2, tag.toNat), (1, st), (1, 0), (4, pay.length), (4, 0)] ++ pay).map (·.toNat))
    let tell := fun (op st : Nat) (pay : List (Nat × Nat)) => Host.Outcome.next (φ := Fault) (ρ := Refusal) (s.emit (rsp op st (packed pay)))
    let answers := fun (n st : Nat) (l : List Nat) => Host.Outcome.next (φ := Fault) (ρ := Refusal) (s.emit (.answer no n st l))
    let ends := fun (u : State) (o : Out) => ∃ l, u.out = l ++ [o]
    -- a mailbox
    (∀ v : BitVec 32, let M := s.mailbox pf
      (bit v.toNat 31 = false ∨ M.busy = true → exec (.mgtSend pf v) s = .next (s.modMailbox pf fun M => { M with intEn := bit v.toNat 30, vector := fld v.toNat 19 11, reqLen := fld v.toNat 0 13 })) ∧
      (bit v.toNat 31 = true → M.busy = false → s.foldAlive = false → exec (.mgtSend pf v) s = .next (s.modMailbox pf fun M => { M with
        intEn := bit v.toNat 30, vector := fld v.toNat 19 11, reqLen := fld v.toNat 0 13, busy := true, ready := false }))) ∧
    (∀ m, (s.mailbox pf).busy = true → (s.mailbox pf).intEn = false → (s.mailbox pf).request = msg 1 [] → s.foldAlive = true → s.start.stopped = false → ∃ u, exec (.getVersion (.mailbox pf) m) s = .next u ∧
      (u.mailbox pf).ready = true ∧ (u.mailbox pf).busy = false ∧ (u.mailbox pf).status = 0 ∧ (u.mailbox pf).rspLen = 18 ∧ tget (u.mailbox pf).resp 4 = 0x601 ∧ u.out = s.out) ∧
    (∀ m, (s.mailbox pf).busy = false → exec (.getVersion (.mailbox pf) m) s = .next s) ∧
    (∀ q : BitVec 64, (exec (.mgtLogAckWrite 0 q) s = .next (s.modFold fun F => { F with ack := max F.ack q.toNat })) ∧ (pf ≠ 0 → exec (.mgtLogAckWrite pf q) s = .next s)) ∧
    (exec (.mgtLogLostRead pf) s = .next ((s.emit (.regRead (0x20000 + pf) 0x9002C (s.mailbox pf).lost)).modMailbox pf fun M => { M with lost := 0 })) ∧
    -- reading messages over MCTP
    (mailboxOf via = none → s.carried via = true → s.foldAlive = true → s.start.stopped = false →
      (exec (.getVersion via (msg 1 [])) s = tell 1 0 [(1, 1), (1, 6)]) ∧
      (exec (.getStatus via (msg 2 [])) s = tell 2 0 ([(4, s.mgtStat none)] ++ (F.bankA.fw.comps.toList.map fun c => (4, c.version.toNat)) ++ (F.bankB.fw.comps.toList.map fun c => (4, c.version.toNat)) ++ [(1, b01 s.start.cold), (4, F.starts)])) ∧
      (exec (.logInfo via (msg 0x10 [])) s = tell 0x10 0 [(8, F.oldest), (8, F.newest), (4, (F.blocks.filter (·.closed)).length), (4, 8192 - F.blocks.length), (4, F.dropped)]) ∧
      (∀ (q : BitVec 64) (n : BitVec 32), 1 ≤ n.toNat → n.toNat ≤ 60 →
        let es := ((F.blocks.flatMap (·.entries)).filter fun l => l.seq ≥ max q.toNat F.oldest).take n.toNat
        let bs := (F.blocks.filter fun b => b.entries.any fun l => es.contains l).filter (·.closed)
        exec (.readLog via (msg 0x11 (toBytes q.toNat 8 ++ toBytes n.toNat 4)) []) s = tell 0x11 0 (es.map (fun l => (64, ofBytes l.bytes)) ++ bs.map fun b => (128, ofBytes b.seal))) ∧
      (∀ n : BitVec 32, n = 0 ∨ 60 < n.toNat → exec (.readLog via (msg 0x11 (toBytes 0 8 ++ toBytes n.toNat 4)) []) s = tell 0x11 0x11 []) ∧
      (∀ (q n : BitVec 32), 1 ≤ n.toNat → n.toNat ≤ 126 → exec (.readDefects via (msg 0x20 (toBytes q.toNat 4 ++ toBytes n.toNat 4))) s =
        tell 0x20 0 (((s.org.defects.filter fun d => d.seq ≥ q.toNat).take n.toNat).map fun d => (32, ofBytes d.bytes))) ∧
      (∀ (id : BitVec 16) v, id.toNat ∈ sensorIds → s.sensor id.toNat = some (some v) → exec (.readTelemetry via (msg 0x21 (toBytes id.toNat 4 ++ toBytes 1 4))) s = tell 0x21 0 [(4, v)]) ∧
      (∀ h : BitVec 32, (s.isMaint h.toNat = false → exec (.maintQuery via (msg 0x31 (toBytes h.toNat 4))) s = tell 0x31 0x15 []) ∧
        (s.isMaint h.toNat = true → (s.job h.toNat).runFrom = none → exec (.maintQuery via (msg 0x31 (toBytes h.toNat 4))) s = tell 0x31 0 [(8, (s.job h.toNat).queryWord), (8, (s.job h.toNat).runNs / 1000)])) ∧
      (s.maintActive = [] → s.maintQueue = [] → exec (.listMaint via (msg 0x33 [])) s = tell 0x33 0 []) ∧
      -- control messages
      (controlVia via = false → ∀ i op, (i = Instr.logAck via (msg 0x12 (toBytes 5 8)) ∧ op = 0x12) ∨ (i = .maintCtl via (msg 0x32 (toBytes 7 4 ++ toBytes 3 4)) ∧ op = 0x32) ∨ (i = .stop via (msg 0x40 (toBytes 0 4)) ∧ op = 0x40) ∨
          (i = .nextCold via (msg 0x41 (toBytes 1 4)) ∧ op = 0x41) → ∃ u, exec i s = .next u ∧ u.out = s.out ++ [rsp op 0x13 []] ∧ u.fold = s.fold ∧ u.start = s.start ∧ u.host = s.host) ∧
      (controlVia via = true →
        (∀ q : BitVec 64, exec (.logAck via (msg 0x12 (toBytes q.toNat 8))) s = .next ((s.modFold fun F => { F with ack := max F.ack q.toNat }).emit (rsp 0x12 0 []))) ∧
        (∀ (h : BitVec 32) (k : Fin 3), s.isMaint h.toNat = false → exec (.maintCtl via (msg 0x32 (toBytes h.toNat 4 ++ toBytes (k.val + 1) 4))) s = tell 0x32 0x15 []) ∧
        (∀ h : BitVec 32, let J := s.job h.toNat
          s.isMaint h.toNat = true → (J.terminal = true → exec (.maintCtl via (msg 0x32 (toBytes h.toNat 4 ++ toBytes 1 4))) s = tell 0x32 0x14 []) ∧
          (J.state = .running → (∀ e ∈ s.host.funcs, e.2.resetting = false) → ∃ u, exec (.maintCtl via (msg 0x32 (toBytes h.toNat 4 ++ toBytes 1 4))) s = .next u ∧ (u.job h.toNat).state = .suspending ∧ u.out = s.out ++ [rsp 0x32 1 []])) ∧
        (∀ b, exec (.nextCold via (msg 0x41 (toBytes (b01 b) 4))) s = .next ((s.modStart fun x => { x with nextCold := b }).emit (rsp 0x41 0 []))) ∧
        (((∃ e ∈ s.host.paddocks, e.2.live = true) ∨ s.maintActive ≠ [] ∨ s.maintQueue ≠ []) → exec (.stop via (msg 0x40 (toBytes 0 4))) s = tell 0x40 0x14 []) ∧
        ((∀ e ∈ s.host.paddocks, e.2.live = false) → s.maintActive = [] → s.maintQueue = [] → ∃ u, exec (.stop via (msg 0x40 (toBytes 0 4))) s = .next u ∧ u.start.stopped = true ∧ u.start.stopRecord = true ∧ ends u (rsp 0x40 0 []) ∧
          (∀ r, r < 144 → r ∉ s.org.dead → (u.region r).power = .off) ∧ (∀ k, k < 20 → (s.stack k).working = true → (u.stack k).selfRefresh = true) ∧
          (∀ n, n < 18 → (s.lamp n).carries = true → s.lampLicensed n = true → (u.lamp n).state = .down)) ∧
        (∃ u, exec (.stop via (msg 0x40 (toBytes 1 4))) s = .next u ∧ u.start.stopped = true ∧ u.start.stopRecord = true ∧ u.host.paddocks = [] ∧ ends u (rsp 0x40 0 [])))) ∧
    -- after a stop, and with no pair to serve
    (mailboxOf via = none → s.foldAlive = false → F.pair0.st ≠ .recovery → F.pair1.st ≠ .recovery → ∀ i, i ∈ [Instr.getVersion via (msg 1 []), .getStatus via (msg 2 []), .logInfo via (msg 0x10 []), .getEndpointId via, .getPdrRepositoryInfo via] → exec i s = .next s) ∧
    (mailboxOf via = none → s.carried via = true → s.foldAlive = true → s.start.stopped = true → (exec (.logInfo via (msg 0x10 [])) s = .next s) ∧ ∃ u l, exec (.getStatus via (msg 2 [])) s = .next u ∧ u = s.emit (rsp 2 0 l)) ∧
    -- MCTP control and PLDM monitoring
    (∀ e, endpointNo via = some e → s.carried via = true → s.foldAlive = true → s.start.stopped = false →
      (∀ eid : BitVec 8, (eid = 0 ∨ eid = 0xFF → exec (.setEndpointId via eid) s = answers 0x101 2 []) ∧
        (eid ≠ 0 → eid ≠ 0xFF → exec (.setEndpointId via eid) s = .next ((s.modFold fun F => { F with eids := tput F.eids e eid.toNat }).emit (.answer no 0x101 0 [eid.toNat]))) ∧
        exec (.setEventReceiver via eid) s = .next ((s.modFold fun F => { F with receiver := some (no, eid.toNat) }).emit (.answer no 0x3004 0 []))) ∧
      (exec (.getEndpointId via) s = answers 0x102 0 [tget F.eids e]) ∧ (exec (.getMessageTypeSupport via) s = answers 0x105 0 [1, 5, 6, 0x7E]) ∧
      (∀ t : BitVec 8, (t.toNat ∉ [0, 1, 5, 6, 0x7E] → exec (.getMctpVersionSupport via t) s = answers 0x104 0x80 []) ∧
        (t.toNat ∈ [0, 1, 5, 6, 0x7E] → ∃ u v, exec (.getMctpVersionSupport via t) s = .next u ∧ u.out = s.out ++ [.answer no 0x104 0 [v]] ∧ u.fold = s.fold)) ∧
      (∀ c : BitVec 8, (c ≠ 0 → exec (.getVendorDefinedMessageSupport via c) s = answers 0x106 2 []) ∧
        (c = 0 → ∃ u v, exec (.getVendorDefinedMessageSupport via c) s = .next u ∧ u.out = s.out ++ [.answer no 0x106 0 [0xFF, 0, v, 1]] ∧ u.fold = s.fold)) ∧
      (exec (.getPdrRepositoryInfo via) s = answers 0x3050 0 [1358]) ∧
      (∀ h : BitVec 32, (∀ id, sensorIds[h.toNat]? = some id → exec (.getPdr via h) s = answers 0x3051 0 ([id] ++ (thresholds id).1.map (·.getD 0) ++ [b01 (thresholds id).2])) ∧ (1358 ≤ h.toNat → exec (.getPdr via h) s = answers 0x3051 0x82 [])) ∧
      (∀ id : BitVec 16, (s.sensor id.toNat = none → exec (.getSensorReading via id) s = answers 0x3011 0x80 [] ∧ exec (.getSensorThresholds via id) s = answers 0x3012 0x80 []) ∧
        (s.sensor id.toNat = some none → exec (.getSensorReading via id) s = answers 0x3011 0 [0]) ∧
        (∀ v, s.sensor id.toNat = some (some v) → exec (.getSensorReading via id) s = answers 0x3011 0 [1, v])) ∧
      exec (.getSensorThresholds via 0x0700) s = answers 0x3012 0 [1, 85, 1, 95, 1, 100]) ∧
    (∀ (id : BitVec 16) (level : Fin 3) v limit tr eid, s.foldUp = true → s.sensor id.toNat = some (some v) → (thresholds id.toNat).1.getD level none = some limit → F.receiver = some (tr, eid) →
      let crossed := if (thresholds id.toNat).2 then v ≤ limit else limit ≤ v
      (crossed → tget F.crossed id.toNat = none → exec (.thresholdCrossing id level) s = .next ((s.modFold fun F => { F with crossed := tput F.crossed id.toNat (some s.time) }).emit (.answer tr 0x300A eid [id.toNat, level.val, v]))) ∧
      (¬crossed → exec (.thresholdCrossing id level) s = .next s) ∧ (∀ t, tget F.crossed id.toNat = some t → s.time < t + 1000000000 → exec (.thresholdCrossing id level) s = .next s)) ∧
    (∀ st a : BitVec 7, (F.i3cAddr = none → exec (.entdaa a) s = .next (s.modFold fun F => { F with i3cAddr := some a.toNat })) ∧ (F.i3cAddr ≠ none → exec (.entdaa a) s = .next s) ∧
      (exec (.setdasa 0x3A a) s = .next (s.modFold fun F => { F with i3cAddr := some a.toNat })) ∧ (st ≠ 0x3A → exec (.setdasa st a) s = .next s))

/-- R607, R622, R641-R652, R666-R669: a maintenance activity is asked for by Fufin, by command and by message: refused, deferred or
started; its steps go on, wait, end it or hand it over; Fufin's own requests are retried. Conventions of the model: logs 39, 60, 63, 72. -/
def Obligations.MaintenanceRunsInSteps : Prop :=
  ∀ (s : State) (job : BitVec 32) (res : StepResult) (k w2 w3 : Nat),
    let F := s.fold
    let calm := (∀ e ∈ s.host.funcs, e.2.resetting = false) ∧ s.maintQueue = [] ∧ F.autoActivate = false
    let acts : List ((MaintAsk → Instr) × Nat) := [(Instr.stackTest, 1), (Instr.stackScrub, 2), (Instr.linkRetrain, 3), (Instr.regionRetest, 4), (Instr.rechar, 5), (Instr.fwStage, 6), (Instr.fwActivate, 7),
      (Instr.licenceInstall, 8), (Instr.logRotate, 9)]
    let h := s.newHandle
    let made := fun (u : State) (act tk tg : Nat) (st : JobState) => (u.job h).live = true ∧ (u.job h).kind = .maintenance ∧ (u.job h).activity = act ∧ (u.job h).target = tg ∧ (u.job h).w2 = w2 ∧ (u.job h).w3 = w3 ∧
      (u.job h).state = st ∧ (u.job h).steps = s.maintSteps (maintJob act tk tg w2 w3) ∧ (u.job h).step = 0
    (∀ p ∈ acts, k < 2 ^ 16 → w2 < 2 ^ 64 → w3 < 2 ^ 64 →
      let act := p.2
      let J := maintJob act (maintKind act w2) k w2 w3
      let ask := exec (p.1 (.fufin (BitVec.ofNat 16 k) (BitVec.ofNat 64 w2) (BitVec.ofNat 64 w3))) s
      let bad := firstFail (s.maintChecks act (maintKind act w2) k w2 w3)
      -- Fufin's own
      (s.foldUp = false ∨ bad ≠ 0 → ask = .next s) ∧
      (s.foldUp = true → bad = 0 →
        (s.maintWaits J = false → ∃ u, ask = .next u ∧ made u act (maintKind act w2) k .running ∧ (act = 6 → (u.fold.bank (if s.bankUsed 0 then 1 else 0)).valid = false)) ∧
        (s.maintWaits J = true → s.maintFull = false → ∃ u, ask = .next u ∧ made u act (maintKind act w2) k .deferred ∧ u.fold = F) ∧
        (s.maintWaits J = true → s.maintFull = true → ask = .next (s.modFold fun F => { F with retry := F.retry ++ [{ activity := act, tkind := maintKind act w2, target := k, w2 := w2, w3 := w3 }] }))) ∧
      -- by command
      (∀ (fn : FnIx) (q : BitVec 16) c o, s.starts fn q.toNat 0x38 c o → (s.queue fn q.toNat).inDevice = false → sqStray c [msk 0 32, maskAll, maskAll] = false → wf c.w1 0 8 = act → wf c.w1 8 8 = maintKind act w2 → wf c.w1 16 16 = k → c.w2.toNat = w2 → c.w3.toNat = w3 →
        (fn ≠ 0 → exec (p.1 (.command fn q c)) s = .next (s.finish o 0x13 0 0 0)) ∧ (fn = 0 → bad ≠ 0 → exec (p.1 (.command fn q c)) s = .next (s.finish o bad 0 0 0)) ∧
        (fn = 0 → bad = 0 → s.maintWaits J = true → s.maintFull = true → exec (p.1 (.command fn q c)) s = .next (s.finish o 0x14 0 0 0)) ∧
        (fn = 0 → bad = 0 → s.maintWaits J = true → s.maintFull = false → ∃ u, exec (p.1 (.command fn q c)) s = .next u ∧ made u act (maintKind act w2) k .deferred) ∧
        (fn = 0 → bad = 0 → s.maintWaits J = false → ∃ u, exec (p.1 (.command fn q c)) s = .next u ∧ made u act (maintKind act w2) k .running)) ∧
      (∀ (fn : FnIx) (q : BitVec 16) c, wf c.w1 0 8 ≠ act → 1 ≤ wf c.w1 0 8 → wf c.w1 0 8 ≤ 9 → exec (p.1 (.command fn q c)) s = .next s) ∧
      -- by message
      (∀ via, let w1 := act + 2 ^ 8 * maintKind act w2 + 2 ^ 16 * k
        let pay := packed [(8, w1), (8, w2), (8, w3)]
        let msg := packed [(2, 0x30), (1, 6), (1, 0), (2, 1), (1, 0), (1, 0), (4, 24), (4, 0)] ++ pay
        mailboxOf via = none → s.carried via = true → s.foldAlive = true → s.start.stopped = false →
        (controlVia via = false → ∃ u, exec (p.1 (.message via msg)) s = .next u ∧ u.host = s.host ∧ ∃ b, u.out = s.out ++ [.answer (transportNo via) 0x30 0x13 b]) ∧
        (controlVia via = true → bad ≠ 0 → ∃ b, exec (p.1 (.message via msg)) s = .next (s.emit (.answer (transportNo via) 0x30 bad b))) ∧
        (controlVia via = true → bad = 0 → s.maintWaits J = true → s.maintFull = false → ∃ u, exec (p.1 (.message via msg)) s = .next u ∧ made u act (maintKind act w2) k .deferred ∧ ∃ b, u.out = s.out ++ [.answer (transportNo via) 0x30 2 b]))) ∧
    -- steps
    (let j := job.toNat
     let J := s.job j
     let ends := exec (.maintStepEnd job res) s
     let over_ := fun (u : State) (st : JobState) => (u.job j).state = st ∨ (u.job j).live = false
     let told := fun (u : State) (st : JobState) => { code := 0xA008, job := j, unit := J.target, detail := [J.activity, J.target, j, jobCode st] } ∈ u.events
     (J.live = false ∨ J.kind ≠ .maintenance ∨ (J.state ≠ .running ∧ J.state ≠ .suspending ∧ J.state ≠ .cancelling) ∨ s.foldUp = false → ends = .next s) ∧
     (J.live = true → J.kind = .maintenance → s.foldUp = true → calm → J.owed = [] → J.area.frames = [] → J.resumeNext = false →
       -- a scrub goes on, is suspended or cancelled at a step's end, and is done with its last
       (J.activity = 2 → (s.stack J.target).state ≠ .out → (∀ e ∈ (s.stack J.target).upset, pcOfOff (32 * e.1) < 8 * J.step ∨ 8 * J.step + 8 ≤ pcOfOff (32 * e.1)) →
         (J.step + 1 < J.steps → J.state = .running → ends = .next (s.setJob j { J with step := J.step + 1 })) ∧
         (J.step + 1 < J.steps → J.state = .suspending → ∃ u, ends = .next u ∧ (u.job j).state = .suspended ∧ (u.job j).step = J.step + 1) ∧
         (J.step + 1 < J.steps → J.state = .cancelling → ∃ u, ends = .next u ∧ over_ u .cancelled ∧ told u .cancelled) ∧
         (J.steps ≤ J.step + 1 → J.state = .running → ∃ u, ends = .next u ∧ over_ u .done ∧ told u .done)) ∧
       (J.activity = 2 → J.state = .running → (s.stack J.target).state = .out → ∃ u, ends = .next u ∧ over_ u .failed ∧ told u .failed ∧ ∃ e ∈ u.events, e.code = 0xA009 ∧ e.job = j) ∧
       -- a memory test waits for its stack, a retraining for its link, a re-characterisation for the region's job
       (J.activity = 1 → J.state = .running → (s.stack J.target).state ≠ .out → (s.stack J.target).testing ≠ none → ends = .next s) ∧
       (J.activity = 3 → J.state = .running → (s.lamp J.target).carries = true → J.steps ≤ J.step + 1 → ∃ u, ends = .next u ∧ over_ u .done ∧ told u .done) ∧
       (J.activity = 3 → J.state = .running → (s.lamp J.target).state = .training → (s.lamp J.target).waitRetry = false → res ≠ .failed → ends = .next s) ∧
       (J.activity = 5 → J.state = .running → J.target ∉ s.org.dead → (s.region J.target).power ≠ .off → (∃ p ∈ s.padsIn J.target, ∃ x, (s.paddock p).resident = some x ∧ (s.job x).state = .running) → ends = .next s) ∧
       -- staging: the set is checked after the last step
       (J.activity = 6 → J.state = .running → F.upd.state = .idle → J.steps ≤ J.step + 1 → ∀ f, res = .package f →
         let b := if s.bankUsed 0 then 1 else 0
         (s.checkSet f = true → ∃ u, ends = .next u ∧ (u.fold.bank b).valid = true ∧ (u.fold.bank b).fw = f ∧ over_ u .done ∧ ∃ e ∈ u.events, e.code = 0xA005) ∧
         (s.checkSet f = false → ∃ u, ends = .next u ∧ (u.fold.bank b).valid = false ∧ over_ u .failed ∧ ∃ e ∈ u.events, e.code = 0xA006)) ∧
       -- FUFIN: the standby takes over in the fifth step
       (J.activity = 7 → J.w2 % 16 = 1 → J.state = .running → J.step = 4 → J.steps = 9 → F.pair0.st = .active → F.pair1.st = .held → ∃ u, ends = .next u ∧ u.fold.pair0.st = .held ∧ u.fold.pair1.st = .active ∧
         u.ident.aliasGen = s.ident.aliasGen + 1 ∧ (u.job j).step = 5 ∧ { code := 0xA001, unit := 1 } ∈ u.events) ∧
       -- licences
       (J.activity = 8 → J.state = .running → J.steps ≤ J.step + 1 → ∀ bs a b, res = .licence bs a b → licenceFields bs = none ∨ a = false ∨ b = false → ∃ u, ends = .next u ∧ over_ u .failed ∧ u.org.variant = s.org.variant ∧
         u.ident.licences = s.ident.licences ∧ ∃ e ∈ u.events, e.code = 0xB004) ∧
       (J.activity = 8 → J.state = .running → J.steps ≤ J.step + 1 → ∀ bs seq var serial, res = .licence bs true true → licenceFields bs = some (1, seq, var, 0, 0, serial) → serial = Config.serial.toNat → variantCode s.org.variant < var →
         ∃ u, ends = .next u ∧ over_ u .done ∧ u.org.variant = variantOf var ∧ u.ident.licences = s.ident.licences ++ [var] ∧ ∃ e ∈ u.events, e.code = 0xB003) ∧
       -- the log's oldest blocks go
       (J.activity = 9 → J.state = .running → J.step + 1 < J.steps → (∀ b ∈ F.blocks, b.closed = true) → F.buffer = [] → ∃ u, ends = .next u ∧
         u.fold.blocks = F.blocks.drop (min 64 ((if J.w2 = 0 then 512 else J.w2) - 64 * J.step)) ∧ (u.job j).step = J.step + 1))) ∧
    -- Fufin's requests again
    (s.foldUp = false → exec .maintRequestRetry s = .next s) ∧
    (s.foldUp = true → F.retry = [] → s.start.recharWanted = [] → F.autoRotate = false ∨ 512 ≤ F.freeBlocks → F.autoActivate = false → exec .maintRequestRetry s = .next s) ∧
    (s.foldUp = true → s.start.recharWanted = [] → F.autoRotate = false → F.autoActivate = false → ∀ a, F.retry = [a] → firstFail (s.maintChecks a.activity a.tkind a.target a.w2 a.w3) = 0 →
      (s.maintWaits (maintJob a.activity a.tkind a.target a.w2 a.w3) = true → s.maintFull = true → exec .maintRequestRetry s = .next s) ∧
      (s.maintWaits (maintJob a.activity a.tkind a.target a.w2 a.w3) = false → ∃ u, exec .maintRequestRetry s = .next u ∧ u.fold.retry = [] ∧ (u.job h).live = true ∧ (u.job h).activity = a.activity ∧ (u.job h).state = .running))

/-- R336, R627-R630, R636, R639, R641, R643, R644: a pair that mismatches stops and is restarted once; a block of the log is sealed;
reports reach the Fold; a PLDM session stages a firmware set and asks for its activation. Conventions of the model: logs 58, 62, 64. -/
def Obligations.PairsLogAndFirmwareUpdates : Prop :=
  ∀ (s : State) (b : Bool) (via : Transport),
    let F := s.fold
    let P := F.pair b
    let U := F.upd
    let other := (F.pair (!b)).st
    let upd := fun (f : Update → Update) => s.modFold fun F => { F with upd := f F.upd }
    let no := transportNo via
    let ans := fun (u : State) (n st : Nat) (l : List Nat) => Host.Outcome.next (φ := Fault) (ρ := Refusal) (u.emit (.answer no n st l))
    -- pairs
    (P.st ≠ .active → P.st ≠ .standby → P.st ≠ .recovery → exec (.lockstepMismatch b) s = .next s) ∧
    (P.st = .active ∨ P.st = .standby → let again := ∃ t ∈ P.misses, s.time < t + 86400000000000
      ∃ u, exec (.lockstepMismatch b) s = .next u ∧ (again → (u.fold.pair b).st = .failed ∧ (u.fold.pair b).restart = false ∧ ∃ d ∈ u.org.defects, d.kind = 0x0C ∧ d.where_ = [b01 b]) ∧
        (¬again → (u.fold.pair b).st = .stopped ∧ (u.fold.pair b).restart = true ∧ u.org.defects = s.org.defects) ∧ (u.fold.pair b).misses = s.time :: P.misses ∧
        (P.st = .active → other = .standby → (u.fold.pair (!b)).st = .active ∧ u.events = s.events ++ [{ code := 0xA002, unit := b01 b }]) ∧ (P.st = .active → other ≠ .standby → u.events = s.events ∧ (u.fold.pair (!b)).st = other) ∧
        (P.st = .standby → u.events = s.events ++ [{ code := 0xA003, unit := b01 b }])) ∧
    (∀ ok, (P.st ≠ .stopped ∨ P.restart = false → exec (.watchdogRestart b ok) s = .next s) ∧
      (P.st = .stopped → P.restart = true → (ok = false → exec (.watchdogRestart b ok) s = .next (s.modFold fun F => F.setPair b { P with restart := false })) ∧
        (ok = true → s.foldAlive = true → exec (.watchdogRestart b ok) s = .next ((s.modFold fun F => F.setPair b { P with st := .standby, restart := false }).raise { code := 0xA004, unit := b01 b })) ∧
        (ok = true → s.foldAlive = false → exec (.watchdogRestart b ok) s = .next (s.modFold fun F => F.setPair b { P with st := .recovery, restart := false })))) ∧
    -- the log
    (∀ r, (s.foldAlive = false → exec (.logBlockSeal r) s = .next s) ∧
      (s.foldAlive = true → F.buffer = [] → F.autoRotate = false → ∀ B, F.blocks.getLast? = some B → B.closed = false → B.entries ≠ [] → ∃ u, exec (.logBlockSeal r) s = .next u ∧
        u.fold.blocks = F.blocks.dropLast ++ [{ B with closed := true, key := s.ident.aliasGen }] ∧ u.fold.replaced = F.replaced + b01 r ∧ u.events = (if r then s.events ++ [{ code := 0xA00C, detail := [F.blockNo] }] else s.events))) ∧
    (∀ (node : Fin 672) rep, ∃ u, exec (.telemetry node rep) s = .next u ∧ (node.val, rep.flatMap fun e => [e.1.toNat, e.2.toNat]) ∈ u.net.telemetry ∧ u.mem = s.mem ∧ u.tiles = s.tiles ∧ u.host = s.host ∧
      ∀ (n : LampIx) (l : Fin 9) v, rep = [(BitVec.ofNat 16 (0x800 + 9 * n + l), v)] → node.val = lampNode n → tget u.fold.eyes (9 * n + l) = v.toNat) ∧
    -- firmware update: inside a secured session only
    (endpointNo via ≠ none → s.carried via = true → s.foldAlive = true → s.start.stopped = false → secureVia via = false →
      ∀ i n, (i = Instr.queryDeviceIdentifiers via ∧ n = 0x6001) ∨ (i = .getFirmwareParameters via ∧ n = 0x6002) ∨ (∃ k, i = .requestUpdate via k ∧ n = 0x6010) ∨ (∃ c l, i = .passComponentTable via c l ∧ n = 0x6013) ∨
          (∃ c k, i = .updateComponent via c k ∧ n = 0x6014) ∨ (∃ c, i = .activateFirmware via c ∧ n = 0x601A) ∨ (i = .pldmGetStatus via ∧ n = 0x601B) ∨ (i = .cancelUpdateComponent via ∧ n = 0x601C) ∨ (i = .cancelUpdate via ∧ n = 0x601D) →
        ∃ u, exec i s = .next u ∧ u.fold = F ∧ u.host = s.host ∧ u.out = s.out ++ [.answer no n 0x13 []]) ∧
    (∀ e, endpointNo via = some e → s.carried via = true → s.foldAlive = true → s.start.stopped = false → secureVia via = true →
      (exec (.queryDeviceIdentifiers via) s = ans s 0x6001 0 [Config.serial.toNat]) ∧
      (exec (.getFirmwareParameters via) s = ans s 0x6002 0 (((F.bank F.activeBank).fw.comps.toList.map fun c => c.version.toNat) ++ (F.bank (1 - F.activeBank)).fw.comps.toList.map fun c => c.version.toNat)) ∧
      (exec (.pldmGetStatus via) s = ans s 0x601B 0 [updCode U.state, U.comp, U.got]) ∧
      (∀ k : BitVec 32, let J := maintJob 6 0 0 0 k.toNat
        (U.state ≠ .idle → exec (.requestUpdate via k) s = ans s 0x6010 0x81 []) ∧
        (U.state = .idle → firstFail (s.maintChecks 6 0 0 0 k.toNat) = 0 → (s.maintWaits J = true → exec (.requestUpdate via k) s = ans s 0x6010 0x8E []) ∧
          (s.maintWaits J = false → ∃ u, exec (.requestUpdate via k) s = .next u ∧ u.fold.upd = { state := .learn, job := s.newHandle, by_ := e } ∧ (u.job s.newHandle).activity = 6 ∧ (u.job s.newHandle).state = .running ∧
            u.out = s.out ++ [.answer no 0x6010 0 []]))) ∧
      (U.by_ = e →
        (∀ (c : Fin 6) l, (U.state ≠ .learn → exec (.passComponentTable via c l) s = ans s 0x6013 0x84 []) ∧
          (U.state = .learn → c ≠ 0 → exec (.passComponentTable via c l) s = ans (upd fun U => { U with passed := setIns U.passed c.val, state := if l then .ready else .learn }) 0x6013 0 [0])) ∧
        (∀ (c : Fin 6) (k : BitVec 32), (U.state ≠ .ready → exec (.updateComponent via c k) s = ans s 0x6014 0x84 []) ∧ (U.state = .ready → c.val ∉ U.passed → exec (.updateComponent via c k) s = ans s 0x6014 2 []) ∧
          (U.state = .ready → c.val ∈ U.passed → exec (.updateComponent via c k) s = ans (upd fun U => { U with state := .download, comp := c.val, size := k.toNat, got := 0 }) 0x6014 0 [0])) ∧
        (U.state ∈ [.download, .verify, .apply] → exec (.cancelUpdateComponent via) s = ans (upd fun U => { U with state := .ready, got := 0 }) 0x601C 0 []) ∧
        (U.state = .ready → s.isMaint U.job = false → exec (.cancelUpdate via) s = ans (upd fun _ => {}) 0x601D 0 []) ∧
        (U.state = .activate → exec (.activateFirmware via true) s = ans s 0x601A 0x86 []) ∧
        (U.state = .activate → ∃ u v, exec (.activateFirmware via false) s = .next u ∧ u.fold.upd = {} ∧ u.fold.pendingFw = [2, 3, 4] ∧ u.fold.pendingBank = (if s.bankUsed 0 then 1 else 0) ∧ u.out = s.out ++ [.answer no 0x601A 0 [v]]))) ∧
    (∀ k : BitVec 16, (U.state ≠ .download → exec (.requestFirmwareData k) s = .next s) ∧
      (U.state = .download → s.foldUp = true → (s.job U.job).state ≠ .cancelling → (k.toNat ≤ 4096 → U.got + k.toNat ≤ U.size → exec (.requestFirmwareData k) s = .next (upd fun U => { U with got := U.got + k.toNat })) ∧
        (4096 < k.toNat ∨ U.size < U.got + k.toNat → exec (.requestFirmwareData k) s = .next s))) ∧
    (U.state = .download → U.got = U.size → exec .transferComplete s = .next (upd fun U => { U with state := .verify })) ∧ (U.state ≠ .download ∨ U.got ≠ U.size → exec .transferComplete s = .next s) ∧
    (∀ ok, (U.state = .verify → exec (.verifyComplete ok) s = .next (upd fun U => { U with state := if ok then .apply else .ready })) ∧ (U.state ≠ .verify → exec (.verifyComplete ok) s = .next s)) ∧
    (∀ f, (U.state ≠ .apply → exec (.applyComplete f) s = .next s) ∧
      (U.state = .apply → (setIns U.applied U.comp).length < U.passed.length → exec (.applyComplete f) s = .next (upd fun U => { U with state := .ready, applied := setIns U.applied U.comp })) ∧
      (U.state = .apply → U.passed.length ≤ (setIns U.applied U.comp).length → s.checkSet f = true → s.maintQueue = [] → ∃ u, exec (.applyComplete f) s = .next u ∧ u.fold.upd.state = .activate ∧
        (u.fold.bank (if s.bankUsed 0 then 1 else 0)).fw = f ∧ (u.fold.bank (if s.bankUsed 0 then 1 else 0)).valid = true ∧ ∃ e ∈ u.events, e.code = 0xA005))

/-- R659-R665, R670, R671, R678-R681: SPDM answers at every place, sessions open and end, measurements, PCIe IDE, debug consents and debug
reads. Response and error codes are the model's (log 61). Conventions of the model: logs 61, 65, 66, 67. -/
def Obligations.SpdmIdeAndDebugAnswer : Prop :=
  ∀ (s : State) (a : SpdmAt) (fn : FnIx) (sid : BitVec 32),
    let I := s.ident
    let R := s.responder a
    let ses : FnIx → SpdmAt := fun f => .doe f
    let tell := fun (code : Nat) (body : List Nat) => Host.Outcome.next (φ := Fault) (ρ := Refusal) (s.emit (.answer (16 + placeNo a) code 0 body))
    let fails := fun (e : Nat) => tell 0x7F [e]
    let from_ := fun (u : State) (at_ : SpdmAt) (code : Nat) (body : List Nat) => ∃ l, u.out = l ++ [.answer (16 + placeNo at_) code 0 body]
    let key := ofBytesBE (sha384 s.chain)
    let inMine := fun (p : Session → Bool) => (I.sessions.filter p).length
    -- a connection: version, capabilities, algorithms, in that order
    (s.spdmHere a = false → ∀ n, n ∈ [exec (.spdmGetVersion a) s, exec (.getDigests a) s, exec (.chunkGet a 0 0) s, exec (.endSession a sid) s, exec (.heartbeat a sid) s] → n = .next s) ∧
    (s.spdmHere a = true →
      (exec (.spdmGetVersion a) s = .next ((s.modResponder a fun R => { asked := true, chunkId := R.chunkId }).emit (.answer (16 + placeNo a) 0x04 0 [0x12, 0x13]))) ∧
      (∀ v : BitVec 8, (R.asked = false → exec (.getCapabilities a v) s = fails 4) ∧
        (R.asked = true → v = 0x12 ∨ v = 0x13 → exec (.getCapabilities a v) s =
          .next ((s.modResponder a fun R => { R with version := some v.toNat, caps := true }).emit (.answer (16 + placeNo a) 0x61 0 [v.toNat, 0x273F6, 4096]))) ∧
        (R.asked = true → v ≠ 0x12 → v ≠ 0x13 → exec (.getCapabilities a v) s = fails 0x41)) ∧
      (R.asked = true → R.caps = true → exec (.negotiateAlgorithms a false) s = fails 1 ∧
        exec (.negotiateAlgorithms a true) s = .next ((s.modResponder a fun R => { R with algs := true }).emit (.answer (16 + placeNo a) 0x63 0 []))) ∧
      (R.asked = true → R.caps = false → exec (.negotiateAlgorithms a true) s = fails 4) ∧
      -- parts of a large request, and of a large response
      (R.asked = true → R.caps = true →
        (∀ (h : BitVec 8) (part : List Byte), part.length ≤ 4096 → exec (.chunkSend a h 0 false part) s =
          .next ((s.modResponder a fun R => { R with chunkId := h.toNat, chunkIn := part.map (·.toNat), chunkNext := 1, chunkOut := [] }).emit (.answer (16 + placeNo a) 5 0 [h.toNat, 0]))) ∧
        (∀ (h : BitVec 8) (q : BitVec 16) (part : List Byte) last, q ≠ 0 → R.chunkNext ≠ q.toNat → exec (.chunkSend a h q last part) s = fails 1) ∧
        (R.chunkOut = [] → ∀ h q, exec (.chunkGet a h q) s = fails 1) ∧
        (∀ (h : BitVec 8) (q : BitVec 16), R.chunkOut ≠ [] → R.chunkId = h.toNat → R.chunkNext = q.toNat → ∃ u, exec (.chunkGet a h q) s = .next u ∧
          (u.responder a).chunkOut = R.chunkOut.drop 4096 ∧ from_ u a 6 ([h.toNat, q.toNat, b01 (R.chunkOut.drop 4096).isEmpty] ++ R.chunkOut.take 4096))) ∧
      -- certificates, challenges, measurements
      (R.asked = true → R.caps = true → R.algs = true →
        (I.attest = true → exec (.getDigests a) s = tell 1 [1, key]) ∧ (I.attest = false → exec (.getDigests a) s = tell 1 [0]) ∧
        (∀ (slot : BitVec 8) (off len : BitVec 16), slot ≠ 0 ∨ I.attest = false → exec (.getCertificate a slot off len) s = fails 1) ∧
        (∀ off len : BitVec 16, I.attest = true → off.toNat ≤ s.chain.length → len.toNat ≤ 4096 → exec (.getCertificate a 0 off len) s = tell 2 (((s.chain.drop off.toNat).take len.toNat).map (·.toNat))) ∧
        (∀ nonce : BitVec 256, (I.attest = true → exec (.challenge a 0 nonce) s = tell 3 [key, Config.sign I.aliasGen [nonce.toNat, key]]) ∧ (I.attest = false → exec (.challenge a 0 nonce) s = fails 1)) ∧
        (∀ (i : BitVec 8) (nonce : BitVec 256) b, 1 ≤ i.toNat → i.toNat ≤ 9 → s.measure i.toNat = some b →
          exec (.getMeasurements a i false nonce) s = tell 0x60 [1, b] ∧ (I.attest = true → exec (.getMeasurements a i true nonce) s = tell 0x60 [1, b, Config.sign I.aliasGen [nonce.toNat, b]])) ∧
        (∀ nonce : BitVec 256, exec (.getMeasurements a 0 false nonce) s = tell 0x60 [9] ∧ exec (.getMeasurements a 10 false nonce) s = fails 1) ∧
        -- sessions
        (∀ (nonce : BitVec 256) m, I.attest = true →
          let place := placeNo a
          let full := if place < 256 then 2 ≤ inMine (fun x => x.place == place)
            else if place < 261 then 4 ≤ inMine (fun x => decide (256 ≤ x.place) && decide (x.place < 261)) else 1 ≤ inMine (fun x => x.place == place)
          (full → exec (.keyExchange a 0 m nonce) s = fails 0x0E) ∧
          (¬full → ∃ u, exec (.keyExchange a 0 m nonce) s = .next u ∧ u.ident.sessions = I.sessions ++ [{ id := I.nextSession, place := place }] ∧
            (m = true → (u.responder a).encap = 1 ∧ (u.responder a).encapSession = I.nextSession) ∧ ∃ k, from_ u a 0x64 (I.nextSession :: b01 m :: k))) ∧
        (R.encap = 0 → exec (.getEncapsulatedRequest a) s = fails 4 ∧ ∀ v k, exec (.deliverEncapsulatedResponse a v k) s = fails 4) ∧
        (R.encap = 1 → exec (.getEncapsulatedRequest a) s = tell 0x6A [0x81] ∧ ∀ v k, ∃ u, exec (.deliverEncapsulatedResponse a v k) s = .next u ∧ (u.responder a).encap = 2 ∧ u.ident.sessions = I.sessions) ∧
        (R.encap = 2 → exec (.getEncapsulatedRequest a) s = tell 0x6A [0x82] ∧
          (∀ k : BitVec 384, ∃ u, exec (.deliverEncapsulatedResponse a true k) s = .next u ∧ (u.responder a).encap = 0 ∧
            u.ident.sessions = I.sessions.map fun x => if x.place = placeNo a ∧ x.id = R.encapSession then { x with key := k.toNat } else x) ∧
          ∀ k, ∃ u, exec (.deliverEncapsulatedResponse a false k) s = .next u ∧ (∀ x ∈ u.ident.sessions, ¬(x.place = placeNo a ∧ x.id = R.encapSession)))) ∧
      (∀ x, s.session (placeNo a) sid.toNat = some x →
        (exec (.heartbeat a sid) s = tell 0x68 [x.id]) ∧
        (∃ u, exec (.endSession a sid) s = .next u ∧ u.ident.sessions = I.sessions.filter (fun y => !(y.place == placeNo a && y.id == x.id)) ∧ from_ u a 0x6C [x.id]) ∧
        (∀ op : BitVec 8, placeNo a < 261 → (op = 3 → exec (.spdmKeyUpdate a sid op) s = tell 0x69 [3]) ∧ (op = 0 ∨ 3 < op.toNat → exec (.spdmKeyUpdate a sid op) s = fails 1) ∧
          (op = 1 ∨ op = 2 → ∃ u, exec (.spdmKeyUpdate a sid op) s = .next u ∧ from_ u a 0x69 [op.toNat] ∧
            u.ident.sessions = I.sessions.map fun y => if y.place = placeNo a ∧ y.id = x.id then { y with updates := y.updates + 1 } else y))) ∧
      (s.session (placeNo a) sid.toNat = none → exec (.heartbeat a sid) s = fails 0x0B ∧ exec (.endSession a sid) s = fails 0x0B)) ∧
    (∃ u, exec (.heartbeatTimeout a sid) s = .next u ∧ u.ident.sessions = I.sessions.filter (fun y => !(y.place == placeNo a && y.id == sid.toNat)) ∧ u.events = s.events) ∧
    -- IDE key management, on a physical function only
    (∀ x, s.spdmHere (ses fn) = true → s.session fn.val sid.toNat = some x →
      let tells := fun (body : List Nat) => Host.Outcome.next (φ := Fault) (ρ := Refusal) (s.emit (.answer (16 + fn.val) 0x7E 0 body))
      let no := Host.Outcome.next (φ := Fault) (ρ := Refusal) (s.emit (.answer (16 + fn.val) 0x7F 0 [1]))
      (4 ≤ fn.val → ∀ i, i ∈ [Instr.ideKmQuery fn sid, .keyProg fn sid 0 false false, .kSetGo fn sid 0 false false, .kSetStop fn sid 0 false false] → exec i s = no) ∧
      (fn.val < 4 → exec (.ideKmQuery fn sid) s = tells [1, fn.val, 1, 4, 2] ∧
        ∀ (k : BitVec 8) (g d : Bool), let n := 2 * b01 g + b01 d
          let x := s.ide fn.val k.toNat
          (4 < k.toNat → exec (.keyProg fn sid k g d) s = tells [3, k.toNat, 3] ∧ exec (.kSetGo fn sid k g d) s = no ∧ exec (.kSetStop fn sid k g d) s = no) ∧
          (k.toNat ≤ 4 → (n ∈ x.running → exec (.keyProg fn sid k g d) s = tells [3, k.toNat, 4]) ∧ (n ∉ x.keys → exec (.kSetGo fn sid k g d) s = no) ∧
            (n ∉ x.running → ∃ u, exec (.keyProg fn sid k g d) s = .next u ∧ n ∈ (u.ide fn.val k.toNat).keys ∧ (u.ide fn.val k.toNat).running = x.running ∧ (u.ide fn.val k.toNat).secure = x.secure) ∧
            (n ∈ x.keys → ∃ u, exec (.kSetGo fn sid k g d) s = .next u ∧ n ∈ (u.ide fn.val k.toNat).running ∧
              ((u.ide fn.val k.toNat).secure = true ↔ (∀ m, m < 2 → 2 * b01 g + m = n ∨ 2 * b01 g + m ∈ x.running) ∨ (∀ m, m < 2 → 2 * (1 - b01 g) + m ∈ x.running)) ∧
              ((u.ide fn.val k.toNat).insecure = (x.insecure && !(u.ide fn.val k.toNat).secure))) ∧
            (∃ u, exec (.kSetStop fn sid k g d) s = .next u ∧ n ∉ (u.ide fn.val k.toNat).running ∧ n ∉ (u.ide fn.val k.toNat).keys)))) ∧
    (∀ (p : HostIx) (k : Fin 5), ((s.ide p k).secure = false → exec (.ideIntegrityFailure p k) s = .next s) ∧
      ((s.ide p k).secure = true → k ≠ 0 → ∃ u, exec (.ideIntegrityFailure p k) s = .next u ∧ u.ide p k = { insecure := true } ∧
        u.events = s.events ++ [{ code := 0xB006, unit := p.val, detail := [p.val, k.val] }]) ∧
      ((s.ide p 0).secure = true → (∀ e ∈ s.host.funcs, e.2.resetting = false) → (s.port p).up = true → ∃ u, exec (.ideIntegrityFailure p 0) s = .next u ∧ (u.port p).up = false ∧ ∃ e ∈ u.events, e.code = 0xB006)) ∧
    -- debug access: consent, withdrawal, reading
    (∀ x (c : CtxIx), s.spdmHere (ses fn) = true → s.session fn.val sid.toNat = some x →
      let tell := fun (op st : Nat) => Host.Outcome.next (φ := Fault) (ρ := Refusal) (s.emit (.answer (16 + fn.val) 0x7E 0 [op, st]))
      (∀ (k : BitVec 384) (scope : BitVec 8) (m : BitVec 16),
        (I.debugLic = none ∨ (∃ d, I.debugLic = some d ∧ d.1 ≠ k.toNat) ∨ s.ctxMine fn c = false → exec (.debugConsent fn sid c k scope m) s = tell 0x101 0x13) ∧
        (∀ d, I.debugLic = some d → d.1 = k.toNat → s.ctxMine fn c = true →
          (m = 0 ∨ 1440 < m.toNat → exec (.debugConsent fn sid c k scope m) s = tell 0x101 0x11) ∧
          (scope.toNat < 4 → 1 ≤ m.toNat → m.toNat ≤ 1440 → ∃ u, exec (.debugConsent fn sid c k scope m) s = .next u ∧ from_ u (ses fn) 0x7E [0x101, 0] ∧
            u.ident.consents = (I.consents.filter fun x => !(x.ctx == c.val)) ++ [{ ctx := c, key := k.toNat, scope := scope.toNat, until_ := s.time + m.toNat * 60000000000 }] ∧
            ∃ e ∈ u.events, e.code = 0xB008 ∧ e.ctx = some c.val ∧ e.detail = [1]))) ∧
      (∃ u, exec (.debugWithdraw fn sid c) s = .next u ∧ from_ u (ses fn) 0x7E [0x102, 0] ∧ u.ident.consents = if s.ctxMine fn c then I.consents.filter (fun x => !(x.ctx == c.val)) else I.consents)) ∧
    (∀ c : CtxIx, ∃ u, exec (.consentExpiry c) s = .next u ∧ u.ident.consents = I.consents.filter (fun x => !(x.ctx == c.val)) ∧
      u.events.length = s.events.length + (I.consents.filter fun x => x.ctx == c.val).length) ∧
    (I.debugLic = none → exec .debugLicenceExpiry s = .next s) ∧
    (∀ d, I.debugLic = some d → ∃ u, exec .debugLicenceExpiry s = .next u ∧ u.ident.debugLic = none ∧ u.ident.consents = [] ∧ u.events.length = s.events.length + I.consents.length) ∧
    (∀ x (p lid : BitVec 16) (src core : BitVec 8) (off : BitVec 32) (n : BitVec 16), s.spdmHere a = true → s.session (placeNo a) sid.toNat = some x →
      let P := s.paddock p.toNat
      let tell := fun (st : Nat) => Host.Outcome.next (φ := Fault) (ρ := Refusal) (s.emit (.answer (16 + placeNo a) 0x7E 0 [0x110, st]))
      let read := exec (.debugRead a sid p lid src core off n) s
      (I.debugLic = none ∨ x.mutual_ = false ∨ (1 ≤ placeNo a ∧ placeNo a < 256) ∨ 261 ≤ placeNo a → read = tell 0x13) ∧
      (∀ d, I.debugLic = some d → x.mutual_ = true → (a = .doe 0 ∨ a = .i3c) → x.key ≠ d.1 → read = tell 0x13) ∧
      (∀ d, I.debugLic = some d → x.mutual_ = true → (a = .doe 0 ∨ a = .i3c) → x.key = d.1 → src.toNat = 0 → core.toNat ≤ 1 → n.toNat % 32 = 0 → 32 ≤ n.toNat → n.toNat ≤ 4032 → off.toNat % 32 = 0 → off.toNat + n.toNat ≤ 2 ^ 23 →
        (P.live = false → read = tell 0x15) ∧ (P.live = true → I.consents = [] → read = tell 0x13) ∧
        (∀ c ∈ I.consents, c.ctx = P.ctx → c.key = d.1 → bit c.scope 0 = true → P.live = true →
          (P.releasing = true ∨ lid.toNat ∉ s.members p.toNat → read = tell 0x15) ∧
          (∀ j, P.releasing = false → lid.toNat ∈ s.members p.toNat → P.resident = some j → (s.job j).state ≠ .cancelling →
            (P.frozen = false → read = tell 0x14) ∧
            (∀ t, P.frozen = true → s.tileOf lid.toNat = some t → ∃ u m, read = .next u ∧
              from_ u a 0x7E ([0x110, 0, m] ++ (s.bytes (spdKey t off.toNat) n.toNat).map (·.toNat)) ∧
              (∀ i, i < n.toNat / 32 → (bit m i = true ↔ s.marked (spdKey t (off.toNat + 32 * i)) = true)) ∧ u.mem = s.mem ∧ u.ident = I ∧ u.core = s.core)))))

/-- R638, R639, R683-R691, R699: an event record reaches the Fold, the log and the ERR rings; the ring's registers; R719, R720: the test
port. Conventions of the model: logs 58, 59, 68, 69. -/
def Obligations.RecordsReachLogAndRings : Prop :=
  ∀ (s : State) (i : BitVec 16) (fn : FnIx) (v : BitVec 32) (cells : BitVec 64),
    let F := s.fold
    let E := tget s.errs fn
    let step := exec (.event i) s
    let left := s.events.eraseIdx i.toNat
    let alike := fun (a b : EventRec) => a.node = b.node ∧ a.region = b.region ∧ a.unit = b.unit ∧ a.ctx = b.ctx
    -- which records may go, and where they go
    (s.events.length ≤ i.toNat → step = .next s) ∧
    (∀ e, s.events[i.toNat]? = some e →
      ((∃ b ∈ s.events.take i.toNat, alike e b) → step = .next s) ∧
      ((∀ b ∈ s.events.take i.toNat, ¬alike e b) →
        (s.foldAlive = false → step = .next { s with events := left, fold := { F with gap := true } }) ∧
        (s.foldAlive = true → F.autoRotate = false → e.code ≠ 0x1004 →
          let l : LogEntry := { seq := F.seq + 1, time := s.time, event := e, count := min (max 1 e.counted) 65535, source := eventSource e.code }
          ∃ u, step = .next u ∧ u.events = left ∧ u.fold.seq = F.seq + 1 ∧
            -- the log
            (∀ b bs, F.buffer = [] → F.blocks = bs ++ [b] → b.closed = false → b.entries.length < 254 → u.fold.buffer = [] ∧ u.fold.gap = false ∧
              let w := { l with lostBefore := F.gap, chain := F.chain }
              u.fold.blocks = bs ++ [{ b with entries := b.entries ++ [w] }] ∧ u.fold.chain = ofBytes ((sha384 w.bytes).take 12)) ∧
            (F.buffer.length ≥ 65536 → u.fold.gap = true ∧ u.fold.dropped = F.dropped + 1 ∧ u.fold.buffer = F.buffer ∧ u.fold.blocks = F.blocks ∧
              ∀ p, p < 4 → (tget u.fold.mail p).lost = min ((tget F.mail p).lost + 1) (2 ^ 32 - 1)) ∧
            -- the rings
            (∀ f : FnIx, let E := tget s.errs f
              let mine := e.fn = 0xFF ∧ f.val < 4 ∨ e.fn ≠ 0xFF ∧ (e.fn = f.val ∨ 4 ≤ e.fn ∧ pfOf e.fn = f)
              ((¬mine ∨ (s.func f).ready = false) → tget u.errs f = E) ∧
              (mine → (s.func f).ready = true → ((tget u.errs f).head = E.head ∧ tget (tget u.errs f).cnt (eventClass e.code) = min (tget E.cnt (eventClass e.code) + l.count) (2 ^ 32 - 1)) ∧
                ((E.tail + 1) % 512 = E.head → (tget u.errs f).overflow = true ∧ (tget u.errs f).lost = min (E.lost + 1) (2 ^ 32 - 1) ∧ (tget u.errs f).tail = E.tail ∧ (tget u.errs f).ring = E.ring) ∧
                ((E.tail + 1) % 512 ≠ E.head → (tget u.errs f).tail = (E.tail + 1) % 512 ∧ (tget u.errs f).lostBefore = false ∧
                  (F.buffer.length < 65536 → tget (tget u.errs f).ring E.tail = { l with lostBefore := E.lostBefore || F.gap }) ∧
                  (E.intEn = true → E.minClass ≤ eventClass e.code → ∃ o ∈ u.out, o = .msix f E.vector)))) ∧
            (∀ f : FnIx, e.fn = f.val → eventClass e.code = 0 → (u.func f).aer = (s.func f).aer ||| 4) ∧ u.host.jobs = s.host.jobs ∧ u.tiles = s.tiles) ∧
        -- a column that waits for its bypass suspends the job (R82)
        (∀ j, s.foldUp = true → F.autoRotate = false → e.code = 0x1004 → (s.tile e.node).arr.pendingBypass ≠ [] → (s.paddock (s.tag e.node)).resident = some j → (s.job j).state = .running → (s.job j).descheduled = false →
          ∃ u, step = .next u ∧ (u.job j).holdDev = true ∧ u.fold.seq = F.seq + 1))) ∧
    (eventClass 0x5003 = 1 ∧ eventClass 0x1203 = 2 ∧ eventClass 0x8005 = 3 ∧ eventClass 0x800C = 4 ∧ eventClass 0x9001 = 0) ∧
    -- the registers of the ring
    (∀ h : BitVec 9, ∃ u, exec (.errHeadWrite fn h) s = .next u ∧ tget u.errs fn = { E with head := h.toNat } ∧ (∀ k, k ≠ fn.val → tget u.errs k = tget s.errs k) ∧ u.out = s.out) ∧
    (∀ c : Fin 5, ∃ u, exec (.errCntRead fn c) s = .next u ∧ u.out = s.out ++ [.regRead (0x20000 + fn) (0xA0010 + 4 * c.val) (tget E.cnt c)] ∧ tget (tget u.errs fn).cnt c = 0 ∧
      (∀ d, d ≠ c.val → tget (tget u.errs fn).cnt d = tget E.cnt d) ∧ (tget u.errs fn).lost = E.lost ∧ (tget u.errs fn).ring = E.ring) ∧
    (∃ u, exec (.errLostRead fn) s = .next u ∧ u.out = s.out ++ [.regRead (0x20000 + fn) 0xA0024 E.lost] ∧ tget u.errs fn = { E with lost := 0 }) ∧
    -- boundary scan: EXTEST, CLAMP and HIGHZ take the pins only in their windows
    (let pins := fun (ir drive : Nat) => Host.Outcome.next (φ := Fault) (ρ := Refusal) { s with pins := { s.pins with tapIr := ir, tapDrive := drive } }
      let open_ := s.power.lost = false ∧ (s.start.phase = 1 ∨ s.start.phase = 2 ∨ s.start.stopped = true)
      (open_ → exec .extest s = pins 3 1 ∧ exec .clamp s = pins 5 1 ∧ exec .highz s = pins 6 2) ∧ (¬open_ → exec .extest s = pins 0 0 ∧ exec .clamp s = pins 0 0 ∧ exec .highz s = pins 0 0) ∧
      exec .bypass s = pins 0 0 ∧ exec .jsbUnmate s = pins 4 0 ∧
      (exec (.preload cells) s = .next { s with pins := { s.pins with tapIr := 2, tapDrive := 0, cells := cells.toNat } }) ∧
      (exec .idcode s = .next { s with pins := { s.pins with tapIr := 4, tapDrive := 0 }, out := s.out ++ [.answer 0x1149 4 0 [0x19A099CB]] }) ∧
      (∃ u, exec (.sample v) s = .next u ∧ u.pins.tapIr = 1 ∧ u.pins.cells = Config.packCells ([b01 s.power.fsense.1, b01 s.power.fsense.2] ++ (upto 0 18).map (fun n => b01 (s.pins.cabPres.contains n)) ++
        (upto 0 18).map (fun n => b01 (s.pins.cabPwr.contains n)) ++ (upto 0 4).map (fun p => b01 (s.port p).perst) ++ [v.toNat]) ∧ u = { s with pins := u.pins }))
end

