-- ==== Sys2Proof/Laws/Tab.lean ====
section
/-! SUPPORT. Laws of sparse tables and of sets as rising lists: reads after writes, and the canonical form. -/
namespace Sys2Proof.Machine

section
variable {β : Type} [Inhabited β]

@[simp] theorem tget_nil (k : Nat) : tget ([] : Tab β) k = default := rfl

theorem tget_tdel_same (t : Tab β) (k : Nat) : tget (tdel t k) k = default := by
  induction t with
  | nil => rfl
  | cons e t ih =>
    obtain ⟨a, v⟩ := e
    by_cases h : a = k
    · have : tdel ((a, v) :: t) k = tdel t k := by simp [tdel, h]
      rw [this, ih]
    · have : tdel ((a, v) :: t) k = (a, v) :: tdel t k := by simp [tdel, h]
      rw [this]; simp [tget, Ne.symm h, ih]
theorem tget_tdel_ne (t : Tab β) {k j : Nat} (h : j ≠ k) : tget (tdel t k) j = tget t j := by
  induction t with
  | nil => rfl
  | cons e t ih =>
    obtain ⟨a, v⟩ := e
    by_cases hk : a = k
    · have : tdel ((a, v) :: t) k = tdel t k := by simp [tdel, hk]
      rw [this, ih]; simp [tget, hk, h]
    · have : tdel ((a, v) :: t) k = (a, v) :: tdel t k := by simp [tdel, hk]
      rw [this]; simp only [tget, ih]
theorem tget_tins_same (t : Tab β) (k : Nat) (v : β) (h : ∀ e ∈ t, e.1 ≠ k) : tget (tins t k v) k = v := by
  induction t with
  | nil => simp [tins, tget]
  | cons e t ih =>
    obtain ⟨a, w⟩ := e
    have ha : a ≠ k := h (a, w) (by simp)
    simp only [tins]
    split
    · simp [tget]
    · simp [tget, Ne.symm ha, ih fun e he => h e (by simp [he])]
theorem tget_tins_ne (t : Tab β) {k j : Nat} (v : β) (h : j ≠ k) : tget (tins t k v) j = tget t j := by
  induction t with
  | nil => simp [tins, tget, h]
  | cons e t ih =>
    obtain ⟨a, w⟩ := e
    simp only [tins]
    split
    · simp [tget, h]
    · simp [tget, ih]
omit [Inhabited β] in
theorem tdel_notMem (t : Tab β) (k : Nat) : ∀ e ∈ tdel t k, e.1 ≠ k := by
  intro e he; simp [tdel] at he; exact he.2
omit [Inhabited β] in
theorem tdel_of_notMem (t : Tab β) (k : Nat) (h : ∀ e ∈ t, e.1 ≠ k) : tdel t k = t := by
  simp only [tdel, List.filter_eq_self]; intro e he; simp [h e he]
omit [Inhabited β] in
theorem tdel_tins (t : Tab β) (k : Nat) (v : β) (h : ∀ e ∈ t, e.1 ≠ k) : tdel (tins t k v) k = t := by
  induction t with
  | nil => simp [tins, tdel]
  | cons e t ih =>
    obtain ⟨a, w⟩ := e
    have ha : a ≠ k := h (a, w) (by simp)
    have ht := ih fun e he => h e (by simp [he])
    simp only [tins]
    split
    · have := tdel_of_notMem ((a, w) :: t) k h
      simpa [tdel] using this
    · have : tdel ((a, w) :: tins t k v) k = (a, w) :: tdel (tins t k v) k := by simp [tdel, ha]
      rw [this, ht]

variable [DecidableEq β]

/-- A read of the key just written gives the value written. -/
@[simp] theorem tget_tput_same (t : Tab β) (k : Nat) (v : β) : tget (tput t k v) k = v := by
  unfold tput; split
  · next h => rw [tget_tdel_same, h]
  · exact tget_tins_same _ _ _ (tdel_notMem t k)
/-- A write leaves every other key alone. -/
theorem tget_tput_ne (t : Tab β) {k j : Nat} (v : β) (h : j ≠ k) : tget (tput t k v) j = tget t j := by
  unfold tput; split
  · exact tget_tdel_ne t h
  · rw [tget_tins_ne _ _ h, tget_tdel_ne t h]
theorem tget_tput (t : Tab β) (k j : Nat) (v : β) : tget (tput t k v) j = if j = k then v else tget t j := by
  split
  · next h => rw [h, tget_tput_same]
  · next h => exact tget_tput_ne t v h
/-- The last of two writes of a key counts. -/
@[simp] theorem tput_tput_same (t : Tab β) (k : Nat) (v w : β) : tput (tput t k v) k w = tput t k w := by
  have : tdel (tput t k v) k = tdel t k := by
    unfold tput; split
    · exact tdel_of_notMem _ _ (tdel_notMem t k)
    · exact tdel_tins _ _ _ (tdel_notMem t k)
  rw [show tput (tput t k v) k w = if w = default then tdel (tput t k v) k else tins (tdel (tput t k v) k) k w from rfl, this]; rfl

/-! ### The canonical form -/

theorem tabFrom_mono {lo hi : Nat} (h : lo ≤ hi) : ∀ {t : Tab β}, tabFrom hi t = true → tabFrom lo t = true
  | [], _ => rfl
  | (k, v) :: t, w => by
    simp only [tabFrom, Bool.and_eq_true, decide_eq_true_eq] at w ⊢
    exact ⟨⟨Nat.le_trans h w.1.1, w.1.2⟩, w.2⟩
theorem tabFrom_tdel (lo k : Nat) : ∀ {t : Tab β}, tabFrom lo t = true → tabFrom lo (tdel t k) = true := by
  intro t
  induction t generalizing lo with
  | nil => intro _; rfl
  | cons e t ih =>
    obtain ⟨a, v⟩ := e
    intro w
    simp only [tabFrom, Bool.and_eq_true, decide_eq_true_eq] at w
    by_cases h : a = k
    · have : tdel ((a, v) :: t) k = tdel t k := by simp [tdel, h]
      rw [this]; exact tabFrom_mono (by omega) (ih (a + 1) w.2)
    · have : tdel ((a, v) :: t) k = (a, v) :: tdel t k := by simp [tdel, h]
      rw [this]
      simp only [tabFrom, Bool.and_eq_true, decide_eq_true_eq]
      exact ⟨w.1, ih (a + 1) w.2⟩
theorem tabFrom_tins (lo k : Nat) (v : β) (hv : v ≠ default) (hk : lo ≤ k) :
    ∀ {t : Tab β}, (∀ e ∈ t, e.1 ≠ k) → tabFrom lo t = true → tabFrom lo (tins t k v) = true := by
  intro t
  induction t generalizing lo with
  | nil => intro _ _; simp [tins, tabFrom, hv, hk]
  | cons e t ih =>
    obtain ⟨a, w⟩ := e
    intro hn hw
    have ha : a ≠ k := hn (a, w) (by simp)
    simp only [tabFrom, Bool.and_eq_true, decide_eq_true_eq] at hw
    simp only [tins]
    split
    · next h => simp only [tabFrom, Bool.and_eq_true, decide_eq_true_eq]
                exact ⟨⟨hk, by simp [hv]⟩, ⟨by omega, hw.1.2⟩, hw.2⟩
    · next h => simp only [tabFrom, Bool.and_eq_true, decide_eq_true_eq]
                exact ⟨hw.1, ih (a + 1) (by omega) (fun e he => hn e (by simp [he])) hw.2⟩
/-- A write keeps the canonical form. -/
theorem Tab.wf_tput {t : Tab β} (k : Nat) (v : β) (h : Tab.wf t = true) : Tab.wf (tput t k v) = true := by
  unfold Tab.wf tput at *; split
  · exact tabFrom_tdel 0 k h
  · next hv => exact tabFrom_tins 0 k v hv (Nat.zero_le _) (tdel_notMem t k) (tabFrom_tdel 0 k h)
theorem Tab.wf_tmod {t : Tab β} (k : Nat) (f : β → β) (h : Tab.wf t = true) : Tab.wf (tmod t k f) = true := Tab.wf_tput _ _ h
end

/-! ### Sets -/

theorem contains_setIns (l : List Nat) (k j : Nat) : (setIns l k).contains j = (j == k || l.contains j) := by
  induction l with
  | nil => simp [setIns]; rfl
  | cons a t ih =>
    simp only [setIns]
    split
    · grind
    · split <;> grind
theorem contains_setDel (l : List Nat) (k j : Nat) : (setDel l k).contains j = (j != k && l.contains j) := by
  simp [setDel]; grind
@[simp] theorem contains_setPut_same (l : List Nat) (k : Nat) (b : Bool) : (setPut l k b).contains k = b := by
  unfold setPut; split
  · next h => rw [contains_setIns]; simp [h]
  · next h => rw [contains_setDel]; simp [h]
theorem contains_setPut_ne (l : List Nat) {k j : Nat} (b : Bool) (h : j ≠ k) : (setPut l k b).contains j = l.contains j := by
  unfold setPut; split
  · rw [contains_setIns]; simp [h]
  · rw [contains_setDel]; simp [h]

theorem risingFrom_mono {lo hi : Nat} (h : lo ≤ hi) : ∀ {l : List Nat}, risingFrom hi l = true → risingFrom lo l = true
  | [], _ => rfl
  | a :: t, w => by simp only [risingFrom, Bool.and_eq_true, decide_eq_true_eq] at w ⊢; exact ⟨by omega, w.2⟩
theorem risingFrom_setIns (lo k : Nat) (hk : lo ≤ k) : ∀ {l : List Nat}, risingFrom lo l = true → risingFrom lo (setIns l k) = true := by
  intro l
  induction l generalizing lo with
  | nil => intro _; simp [setIns, risingFrom, hk]
  | cons a t ih =>
    intro w
    simp only [risingFrom, Bool.and_eq_true, decide_eq_true_eq] at w
    simp only [setIns]
    split
    · simp [risingFrom, hk, w.2]; omega
    · split
      · simp [risingFrom, w]
      · simp [risingFrom, w.1]; exact ih (a + 1) (by omega) w.2
theorem risingFrom_setDel (lo k : Nat) : ∀ {l : List Nat}, risingFrom lo l = true → risingFrom lo (setDel l k) = true := by
  intro l
  induction l generalizing lo with
  | nil => intro _; rfl
  | cons a t ih =>
    intro w
    simp only [risingFrom, Bool.and_eq_true, decide_eq_true_eq] at w
    by_cases h : a = k
    · have : setDel (a :: t) k = setDel t k := by simp [setDel, h]
      rw [this]; exact risingFrom_mono (by omega) (ih (a + 1) w.2)
    · have : setDel (a :: t) k = a :: setDel t k := by simp [setDel, h]
      rw [this]; simp [risingFrom, w.1]; exact ih (a + 1) w.2
/-- A rising list stays one. -/
theorem risingFrom_setPut {l : List Nat} (k : Nat) (b : Bool) (h : risingFrom 0 l = true) : risingFrom 0 (setPut l k b) = true := by
  unfold setPut; split
  · exact risingFrom_setIns 0 k (Nat.zero_le _) h
  · exact risingFrom_setDel 0 k h

end Sys2Proof.Machine
end

