-- ==== Sys2Proof/Laws/Core.lean ====
section
/-! SUPPORT. Laws of tiles and cores as parts of the state, and what the issue of an instruction comes to. -/
namespace Sys2Proof.Machine

@[simp] theorem tile_setTile_same (s : State) (t : Nat) (x : Tile) : (s.setTile t x).tile t = x := tget_tput_same _ _ _
theorem tile_setTile_ne (s : State) {t j : Nat} (x : Tile) (h : j ≠ t) : (s.setTile t x).tile j = s.tile j := tget_tput_ne _ _ h
@[simp] theorem setTile_setTile (s : State) (t : Nat) (x y : Tile) : (s.setTile t x).setTile t y = s.setTile t y := by
  simp [State.setTile]
@[simp] theorem core_setCore_same (T : Tile) (k : Nat) (c : Core) : (T.setCore k c).core k = c := by
  unfold Tile.setCore Tile.core; split <;> simp
@[simp] theorem setCore_setCore (T : Tile) (k : Nat) (c d : Core) : (T.setCore k c).setCore k d = T.setCore k d := by
  unfold Tile.setCore; split <;> rfl
@[simp] theorem core_setCore (s : State) (u : CoreId) (c : Core) : (s.setCore u c).core u = c := by
  simp [State.setCore, State.core, State.modTile]
@[simp] theorem core_modCore (s : State) (u : CoreId) (f : Core → Core) : (s.modCore u f).core u = f (s.core u) := by
  simp [State.modCore]
@[simp] theorem modCore_modCore (s : State) (u : CoreId) (f g : Core → Core) :
    (s.modCore u f).modCore u g = s.modCore u fun c => g (f c) := by
  simp only [State.modCore, core_setCore]
  simp [State.setCore, State.modTile]
theorem modCore_congr (s : State) (u : CoreId) {f g : Core → Core} (h : f (s.core u) = g (s.core u)) : s.modCore u f = s.modCore u g := by
  unfold State.modCore; rw [h]

/-- A sound fetch changes nothing and raises nothing. -/
theorem fetch_clean {s : State} {u : CoreId} : ∀ {n a : Nat},
    (∀ k, k < n → inPriv (a + 4 * k) = true ∧ tget (s.core u).privUpset ((a + 4 * k - privBase) / 8) = 0 ∧
      s.marked (privKey u.tile u.core (8 * ((a + 4 * k - privBase) / 8))) = false) → s.fetch u a n = (none, s)
  | 0, _, _ => rfl
  | n + 1, a, h => by
    have h0 := h 0 (by omega)
    simp only [Nat.mul_zero, Nat.add_zero] at h0
    have ih : s.fetch u (a + 4) n = (none, s) := fetch_clean fun k hk => by
      have := h (k + 1) (by omega)
      rw [show a + 4 + 4 * k = a + 4 * (k + 1) by omega]; exact this
    simp [State.fetch, h0, ih]

/-- What an instruction that may issue comes to: its body's outcome. -/
theorem issue_body {s : State} {u : CoreId} {i : Issue} {body skip : State → CoreRes}
    (h : s.atIssue u i.words i.level) (hb : i.bad = false) (hp : bit ((s.core u).pr i.pred) 0 = true) :
    s.issue u i body skip =
      (match body s with
        | .done t => .next (t.modCore u fun c => { c with pc := BitVec.ofNat 64 ((s.core u).pcOf + 4 * i.words), retired := (c.retired + 1) % 2 ^ 64 })
        | .jump t pc => .next (t.modCore u fun c => { c with pc := BitVec.ofNat 64 pc, retired := (c.retired + 1) % 2 ^ 64 })
        | .raise t cause v => .next (t.exception u cause v)
        | .wait t => .next t) := by
  have hf : s.fetch u (s.core u).pcOf i.words = (none, s) := fetch_clean h.clean
  have hl : ¬ s.imageLevel u < i.level := Nat.not_lt.2 h.level
  have hw : (s.core u).pendingReg i.gs i.vs = false := by simp [Core.pendingReg, h.loads]
  simp only [State.issue, h.on, h.free, hf, hb, hl, hp, hw]
  cases body s <;> rfl
/-- An instruction that completes. -/
theorem issue_done {s t : State} {u : CoreId} {i : Issue} {body skip : State → CoreRes}
    (h : s.atIssue u i.words i.level) (hb : i.bad = false) (hp : bit ((s.core u).pr i.pred) 0 = true) (e : body s = .done t) :
    s.issue u i body skip = .next (t.modCore u fun c => { c with pc := BitVec.ofNat 64 ((s.core u).pcOf + 4 * i.words), retired := (c.retired + 1) % 2 ^ 64 }) := by
  rw [issue_body h hb hp, e]
/-- An instruction that completes with an effect on its own core alone. -/
theorem issue_core {s : State} {u : CoreId} {i : Issue} {f : Core → Core} {body skip : State → CoreRes}
    (h : s.atIssue u i.words i.level) (hb : i.bad = false) (hp : bit ((s.core u).pr i.pred) 0 = true)
    (e : body s = .done (s.modCore u f)) : s.issue u i body skip = .next (s.retire u i.words f) := by
  rw [issue_done h hb hp e, modCore_modCore]; rfl
/-- Predicate 0 enables everything. -/
@[simp] theorem bit_pr_zero (c : Core) : bit (c.pr 0) 0 = true := by simp [Core.pr]; decide

end Sys2Proof.Machine
end

