-- ==== Sys2Proof/Laws/State.lean ====
section
/-! SUPPORT. Updates of the state: each leaves every other field and every other unit as it was, and a unit just written reads as written. -/
namespace Sys2Proof.Machine
variable (s : State)

/-! #### State.setTile -/
@[simp] theorem State.setTile_mem (t : Nat) (x : Tile) : (s.setTile t x).mem = s.mem := rfl
@[simp] theorem State.setTile_marks (t : Nat) (x : Tile) : (s.setTile t x).marks = s.marks := rfl
@[simp] theorem State.setTile_org (t : Nat) (x : Tile) : (s.setTile t x).org = s.org := rfl
@[simp] theorem State.setTile_regions (t : Nat) (x : Tile) : (s.setTile t x).regions = s.regions := rfl
@[simp] theorem State.setTile_net (t : Nat) (x : Tile) : (s.setTile t x).net = s.net := rfl
@[simp] theorem State.setTile_mmu (t : Nat) (x : Tile) : (s.setTile t x).mmu = s.mmu := rfl
@[simp] theorem State.setTile_hbms (t : Nat) (x : Tile) : (s.setTile t x).hbms = s.hbms := rfl
@[simp] theorem State.setTile_host (t : Nat) (x : Tile) : (s.setTile t x).host = s.host := rfl
@[simp] theorem State.setTile_errs (t : Nat) (x : Tile) : (s.setTile t x).errs = s.errs := rfl
@[simp] theorem State.setTile_power (t : Nat) (x : Tile) : (s.setTile t x).power = s.power := rfl
@[simp] theorem State.setTile_start (t : Nat) (x : Tile) : (s.setTile t x).start = s.start := rfl
@[simp] theorem State.setTile_pins (t : Nat) (x : Tile) : (s.setTile t x).pins = s.pins := rfl
@[simp] theorem State.setTile_fabric (t : Nat) (x : Tile) : (s.setTile t x).fabric = s.fabric := rfl
@[simp] theorem State.setTile_fold (t : Nat) (x : Tile) : (s.setTile t x).fold = s.fold := rfl
@[simp] theorem State.setTile_ident (t : Nat) (x : Tile) : (s.setTile t x).ident = s.ident := rfl
@[simp] theorem State.setTile_events (t : Nat) (x : Tile) : (s.setTile t x).events = s.events := rfl
@[simp] theorem State.setTile_rates (t : Nat) (x : Tile) : (s.setTile t x).rates = s.rates := rfl
@[simp] theorem State.setTile_out (t : Nat) (x : Tile) : (s.setTile t x).out = s.out := rfl
@[simp] theorem State.setTile_time (t : Nat) (x : Tile) : (s.setTile t x).time = s.time := rfl
@[simp] theorem State.setTile_free (t : Nat) (x : Tile) : (s.setTile t x).free = s.free := rfl
@[simp] theorem State.setTile_pending (t : Nat) (x : Tile) : (s.setTile t x).pending = s.pending := rfl
@[simp] theorem State.region_setTile (t : Nat) (x : Tile) (a : Nat) : (s.setTile t x).region a = s.region a := rfl
@[simp] theorem State.stack_setTile (t : Nat) (x : Tile) (a : Nat) : (s.setTile t x).stack a = s.stack a := rfl
@[simp] theorem State.paddock_setTile (t : Nat) (x : Tile) (a : Nat) : (s.setTile t x).paddock a = s.paddock a := rfl
@[simp] theorem State.job_setTile (t : Nat) (x : Tile) (a : Nat) : (s.setTile t x).job a = s.job a := rfl
@[simp] theorem State.ctx_setTile (t : Nat) (x : Tile) (a : Nat) : (s.setTile t x).ctx a = s.ctx a := rfl
@[simp] theorem State.func_setTile (t : Nat) (x : Tile) (a : Nat) : (s.setTile t x).func a = s.func a := rfl
@[simp] theorem State.queue_setTile (t : Nat) (x : Tile) (a d : Nat) : (s.setTile t x).queue a d = s.queue a d := rfl
@[simp] theorem State.port_setTile (t : Nat) (x : Tile) (a : Nat) : (s.setTile t x).port a = s.port a := rfl
@[simp] theorem State.mmuCtx_setTile (t : Nat) (x : Tile) (a : Nat) : (s.setTile t x).mmuCtx a = s.mmuCtx a := rfl
@[simp] theorem State.router_setTile (t : Nat) (x : Tile) (a : Nat) : (s.setTile t x).router a = s.router a := rfl
@[simp] theorem State.lamp_setTile (t : Nat) (x : Tile) (a : Nat) : (s.setTile t x).lamp a = s.lamp a := rfl
@[simp] theorem State.endpoint_setTile (t : Nat) (x : Tile) (a : Nat) : (s.setTile t x).endpoint a = s.endpoint a := rfl
@[simp] theorem State.mailbox_setTile (t : Nat) (x : Tile) (a : Nat) : (s.setTile t x).mailbox a = s.mailbox a := rfl
@[simp] theorem State.byte_setTile (t : Nat) (x : Tile) (a : Nat) : (s.setTile t x).byte a = s.byte a := rfl
@[simp] theorem State.marked_setTile (t : Nat) (x : Tile) (a : Nat) : (s.setTile t x).marked a = s.marked a := rfl

/-! #### State.modTile -/
@[simp] theorem State.modTile_mem (t : Nat) (f : Tile → Tile) : (s.modTile t f).mem = s.mem := rfl
@[simp] theorem State.modTile_marks (t : Nat) (f : Tile → Tile) : (s.modTile t f).marks = s.marks := rfl
@[simp] theorem State.modTile_org (t : Nat) (f : Tile → Tile) : (s.modTile t f).org = s.org := rfl
@[simp] theorem State.modTile_regions (t : Nat) (f : Tile → Tile) : (s.modTile t f).regions = s.regions := rfl
@[simp] theorem State.modTile_net (t : Nat) (f : Tile → Tile) : (s.modTile t f).net = s.net := rfl
@[simp] theorem State.modTile_mmu (t : Nat) (f : Tile → Tile) : (s.modTile t f).mmu = s.mmu := rfl
@[simp] theorem State.modTile_hbms (t : Nat) (f : Tile → Tile) : (s.modTile t f).hbms = s.hbms := rfl
@[simp] theorem State.modTile_host (t : Nat) (f : Tile → Tile) : (s.modTile t f).host = s.host := rfl
@[simp] theorem State.modTile_errs (t : Nat) (f : Tile → Tile) : (s.modTile t f).errs = s.errs := rfl
@[simp] theorem State.modTile_power (t : Nat) (f : Tile → Tile) : (s.modTile t f).power = s.power := rfl
@[simp] theorem State.modTile_start (t : Nat) (f : Tile → Tile) : (s.modTile t f).start = s.start := rfl
@[simp] theorem State.modTile_pins (t : Nat) (f : Tile → Tile) : (s.modTile t f).pins = s.pins := rfl
@[simp] theorem State.modTile_fabric (t : Nat) (f : Tile → Tile) : (s.modTile t f).fabric = s.fabric := rfl
@[simp] theorem State.modTile_fold (t : Nat) (f : Tile → Tile) : (s.modTile t f).fold = s.fold := rfl
@[simp] theorem State.modTile_ident (t : Nat) (f : Tile → Tile) : (s.modTile t f).ident = s.ident := rfl
@[simp] theorem State.modTile_events (t : Nat) (f : Tile → Tile) : (s.modTile t f).events = s.events := rfl
@[simp] theorem State.modTile_rates (t : Nat) (f : Tile → Tile) : (s.modTile t f).rates = s.rates := rfl
@[simp] theorem State.modTile_out (t : Nat) (f : Tile → Tile) : (s.modTile t f).out = s.out := rfl
@[simp] theorem State.modTile_time (t : Nat) (f : Tile → Tile) : (s.modTile t f).time = s.time := rfl
@[simp] theorem State.modTile_free (t : Nat) (f : Tile → Tile) : (s.modTile t f).free = s.free := rfl
@[simp] theorem State.modTile_pending (t : Nat) (f : Tile → Tile) : (s.modTile t f).pending = s.pending := rfl
@[simp] theorem State.region_modTile (t : Nat) (f : Tile → Tile) (a : Nat) : (s.modTile t f).region a = s.region a := rfl
@[simp] theorem State.stack_modTile (t : Nat) (f : Tile → Tile) (a : Nat) : (s.modTile t f).stack a = s.stack a := rfl
@[simp] theorem State.paddock_modTile (t : Nat) (f : Tile → Tile) (a : Nat) : (s.modTile t f).paddock a = s.paddock a := rfl
@[simp] theorem State.job_modTile (t : Nat) (f : Tile → Tile) (a : Nat) : (s.modTile t f).job a = s.job a := rfl
@[simp] theorem State.ctx_modTile (t : Nat) (f : Tile → Tile) (a : Nat) : (s.modTile t f).ctx a = s.ctx a := rfl
@[simp] theorem State.func_modTile (t : Nat) (f : Tile → Tile) (a : Nat) : (s.modTile t f).func a = s.func a := rfl
@[simp] theorem State.queue_modTile (t : Nat) (f : Tile → Tile) (a d : Nat) : (s.modTile t f).queue a d = s.queue a d := rfl
@[simp] theorem State.port_modTile (t : Nat) (f : Tile → Tile) (a : Nat) : (s.modTile t f).port a = s.port a := rfl
@[simp] theorem State.mmuCtx_modTile (t : Nat) (f : Tile → Tile) (a : Nat) : (s.modTile t f).mmuCtx a = s.mmuCtx a := rfl
@[simp] theorem State.router_modTile (t : Nat) (f : Tile → Tile) (a : Nat) : (s.modTile t f).router a = s.router a := rfl
@[simp] theorem State.lamp_modTile (t : Nat) (f : Tile → Tile) (a : Nat) : (s.modTile t f).lamp a = s.lamp a := rfl
@[simp] theorem State.endpoint_modTile (t : Nat) (f : Tile → Tile) (a : Nat) : (s.modTile t f).endpoint a = s.endpoint a := rfl
@[simp] theorem State.mailbox_modTile (t : Nat) (f : Tile → Tile) (a : Nat) : (s.modTile t f).mailbox a = s.mailbox a := rfl
@[simp] theorem State.byte_modTile (t : Nat) (f : Tile → Tile) (a : Nat) : (s.modTile t f).byte a = s.byte a := rfl
@[simp] theorem State.marked_modTile (t : Nat) (f : Tile → Tile) (a : Nat) : (s.modTile t f).marked a = s.marked a := rfl

/-! #### State.setRegion -/
@[simp] theorem State.setRegion_mem (r : Nat) (x : Region) : (s.setRegion r x).mem = s.mem := rfl
@[simp] theorem State.setRegion_marks (r : Nat) (x : Region) : (s.setRegion r x).marks = s.marks := rfl
@[simp] theorem State.setRegion_org (r : Nat) (x : Region) : (s.setRegion r x).org = s.org := rfl
@[simp] theorem State.setRegion_tiles (r : Nat) (x : Region) : (s.setRegion r x).tiles = s.tiles := rfl
@[simp] theorem State.setRegion_net (r : Nat) (x : Region) : (s.setRegion r x).net = s.net := rfl
@[simp] theorem State.setRegion_mmu (r : Nat) (x : Region) : (s.setRegion r x).mmu = s.mmu := rfl
@[simp] theorem State.setRegion_hbms (r : Nat) (x : Region) : (s.setRegion r x).hbms = s.hbms := rfl
@[simp] theorem State.setRegion_host (r : Nat) (x : Region) : (s.setRegion r x).host = s.host := rfl
@[simp] theorem State.setRegion_errs (r : Nat) (x : Region) : (s.setRegion r x).errs = s.errs := rfl
@[simp] theorem State.setRegion_power (r : Nat) (x : Region) : (s.setRegion r x).power = s.power := rfl
@[simp] theorem State.setRegion_start (r : Nat) (x : Region) : (s.setRegion r x).start = s.start := rfl
@[simp] theorem State.setRegion_pins (r : Nat) (x : Region) : (s.setRegion r x).pins = s.pins := rfl
@[simp] theorem State.setRegion_fabric (r : Nat) (x : Region) : (s.setRegion r x).fabric = s.fabric := rfl
@[simp] theorem State.setRegion_fold (r : Nat) (x : Region) : (s.setRegion r x).fold = s.fold := rfl
@[simp] theorem State.setRegion_ident (r : Nat) (x : Region) : (s.setRegion r x).ident = s.ident := rfl
@[simp] theorem State.setRegion_events (r : Nat) (x : Region) : (s.setRegion r x).events = s.events := rfl
@[simp] theorem State.setRegion_rates (r : Nat) (x : Region) : (s.setRegion r x).rates = s.rates := rfl
@[simp] theorem State.setRegion_out (r : Nat) (x : Region) : (s.setRegion r x).out = s.out := rfl
@[simp] theorem State.setRegion_time (r : Nat) (x : Region) : (s.setRegion r x).time = s.time := rfl
@[simp] theorem State.setRegion_free (r : Nat) (x : Region) : (s.setRegion r x).free = s.free := rfl
@[simp] theorem State.setRegion_pending (r : Nat) (x : Region) : (s.setRegion r x).pending = s.pending := rfl
@[simp] theorem State.tile_setRegion (r : Nat) (x : Region) (a : Nat) : (s.setRegion r x).tile a = s.tile a := rfl
@[simp] theorem State.stack_setRegion (r : Nat) (x : Region) (a : Nat) : (s.setRegion r x).stack a = s.stack a := rfl
@[simp] theorem State.paddock_setRegion (r : Nat) (x : Region) (a : Nat) : (s.setRegion r x).paddock a = s.paddock a := rfl
@[simp] theorem State.job_setRegion (r : Nat) (x : Region) (a : Nat) : (s.setRegion r x).job a = s.job a := rfl
@[simp] theorem State.ctx_setRegion (r : Nat) (x : Region) (a : Nat) : (s.setRegion r x).ctx a = s.ctx a := rfl
@[simp] theorem State.func_setRegion (r : Nat) (x : Region) (a : Nat) : (s.setRegion r x).func a = s.func a := rfl
@[simp] theorem State.queue_setRegion (r : Nat) (x : Region) (a d : Nat) : (s.setRegion r x).queue a d = s.queue a d := rfl
@[simp] theorem State.port_setRegion (r : Nat) (x : Region) (a : Nat) : (s.setRegion r x).port a = s.port a := rfl
@[simp] theorem State.mmuCtx_setRegion (r : Nat) (x : Region) (a : Nat) : (s.setRegion r x).mmuCtx a = s.mmuCtx a := rfl
@[simp] theorem State.router_setRegion (r : Nat) (x : Region) (a : Nat) : (s.setRegion r x).router a = s.router a := rfl
@[simp] theorem State.core_setRegion (r : Nat) (x : Region) (a : CoreId) : (s.setRegion r x).core a = s.core a := rfl
@[simp] theorem State.lamp_setRegion (r : Nat) (x : Region) (a : Nat) : (s.setRegion r x).lamp a = s.lamp a := rfl
@[simp] theorem State.endpoint_setRegion (r : Nat) (x : Region) (a : Nat) : (s.setRegion r x).endpoint a = s.endpoint a := rfl
@[simp] theorem State.mailbox_setRegion (r : Nat) (x : Region) (a : Nat) : (s.setRegion r x).mailbox a = s.mailbox a := rfl
@[simp] theorem State.byte_setRegion (r : Nat) (x : Region) (a : Nat) : (s.setRegion r x).byte a = s.byte a := rfl
@[simp] theorem State.marked_setRegion (r : Nat) (x : Region) (a : Nat) : (s.setRegion r x).marked a = s.marked a := rfl

/-! #### State.modRegion -/
@[simp] theorem State.modRegion_mem (r : Nat) (f : Region → Region) : (s.modRegion r f).mem = s.mem := rfl
@[simp] theorem State.modRegion_marks (r : Nat) (f : Region → Region) : (s.modRegion r f).marks = s.marks := rfl
@[simp] theorem State.modRegion_org (r : Nat) (f : Region → Region) : (s.modRegion r f).org = s.org := rfl
@[simp] theorem State.modRegion_tiles (r : Nat) (f : Region → Region) : (s.modRegion r f).tiles = s.tiles := rfl
@[simp] theorem State.modRegion_net (r : Nat) (f : Region → Region) : (s.modRegion r f).net = s.net := rfl
@[simp] theorem State.modRegion_mmu (r : Nat) (f : Region → Region) : (s.modRegion r f).mmu = s.mmu := rfl
@[simp] theorem State.modRegion_hbms (r : Nat) (f : Region → Region) : (s.modRegion r f).hbms = s.hbms := rfl
@[simp] theorem State.modRegion_host (r : Nat) (f : Region → Region) : (s.modRegion r f).host = s.host := rfl
@[simp] theorem State.modRegion_errs (r : Nat) (f : Region → Region) : (s.modRegion r f).errs = s.errs := rfl
@[simp] theorem State.modRegion_power (r : Nat) (f : Region → Region) : (s.modRegion r f).power = s.power := rfl
@[simp] theorem State.modRegion_start (r : Nat) (f : Region → Region) : (s.modRegion r f).start = s.start := rfl
@[simp] theorem State.modRegion_pins (r : Nat) (f : Region → Region) : (s.modRegion r f).pins = s.pins := rfl
@[simp] theorem State.modRegion_fabric (r : Nat) (f : Region → Region) : (s.modRegion r f).fabric = s.fabric := rfl
@[simp] theorem State.modRegion_fold (r : Nat) (f : Region → Region) : (s.modRegion r f).fold = s.fold := rfl
@[simp] theorem State.modRegion_ident (r : Nat) (f : Region → Region) : (s.modRegion r f).ident = s.ident := rfl
@[simp] theorem State.modRegion_events (r : Nat) (f : Region → Region) : (s.modRegion r f).events = s.events := rfl
@[simp] theorem State.modRegion_rates (r : Nat) (f : Region → Region) : (s.modRegion r f).rates = s.rates := rfl
@[simp] theorem State.modRegion_out (r : Nat) (f : Region → Region) : (s.modRegion r f).out = s.out := rfl
@[simp] theorem State.modRegion_time (r : Nat) (f : Region → Region) : (s.modRegion r f).time = s.time := rfl
@[simp] theorem State.modRegion_free (r : Nat) (f : Region → Region) : (s.modRegion r f).free = s.free := rfl
@[simp] theorem State.modRegion_pending (r : Nat) (f : Region → Region) : (s.modRegion r f).pending = s.pending := rfl
@[simp] theorem State.tile_modRegion (r : Nat) (f : Region → Region) (a : Nat) : (s.modRegion r f).tile a = s.tile a := rfl
@[simp] theorem State.stack_modRegion (r : Nat) (f : Region → Region) (a : Nat) : (s.modRegion r f).stack a = s.stack a := rfl
@[simp] theorem State.paddock_modRegion (r : Nat) (f : Region → Region) (a : Nat) : (s.modRegion r f).paddock a = s.paddock a := rfl
@[simp] theorem State.job_modRegion (r : Nat) (f : Region → Region) (a : Nat) : (s.modRegion r f).job a = s.job a := rfl
@[simp] theorem State.ctx_modRegion (r : Nat) (f : Region → Region) (a : Nat) : (s.modRegion r f).ctx a = s.ctx a := rfl
@[simp] theorem State.func_modRegion (r : Nat) (f : Region → Region) (a : Nat) : (s.modRegion r f).func a = s.func a := rfl
@[simp] theorem State.queue_modRegion (r : Nat) (f : Region → Region) (a d : Nat) : (s.modRegion r f).queue a d = s.queue a d := rfl
@[simp] theorem State.port_modRegion (r : Nat) (f : Region → Region) (a : Nat) : (s.modRegion r f).port a = s.port a := rfl
@[simp] theorem State.mmuCtx_modRegion (r : Nat) (f : Region → Region) (a : Nat) : (s.modRegion r f).mmuCtx a = s.mmuCtx a := rfl
@[simp] theorem State.router_modRegion (r : Nat) (f : Region → Region) (a : Nat) : (s.modRegion r f).router a = s.router a := rfl
@[simp] theorem State.core_modRegion (r : Nat) (f : Region → Region) (a : CoreId) : (s.modRegion r f).core a = s.core a := rfl
@[simp] theorem State.lamp_modRegion (r : Nat) (f : Region → Region) (a : Nat) : (s.modRegion r f).lamp a = s.lamp a := rfl
@[simp] theorem State.endpoint_modRegion (r : Nat) (f : Region → Region) (a : Nat) : (s.modRegion r f).endpoint a = s.endpoint a := rfl
@[simp] theorem State.mailbox_modRegion (r : Nat) (f : Region → Region) (a : Nat) : (s.modRegion r f).mailbox a = s.mailbox a := rfl
@[simp] theorem State.byte_modRegion (r : Nat) (f : Region → Region) (a : Nat) : (s.modRegion r f).byte a = s.byte a := rfl
@[simp] theorem State.marked_modRegion (r : Nat) (f : Region → Region) (a : Nat) : (s.modRegion r f).marked a = s.marked a := rfl

/-! #### State.setStack -/
@[simp] theorem State.setStack_mem (k : Nat) (x : Stack) : (s.setStack k x).mem = s.mem := rfl
@[simp] theorem State.setStack_marks (k : Nat) (x : Stack) : (s.setStack k x).marks = s.marks := rfl
@[simp] theorem State.setStack_org (k : Nat) (x : Stack) : (s.setStack k x).org = s.org := rfl
@[simp] theorem State.setStack_tiles (k : Nat) (x : Stack) : (s.setStack k x).tiles = s.tiles := rfl
@[simp] theorem State.setStack_regions (k : Nat) (x : Stack) : (s.setStack k x).regions = s.regions := rfl
@[simp] theorem State.setStack_net (k : Nat) (x : Stack) : (s.setStack k x).net = s.net := rfl
@[simp] theorem State.setStack_mmu (k : Nat) (x : Stack) : (s.setStack k x).mmu = s.mmu := rfl
@[simp] theorem State.setStack_host (k : Nat) (x : Stack) : (s.setStack k x).host = s.host := rfl
@[simp] theorem State.setStack_errs (k : Nat) (x : Stack) : (s.setStack k x).errs = s.errs := rfl
@[simp] theorem State.setStack_power (k : Nat) (x : Stack) : (s.setStack k x).power = s.power := rfl
@[simp] theorem State.setStack_start (k : Nat) (x : Stack) : (s.setStack k x).start = s.start := rfl
@[simp] theorem State.setStack_pins (k : Nat) (x : Stack) : (s.setStack k x).pins = s.pins := rfl
@[simp] theorem State.setStack_fabric (k : Nat) (x : Stack) : (s.setStack k x).fabric = s.fabric := rfl
@[simp] theorem State.setStack_fold (k : Nat) (x : Stack) : (s.setStack k x).fold = s.fold := rfl
@[simp] theorem State.setStack_ident (k : Nat) (x : Stack) : (s.setStack k x).ident = s.ident := rfl
@[simp] theorem State.setStack_events (k : Nat) (x : Stack) : (s.setStack k x).events = s.events := rfl
@[simp] theorem State.setStack_rates (k : Nat) (x : Stack) : (s.setStack k x).rates = s.rates := rfl
@[simp] theorem State.setStack_out (k : Nat) (x : Stack) : (s.setStack k x).out = s.out := rfl
@[simp] theorem State.setStack_time (k : Nat) (x : Stack) : (s.setStack k x).time = s.time := rfl
@[simp] theorem State.setStack_free (k : Nat) (x : Stack) : (s.setStack k x).free = s.free := rfl
@[simp] theorem State.setStack_pending (k : Nat) (x : Stack) : (s.setStack k x).pending = s.pending := rfl
@[simp] theorem State.tile_setStack (k : Nat) (x : Stack) (a : Nat) : (s.setStack k x).tile a = s.tile a := rfl
@[simp] theorem State.region_setStack (k : Nat) (x : Stack) (a : Nat) : (s.setStack k x).region a = s.region a := rfl
@[simp] theorem State.paddock_setStack (k : Nat) (x : Stack) (a : Nat) : (s.setStack k x).paddock a = s.paddock a := rfl
@[simp] theorem State.job_setStack (k : Nat) (x : Stack) (a : Nat) : (s.setStack k x).job a = s.job a := rfl
@[simp] theorem State.ctx_setStack (k : Nat) (x : Stack) (a : Nat) : (s.setStack k x).ctx a = s.ctx a := rfl
@[simp] theorem State.func_setStack (k : Nat) (x : Stack) (a : Nat) : (s.setStack k x).func a = s.func a := rfl
@[simp] theorem State.queue_setStack (k : Nat) (x : Stack) (a d : Nat) : (s.setStack k x).queue a d = s.queue a d := rfl
@[simp] theorem State.port_setStack (k : Nat) (x : Stack) (a : Nat) : (s.setStack k x).port a = s.port a := rfl
@[simp] theorem State.mmuCtx_setStack (k : Nat) (x : Stack) (a : Nat) : (s.setStack k x).mmuCtx a = s.mmuCtx a := rfl
@[simp] theorem State.router_setStack (k : Nat) (x : Stack) (a : Nat) : (s.setStack k x).router a = s.router a := rfl
@[simp] theorem State.core_setStack (k : Nat) (x : Stack) (a : CoreId) : (s.setStack k x).core a = s.core a := rfl
@[simp] theorem State.lamp_setStack (k : Nat) (x : Stack) (a : Nat) : (s.setStack k x).lamp a = s.lamp a := rfl
@[simp] theorem State.endpoint_setStack (k : Nat) (x : Stack) (a : Nat) : (s.setStack k x).endpoint a = s.endpoint a := rfl
@[simp] theorem State.mailbox_setStack (k : Nat) (x : Stack) (a : Nat) : (s.setStack k x).mailbox a = s.mailbox a := rfl
@[simp] theorem State.byte_setStack (k : Nat) (x : Stack) (a : Nat) : (s.setStack k x).byte a = s.byte a := rfl
@[simp] theorem State.marked_setStack (k : Nat) (x : Stack) (a : Nat) : (s.setStack k x).marked a = s.marked a := rfl

/-! #### State.modStack -/
@[simp] theorem State.modStack_mem (k : Nat) (f : Stack → Stack) : (s.modStack k f).mem = s.mem := rfl
@[simp] theorem State.modStack_marks (k : Nat) (f : Stack → Stack) : (s.modStack k f).marks = s.marks := rfl
@[simp] theorem State.modStack_org (k : Nat) (f : Stack → Stack) : (s.modStack k f).org = s.org := rfl
@[simp] theorem State.modStack_tiles (k : Nat) (f : Stack → Stack) : (s.modStack k f).tiles = s.tiles := rfl
@[simp] theorem State.modStack_regions (k : Nat) (f : Stack → Stack) : (s.modStack k f).regions = s.regions := rfl
@[simp] theorem State.modStack_net (k : Nat) (f : Stack → Stack) : (s.modStack k f).net = s.net := rfl
@[simp] theorem State.modStack_mmu (k : Nat) (f : Stack → Stack) : (s.modStack k f).mmu = s.mmu := rfl
@[simp] theorem State.modStack_host (k : Nat) (f : Stack → Stack) : (s.modStack k f).host = s.host := rfl
@[simp] theorem State.modStack_errs (k : Nat) (f : Stack → Stack) : (s.modStack k f).errs = s.errs := rfl
@[simp] theorem State.modStack_power (k : Nat) (f : Stack → Stack) : (s.modStack k f).power = s.power := rfl
@[simp] theorem State.modStack_start (k : Nat) (f : Stack → Stack) : (s.modStack k f).start = s.start := rfl
@[simp] theorem State.modStack_pins (k : Nat) (f : Stack → Stack) : (s.modStack k f).pins = s.pins := rfl
@[simp] theorem State.modStack_fabric (k : Nat) (f : Stack → Stack) : (s.modStack k f).fabric = s.fabric := rfl
@[simp] theorem State.modStack_fold (k : Nat) (f : Stack → Stack) : (s.modStack k f).fold = s.fold := rfl
@[simp] theorem State.modStack_ident (k : Nat) (f : Stack → Stack) : (s.modStack k f).ident = s.ident := rfl
@[simp] theorem State.modStack_events (k : Nat) (f : Stack → Stack) : (s.modStack k f).events = s.events := rfl
@[simp] theorem State.modStack_rates (k : Nat) (f : Stack → Stack) : (s.modStack k f).rates = s.rates := rfl
@[simp] theorem State.modStack_out (k : Nat) (f : Stack → Stack) : (s.modStack k f).out = s.out := rfl
@[simp] theorem State.modStack_time (k : Nat) (f : Stack → Stack) : (s.modStack k f).time = s.time := rfl
@[simp] theorem State.modStack_free (k : Nat) (f : Stack → Stack) : (s.modStack k f).free = s.free := rfl
@[simp] theorem State.modStack_pending (k : Nat) (f : Stack → Stack) : (s.modStack k f).pending = s.pending := rfl
@[simp] theorem State.tile_modStack (k : Nat) (f : Stack → Stack) (a : Nat) : (s.modStack k f).tile a = s.tile a := rfl
@[simp] theorem State.region_modStack (k : Nat) (f : Stack → Stack) (a : Nat) : (s.modStack k f).region a = s.region a := rfl
@[simp] theorem State.paddock_modStack (k : Nat) (f : Stack → Stack) (a : Nat) : (s.modStack k f).paddock a = s.paddock a := rfl
@[simp] theorem State.job_modStack (k : Nat) (f : Stack → Stack) (a : Nat) : (s.modStack k f).job a = s.job a := rfl
@[simp] theorem State.ctx_modStack (k : Nat) (f : Stack → Stack) (a : Nat) : (s.modStack k f).ctx a = s.ctx a := rfl
@[simp] theorem State.func_modStack (k : Nat) (f : Stack → Stack) (a : Nat) : (s.modStack k f).func a = s.func a := rfl
@[simp] theorem State.queue_modStack (k : Nat) (f : Stack → Stack) (a d : Nat) : (s.modStack k f).queue a d = s.queue a d := rfl
@[simp] theorem State.port_modStack (k : Nat) (f : Stack → Stack) (a : Nat) : (s.modStack k f).port a = s.port a := rfl
@[simp] theorem State.mmuCtx_modStack (k : Nat) (f : Stack → Stack) (a : Nat) : (s.modStack k f).mmuCtx a = s.mmuCtx a := rfl
@[simp] theorem State.router_modStack (k : Nat) (f : Stack → Stack) (a : Nat) : (s.modStack k f).router a = s.router a := rfl
@[simp] theorem State.core_modStack (k : Nat) (f : Stack → Stack) (a : CoreId) : (s.modStack k f).core a = s.core a := rfl
@[simp] theorem State.lamp_modStack (k : Nat) (f : Stack → Stack) (a : Nat) : (s.modStack k f).lamp a = s.lamp a := rfl
@[simp] theorem State.endpoint_modStack (k : Nat) (f : Stack → Stack) (a : Nat) : (s.modStack k f).endpoint a = s.endpoint a := rfl
@[simp] theorem State.mailbox_modStack (k : Nat) (f : Stack → Stack) (a : Nat) : (s.modStack k f).mailbox a = s.mailbox a := rfl
@[simp] theorem State.byte_modStack (k : Nat) (f : Stack → Stack) (a : Nat) : (s.modStack k f).byte a = s.byte a := rfl
@[simp] theorem State.marked_modStack (k : Nat) (f : Stack → Stack) (a : Nat) : (s.modStack k f).marked a = s.marked a := rfl

/-! #### State.setPaddock -/
@[simp] theorem State.setPaddock_mem (p : Nat) (x : Paddock) : (s.setPaddock p x).mem = s.mem := rfl
@[simp] theorem State.setPaddock_marks (p : Nat) (x : Paddock) : (s.setPaddock p x).marks = s.marks := rfl
@[simp] theorem State.setPaddock_org (p : Nat) (x : Paddock) : (s.setPaddock p x).org = s.org := rfl
@[simp] theorem State.setPaddock_tiles (p : Nat) (x : Paddock) : (s.setPaddock p x).tiles = s.tiles := rfl
@[simp] theorem State.setPaddock_regions (p : Nat) (x : Paddock) : (s.setPaddock p x).regions = s.regions := rfl
@[simp] theorem State.setPaddock_net (p : Nat) (x : Paddock) : (s.setPaddock p x).net = s.net := rfl
@[simp] theorem State.setPaddock_mmu (p : Nat) (x : Paddock) : (s.setPaddock p x).mmu = s.mmu := rfl
@[simp] theorem State.setPaddock_hbms (p : Nat) (x : Paddock) : (s.setPaddock p x).hbms = s.hbms := rfl
@[simp] theorem State.setPaddock_errs (p : Nat) (x : Paddock) : (s.setPaddock p x).errs = s.errs := rfl
@[simp] theorem State.setPaddock_power (p : Nat) (x : Paddock) : (s.setPaddock p x).power = s.power := rfl
@[simp] theorem State.setPaddock_start (p : Nat) (x : Paddock) : (s.setPaddock p x).start = s.start := rfl
@[simp] theorem State.setPaddock_pins (p : Nat) (x : Paddock) : (s.setPaddock p x).pins = s.pins := rfl
@[simp] theorem State.setPaddock_fabric (p : Nat) (x : Paddock) : (s.setPaddock p x).fabric = s.fabric := rfl
@[simp] theorem State.setPaddock_fold (p : Nat) (x : Paddock) : (s.setPaddock p x).fold = s.fold := rfl
@[simp] theorem State.setPaddock_ident (p : Nat) (x : Paddock) : (s.setPaddock p x).ident = s.ident := rfl
@[simp] theorem State.setPaddock_events (p : Nat) (x : Paddock) : (s.setPaddock p x).events = s.events := rfl
@[simp] theorem State.setPaddock_rates (p : Nat) (x : Paddock) : (s.setPaddock p x).rates = s.rates := rfl
@[simp] theorem State.setPaddock_out (p : Nat) (x : Paddock) : (s.setPaddock p x).out = s.out := rfl
@[simp] theorem State.setPaddock_time (p : Nat) (x : Paddock) : (s.setPaddock p x).time = s.time := rfl
@[simp] theorem State.setPaddock_free (p : Nat) (x : Paddock) : (s.setPaddock p x).free = s.free := rfl
@[simp] theorem State.setPaddock_pending (p : Nat) (x : Paddock) : (s.setPaddock p x).pending = s.pending := rfl
@[simp] theorem State.tile_setPaddock (p : Nat) (x : Paddock) (a : Nat) : (s.setPaddock p x).tile a = s.tile a := rfl
@[simp] theorem State.region_setPaddock (p : Nat) (x : Paddock) (a : Nat) : (s.setPaddock p x).region a = s.region a := rfl
@[simp] theorem State.stack_setPaddock (p : Nat) (x : Paddock) (a : Nat) : (s.setPaddock p x).stack a = s.stack a := rfl
@[simp] theorem State.job_setPaddock (p : Nat) (x : Paddock) (a : Nat) : (s.setPaddock p x).job a = s.job a := rfl
@[simp] theorem State.ctx_setPaddock (p : Nat) (x : Paddock) (a : Nat) : (s.setPaddock p x).ctx a = s.ctx a := rfl
@[simp] theorem State.func_setPaddock (p : Nat) (x : Paddock) (a : Nat) : (s.setPaddock p x).func a = s.func a := rfl
@[simp] theorem State.queue_setPaddock (p : Nat) (x : Paddock) (a d : Nat) : (s.setPaddock p x).queue a d = s.queue a d := rfl
@[simp] theorem State.port_setPaddock (p : Nat) (x : Paddock) (a : Nat) : (s.setPaddock p x).port a = s.port a := rfl
@[simp] theorem State.mmuCtx_setPaddock (p : Nat) (x : Paddock) (a : Nat) : (s.setPaddock p x).mmuCtx a = s.mmuCtx a := rfl
@[simp] theorem State.router_setPaddock (p : Nat) (x : Paddock) (a : Nat) : (s.setPaddock p x).router a = s.router a := rfl
@[simp] theorem State.core_setPaddock (p : Nat) (x : Paddock) (a : CoreId) : (s.setPaddock p x).core a = s.core a := rfl
@[simp] theorem State.lamp_setPaddock (p : Nat) (x : Paddock) (a : Nat) : (s.setPaddock p x).lamp a = s.lamp a := rfl
@[simp] theorem State.endpoint_setPaddock (p : Nat) (x : Paddock) (a : Nat) : (s.setPaddock p x).endpoint a = s.endpoint a := rfl
@[simp] theorem State.mailbox_setPaddock (p : Nat) (x : Paddock) (a : Nat) : (s.setPaddock p x).mailbox a = s.mailbox a := rfl
@[simp] theorem State.byte_setPaddock (p : Nat) (x : Paddock) (a : Nat) : (s.setPaddock p x).byte a = s.byte a := rfl
@[simp] theorem State.marked_setPaddock (p : Nat) (x : Paddock) (a : Nat) : (s.setPaddock p x).marked a = s.marked a := rfl

/-! #### State.modPaddock -/
@[simp] theorem State.modPaddock_mem (p : Nat) (f : Paddock → Paddock) : (s.modPaddock p f).mem = s.mem := rfl
@[simp] theorem State.modPaddock_marks (p : Nat) (f : Paddock → Paddock) : (s.modPaddock p f).marks = s.marks := rfl
@[simp] theorem State.modPaddock_org (p : Nat) (f : Paddock → Paddock) : (s.modPaddock p f).org = s.org := rfl
@[simp] theorem State.modPaddock_tiles (p : Nat) (f : Paddock → Paddock) : (s.modPaddock p f).tiles = s.tiles := rfl
@[simp] theorem State.modPaddock_regions (p : Nat) (f : Paddock → Paddock) : (s.modPaddock p f).regions = s.regions := rfl
@[simp] theorem State.modPaddock_net (p : Nat) (f : Paddock → Paddock) : (s.modPaddock p f).net = s.net := rfl
@[simp] theorem State.modPaddock_mmu (p : Nat) (f : Paddock → Paddock) : (s.modPaddock p f).mmu = s.mmu := rfl
@[simp] theorem State.modPaddock_hbms (p : Nat) (f : Paddock → Paddock) : (s.modPaddock p f).hbms = s.hbms := rfl
@[simp] theorem State.modPaddock_errs (p : Nat) (f : Paddock → Paddock) : (s.modPaddock p f).errs = s.errs := rfl
@[simp] theorem State.modPaddock_power (p : Nat) (f : Paddock → Paddock) : (s.modPaddock p f).power = s.power := rfl
@[simp] theorem State.modPaddock_start (p : Nat) (f : Paddock → Paddock) : (s.modPaddock p f).start = s.start := rfl
@[simp] theorem State.modPaddock_pins (p : Nat) (f : Paddock → Paddock) : (s.modPaddock p f).pins = s.pins := rfl
@[simp] theorem State.modPaddock_fabric (p : Nat) (f : Paddock → Paddock) : (s.modPaddock p f).fabric = s.fabric := rfl
@[simp] theorem State.modPaddock_fold (p : Nat) (f : Paddock → Paddock) : (s.modPaddock p f).fold = s.fold := rfl
@[simp] theorem State.modPaddock_ident (p : Nat) (f : Paddock → Paddock) : (s.modPaddock p f).ident = s.ident := rfl
@[simp] theorem State.modPaddock_events (p : Nat) (f : Paddock → Paddock) : (s.modPaddock p f).events = s.events := rfl
@[simp] theorem State.modPaddock_rates (p : Nat) (f : Paddock → Paddock) : (s.modPaddock p f).rates = s.rates := rfl
@[simp] theorem State.modPaddock_out (p : Nat) (f : Paddock → Paddock) : (s.modPaddock p f).out = s.out := rfl
@[simp] theorem State.modPaddock_time (p : Nat) (f : Paddock → Paddock) : (s.modPaddock p f).time = s.time := rfl
@[simp] theorem State.modPaddock_free (p : Nat) (f : Paddock → Paddock) : (s.modPaddock p f).free = s.free := rfl
@[simp] theorem State.modPaddock_pending (p : Nat) (f : Paddock → Paddock) : (s.modPaddock p f).pending = s.pending := rfl
@[simp] theorem State.tile_modPaddock (p : Nat) (f : Paddock → Paddock) (a : Nat) : (s.modPaddock p f).tile a = s.tile a := rfl
@[simp] theorem State.region_modPaddock (p : Nat) (f : Paddock → Paddock) (a : Nat) : (s.modPaddock p f).region a = s.region a := rfl
@[simp] theorem State.stack_modPaddock (p : Nat) (f : Paddock → Paddock) (a : Nat) : (s.modPaddock p f).stack a = s.stack a := rfl
@[simp] theorem State.job_modPaddock (p : Nat) (f : Paddock → Paddock) (a : Nat) : (s.modPaddock p f).job a = s.job a := rfl
@[simp] theorem State.ctx_modPaddock (p : Nat) (f : Paddock → Paddock) (a : Nat) : (s.modPaddock p f).ctx a = s.ctx a := rfl
@[simp] theorem State.func_modPaddock (p : Nat) (f : Paddock → Paddock) (a : Nat) : (s.modPaddock p f).func a = s.func a := rfl
@[simp] theorem State.queue_modPaddock (p : Nat) (f : Paddock → Paddock) (a d : Nat) : (s.modPaddock p f).queue a d = s.queue a d := rfl
@[simp] theorem State.port_modPaddock (p : Nat) (f : Paddock → Paddock) (a : Nat) : (s.modPaddock p f).port a = s.port a := rfl
@[simp] theorem State.mmuCtx_modPaddock (p : Nat) (f : Paddock → Paddock) (a : Nat) : (s.modPaddock p f).mmuCtx a = s.mmuCtx a := rfl
@[simp] theorem State.router_modPaddock (p : Nat) (f : Paddock → Paddock) (a : Nat) : (s.modPaddock p f).router a = s.router a := rfl
@[simp] theorem State.core_modPaddock (p : Nat) (f : Paddock → Paddock) (a : CoreId) : (s.modPaddock p f).core a = s.core a := rfl
@[simp] theorem State.lamp_modPaddock (p : Nat) (f : Paddock → Paddock) (a : Nat) : (s.modPaddock p f).lamp a = s.lamp a := rfl
@[simp] theorem State.endpoint_modPaddock (p : Nat) (f : Paddock → Paddock) (a : Nat) : (s.modPaddock p f).endpoint a = s.endpoint a := rfl
@[simp] theorem State.mailbox_modPaddock (p : Nat) (f : Paddock → Paddock) (a : Nat) : (s.modPaddock p f).mailbox a = s.mailbox a := rfl
@[simp] theorem State.byte_modPaddock (p : Nat) (f : Paddock → Paddock) (a : Nat) : (s.modPaddock p f).byte a = s.byte a := rfl
@[simp] theorem State.marked_modPaddock (p : Nat) (f : Paddock → Paddock) (a : Nat) : (s.modPaddock p f).marked a = s.marked a := rfl

/-! #### State.setJob -/
@[simp] theorem State.setJob_mem (j : Nat) (x : Job) : (s.setJob j x).mem = s.mem := rfl
@[simp] theorem State.setJob_marks (j : Nat) (x : Job) : (s.setJob j x).marks = s.marks := rfl
@[simp] theorem State.setJob_org (j : Nat) (x : Job) : (s.setJob j x).org = s.org := rfl
@[simp] theorem State.setJob_tiles (j : Nat) (x : Job) : (s.setJob j x).tiles = s.tiles := rfl
@[simp] theorem State.setJob_regions (j : Nat) (x : Job) : (s.setJob j x).regions = s.regions := rfl
@[simp] theorem State.setJob_net (j : Nat) (x : Job) : (s.setJob j x).net = s.net := rfl
@[simp] theorem State.setJob_mmu (j : Nat) (x : Job) : (s.setJob j x).mmu = s.mmu := rfl
@[simp] theorem State.setJob_hbms (j : Nat) (x : Job) : (s.setJob j x).hbms = s.hbms := rfl
@[simp] theorem State.setJob_errs (j : Nat) (x : Job) : (s.setJob j x).errs = s.errs := rfl
@[simp] theorem State.setJob_power (j : Nat) (x : Job) : (s.setJob j x).power = s.power := rfl
@[simp] theorem State.setJob_start (j : Nat) (x : Job) : (s.setJob j x).start = s.start := rfl
@[simp] theorem State.setJob_pins (j : Nat) (x : Job) : (s.setJob j x).pins = s.pins := rfl
@[simp] theorem State.setJob_fabric (j : Nat) (x : Job) : (s.setJob j x).fabric = s.fabric := rfl
@[simp] theorem State.setJob_fold (j : Nat) (x : Job) : (s.setJob j x).fold = s.fold := rfl
@[simp] theorem State.setJob_ident (j : Nat) (x : Job) : (s.setJob j x).ident = s.ident := rfl
@[simp] theorem State.setJob_events (j : Nat) (x : Job) : (s.setJob j x).events = s.events := rfl
@[simp] theorem State.setJob_rates (j : Nat) (x : Job) : (s.setJob j x).rates = s.rates := rfl
@[simp] theorem State.setJob_out (j : Nat) (x : Job) : (s.setJob j x).out = s.out := rfl
@[simp] theorem State.setJob_time (j : Nat) (x : Job) : (s.setJob j x).time = s.time := rfl
@[simp] theorem State.setJob_free (j : Nat) (x : Job) : (s.setJob j x).free = s.free := rfl
@[simp] theorem State.setJob_pending (j : Nat) (x : Job) : (s.setJob j x).pending = s.pending := rfl
@[simp] theorem State.tile_setJob (j : Nat) (x : Job) (a : Nat) : (s.setJob j x).tile a = s.tile a := rfl
@[simp] theorem State.region_setJob (j : Nat) (x : Job) (a : Nat) : (s.setJob j x).region a = s.region a := rfl
@[simp] theorem State.stack_setJob (j : Nat) (x : Job) (a : Nat) : (s.setJob j x).stack a = s.stack a := rfl
@[simp] theorem State.paddock_setJob (j : Nat) (x : Job) (a : Nat) : (s.setJob j x).paddock a = s.paddock a := rfl
@[simp] theorem State.ctx_setJob (j : Nat) (x : Job) (a : Nat) : (s.setJob j x).ctx a = s.ctx a := rfl
@[simp] theorem State.func_setJob (j : Nat) (x : Job) (a : Nat) : (s.setJob j x).func a = s.func a := rfl
@[simp] theorem State.queue_setJob (j : Nat) (x : Job) (a d : Nat) : (s.setJob j x).queue a d = s.queue a d := rfl
@[simp] theorem State.port_setJob (j : Nat) (x : Job) (a : Nat) : (s.setJob j x).port a = s.port a := rfl
@[simp] theorem State.mmuCtx_setJob (j : Nat) (x : Job) (a : Nat) : (s.setJob j x).mmuCtx a = s.mmuCtx a := rfl
@[simp] theorem State.router_setJob (j : Nat) (x : Job) (a : Nat) : (s.setJob j x).router a = s.router a := rfl
@[simp] theorem State.core_setJob (j : Nat) (x : Job) (a : CoreId) : (s.setJob j x).core a = s.core a := rfl
@[simp] theorem State.lamp_setJob (j : Nat) (x : Job) (a : Nat) : (s.setJob j x).lamp a = s.lamp a := rfl
@[simp] theorem State.endpoint_setJob (j : Nat) (x : Job) (a : Nat) : (s.setJob j x).endpoint a = s.endpoint a := rfl
@[simp] theorem State.mailbox_setJob (j : Nat) (x : Job) (a : Nat) : (s.setJob j x).mailbox a = s.mailbox a := rfl
@[simp] theorem State.byte_setJob (j : Nat) (x : Job) (a : Nat) : (s.setJob j x).byte a = s.byte a := rfl
@[simp] theorem State.marked_setJob (j : Nat) (x : Job) (a : Nat) : (s.setJob j x).marked a = s.marked a := rfl

/-! #### State.modJob -/
@[simp] theorem State.modJob_mem (j : Nat) (f : Job → Job) : (s.modJob j f).mem = s.mem := rfl
@[simp] theorem State.modJob_marks (j : Nat) (f : Job → Job) : (s.modJob j f).marks = s.marks := rfl
@[simp] theorem State.modJob_org (j : Nat) (f : Job → Job) : (s.modJob j f).org = s.org := rfl
@[simp] theorem State.modJob_tiles (j : Nat) (f : Job → Job) : (s.modJob j f).tiles = s.tiles := rfl
@[simp] theorem State.modJob_regions (j : Nat) (f : Job → Job) : (s.modJob j f).regions = s.regions := rfl
@[simp] theorem State.modJob_net (j : Nat) (f : Job → Job) : (s.modJob j f).net = s.net := rfl
@[simp] theorem State.modJob_mmu (j : Nat) (f : Job → Job) : (s.modJob j f).mmu = s.mmu := rfl
@[simp] theorem State.modJob_hbms (j : Nat) (f : Job → Job) : (s.modJob j f).hbms = s.hbms := rfl
@[simp] theorem State.modJob_errs (j : Nat) (f : Job → Job) : (s.modJob j f).errs = s.errs := rfl
@[simp] theorem State.modJob_power (j : Nat) (f : Job → Job) : (s.modJob j f).power = s.power := rfl
@[simp] theorem State.modJob_start (j : Nat) (f : Job → Job) : (s.modJob j f).start = s.start := rfl
@[simp] theorem State.modJob_pins (j : Nat) (f : Job → Job) : (s.modJob j f).pins = s.pins := rfl
@[simp] theorem State.modJob_fabric (j : Nat) (f : Job → Job) : (s.modJob j f).fabric = s.fabric := rfl
@[simp] theorem State.modJob_fold (j : Nat) (f : Job → Job) : (s.modJob j f).fold = s.fold := rfl
@[simp] theorem State.modJob_ident (j : Nat) (f : Job → Job) : (s.modJob j f).ident = s.ident := rfl
@[simp] theorem State.modJob_events (j : Nat) (f : Job → Job) : (s.modJob j f).events = s.events := rfl
@[simp] theorem State.modJob_rates (j : Nat) (f : Job → Job) : (s.modJob j f).rates = s.rates := rfl
@[simp] theorem State.modJob_out (j : Nat) (f : Job → Job) : (s.modJob j f).out = s.out := rfl
@[simp] theorem State.modJob_time (j : Nat) (f : Job → Job) : (s.modJob j f).time = s.time := rfl
@[simp] theorem State.modJob_free (j : Nat) (f : Job → Job) : (s.modJob j f).free = s.free := rfl
@[simp] theorem State.modJob_pending (j : Nat) (f : Job → Job) : (s.modJob j f).pending = s.pending := rfl
@[simp] theorem State.tile_modJob (j : Nat) (f : Job → Job) (a : Nat) : (s.modJob j f).tile a = s.tile a := rfl
@[simp] theorem State.region_modJob (j : Nat) (f : Job → Job) (a : Nat) : (s.modJob j f).region a = s.region a := rfl
@[simp] theorem State.stack_modJob (j : Nat) (f : Job → Job) (a : Nat) : (s.modJob j f).stack a = s.stack a := rfl
@[simp] theorem State.paddock_modJob (j : Nat) (f : Job → Job) (a : Nat) : (s.modJob j f).paddock a = s.paddock a := rfl
@[simp] theorem State.ctx_modJob (j : Nat) (f : Job → Job) (a : Nat) : (s.modJob j f).ctx a = s.ctx a := rfl
@[simp] theorem State.func_modJob (j : Nat) (f : Job → Job) (a : Nat) : (s.modJob j f).func a = s.func a := rfl
@[simp] theorem State.queue_modJob (j : Nat) (f : Job → Job) (a d : Nat) : (s.modJob j f).queue a d = s.queue a d := rfl
@[simp] theorem State.port_modJob (j : Nat) (f : Job → Job) (a : Nat) : (s.modJob j f).port a = s.port a := rfl
@[simp] theorem State.mmuCtx_modJob (j : Nat) (f : Job → Job) (a : Nat) : (s.modJob j f).mmuCtx a = s.mmuCtx a := rfl
@[simp] theorem State.router_modJob (j : Nat) (f : Job → Job) (a : Nat) : (s.modJob j f).router a = s.router a := rfl
@[simp] theorem State.core_modJob (j : Nat) (f : Job → Job) (a : CoreId) : (s.modJob j f).core a = s.core a := rfl
@[simp] theorem State.lamp_modJob (j : Nat) (f : Job → Job) (a : Nat) : (s.modJob j f).lamp a = s.lamp a := rfl
@[simp] theorem State.endpoint_modJob (j : Nat) (f : Job → Job) (a : Nat) : (s.modJob j f).endpoint a = s.endpoint a := rfl
@[simp] theorem State.mailbox_modJob (j : Nat) (f : Job → Job) (a : Nat) : (s.modJob j f).mailbox a = s.mailbox a := rfl
@[simp] theorem State.byte_modJob (j : Nat) (f : Job → Job) (a : Nat) : (s.modJob j f).byte a = s.byte a := rfl
@[simp] theorem State.marked_modJob (j : Nat) (f : Job → Job) (a : Nat) : (s.modJob j f).marked a = s.marked a := rfl

/-! #### State.setCtx -/
@[simp] theorem State.setCtx_mem (c : Nat) (x : Context) : (s.setCtx c x).mem = s.mem := rfl
@[simp] theorem State.setCtx_marks (c : Nat) (x : Context) : (s.setCtx c x).marks = s.marks := rfl
@[simp] theorem State.setCtx_org (c : Nat) (x : Context) : (s.setCtx c x).org = s.org := rfl
@[simp] theorem State.setCtx_tiles (c : Nat) (x : Context) : (s.setCtx c x).tiles = s.tiles := rfl
@[simp] theorem State.setCtx_regions (c : Nat) (x : Context) : (s.setCtx c x).regions = s.regions := rfl
@[simp] theorem State.setCtx_net (c : Nat) (x : Context) : (s.setCtx c x).net = s.net := rfl
@[simp] theorem State.setCtx_mmu (c : Nat) (x : Context) : (s.setCtx c x).mmu = s.mmu := rfl
@[simp] theorem State.setCtx_hbms (c : Nat) (x : Context) : (s.setCtx c x).hbms = s.hbms := rfl
@[simp] theorem State.setCtx_errs (c : Nat) (x : Context) : (s.setCtx c x).errs = s.errs := rfl
@[simp] theorem State.setCtx_power (c : Nat) (x : Context) : (s.setCtx c x).power = s.power := rfl
@[simp] theorem State.setCtx_start (c : Nat) (x : Context) : (s.setCtx c x).start = s.start := rfl
@[simp] theorem State.setCtx_pins (c : Nat) (x : Context) : (s.setCtx c x).pins = s.pins := rfl
@[simp] theorem State.setCtx_fabric (c : Nat) (x : Context) : (s.setCtx c x).fabric = s.fabric := rfl
@[simp] theorem State.setCtx_fold (c : Nat) (x : Context) : (s.setCtx c x).fold = s.fold := rfl
@[simp] theorem State.setCtx_ident (c : Nat) (x : Context) : (s.setCtx c x).ident = s.ident := rfl
@[simp] theorem State.setCtx_events (c : Nat) (x : Context) : (s.setCtx c x).events = s.events := rfl
@[simp] theorem State.setCtx_rates (c : Nat) (x : Context) : (s.setCtx c x).rates = s.rates := rfl
@[simp] theorem State.setCtx_out (c : Nat) (x : Context) : (s.setCtx c x).out = s.out := rfl
@[simp] theorem State.setCtx_time (c : Nat) (x : Context) : (s.setCtx c x).time = s.time := rfl
@[simp] theorem State.setCtx_free (c : Nat) (x : Context) : (s.setCtx c x).free = s.free := rfl
@[simp] theorem State.setCtx_pending (c : Nat) (x : Context) : (s.setCtx c x).pending = s.pending := rfl
@[simp] theorem State.tile_setCtx (c : Nat) (x : Context) (a : Nat) : (s.setCtx c x).tile a = s.tile a := rfl
@[simp] theorem State.region_setCtx (c : Nat) (x : Context) (a : Nat) : (s.setCtx c x).region a = s.region a := rfl
@[simp] theorem State.stack_setCtx (c : Nat) (x : Context) (a : Nat) : (s.setCtx c x).stack a = s.stack a := rfl
@[simp] theorem State.paddock_setCtx (c : Nat) (x : Context) (a : Nat) : (s.setCtx c x).paddock a = s.paddock a := rfl
@[simp] theorem State.job_setCtx (c : Nat) (x : Context) (a : Nat) : (s.setCtx c x).job a = s.job a := rfl
@[simp] theorem State.func_setCtx (c : Nat) (x : Context) (a : Nat) : (s.setCtx c x).func a = s.func a := rfl
@[simp] theorem State.queue_setCtx (c : Nat) (x : Context) (a d : Nat) : (s.setCtx c x).queue a d = s.queue a d := rfl
@[simp] theorem State.port_setCtx (c : Nat) (x : Context) (a : Nat) : (s.setCtx c x).port a = s.port a := rfl
@[simp] theorem State.mmuCtx_setCtx (c : Nat) (x : Context) (a : Nat) : (s.setCtx c x).mmuCtx a = s.mmuCtx a := rfl
@[simp] theorem State.router_setCtx (c : Nat) (x : Context) (a : Nat) : (s.setCtx c x).router a = s.router a := rfl
@[simp] theorem State.core_setCtx (c : Nat) (x : Context) (a : CoreId) : (s.setCtx c x).core a = s.core a := rfl
@[simp] theorem State.lamp_setCtx (c : Nat) (x : Context) (a : Nat) : (s.setCtx c x).lamp a = s.lamp a := rfl
@[simp] theorem State.endpoint_setCtx (c : Nat) (x : Context) (a : Nat) : (s.setCtx c x).endpoint a = s.endpoint a := rfl
@[simp] theorem State.mailbox_setCtx (c : Nat) (x : Context) (a : Nat) : (s.setCtx c x).mailbox a = s.mailbox a := rfl
@[simp] theorem State.byte_setCtx (c : Nat) (x : Context) (a : Nat) : (s.setCtx c x).byte a = s.byte a := rfl
@[simp] theorem State.marked_setCtx (c : Nat) (x : Context) (a : Nat) : (s.setCtx c x).marked a = s.marked a := rfl

/-! #### State.setFunc -/
@[simp] theorem State.setFunc_mem (n : Nat) (x : Func) : (s.setFunc n x).mem = s.mem := rfl
@[simp] theorem State.setFunc_marks (n : Nat) (x : Func) : (s.setFunc n x).marks = s.marks := rfl
@[simp] theorem State.setFunc_org (n : Nat) (x : Func) : (s.setFunc n x).org = s.org := rfl
@[simp] theorem State.setFunc_tiles (n : Nat) (x : Func) : (s.setFunc n x).tiles = s.tiles := rfl
@[simp] theorem State.setFunc_regions (n : Nat) (x : Func) : (s.setFunc n x).regions = s.regions := rfl
@[simp] theorem State.setFunc_net (n : Nat) (x : Func) : (s.setFunc n x).net = s.net := rfl
@[simp] theorem State.setFunc_mmu (n : Nat) (x : Func) : (s.setFunc n x).mmu = s.mmu := rfl
@[simp] theorem State.setFunc_hbms (n : Nat) (x : Func) : (s.setFunc n x).hbms = s.hbms := rfl
@[simp] theorem State.setFunc_errs (n : Nat) (x : Func) : (s.setFunc n x).errs = s.errs := rfl
@[simp] theorem State.setFunc_power (n : Nat) (x : Func) : (s.setFunc n x).power = s.power := rfl
@[simp] theorem State.setFunc_start (n : Nat) (x : Func) : (s.setFunc n x).start = s.start := rfl
@[simp] theorem State.setFunc_pins (n : Nat) (x : Func) : (s.setFunc n x).pins = s.pins := rfl
@[simp] theorem State.setFunc_fabric (n : Nat) (x : Func) : (s.setFunc n x).fabric = s.fabric := rfl
@[simp] theorem State.setFunc_fold (n : Nat) (x : Func) : (s.setFunc n x).fold = s.fold := rfl
@[simp] theorem State.setFunc_ident (n : Nat) (x : Func) : (s.setFunc n x).ident = s.ident := rfl
@[simp] theorem State.setFunc_events (n : Nat) (x : Func) : (s.setFunc n x).events = s.events := rfl
@[simp] theorem State.setFunc_rates (n : Nat) (x : Func) : (s.setFunc n x).rates = s.rates := rfl
@[simp] theorem State.setFunc_out (n : Nat) (x : Func) : (s.setFunc n x).out = s.out := rfl
@[simp] theorem State.setFunc_time (n : Nat) (x : Func) : (s.setFunc n x).time = s.time := rfl
@[simp] theorem State.setFunc_free (n : Nat) (x : Func) : (s.setFunc n x).free = s.free := rfl
@[simp] theorem State.setFunc_pending (n : Nat) (x : Func) : (s.setFunc n x).pending = s.pending := rfl
@[simp] theorem State.tile_setFunc (n : Nat) (x : Func) (a : Nat) : (s.setFunc n x).tile a = s.tile a := rfl
@[simp] theorem State.region_setFunc (n : Nat) (x : Func) (a : Nat) : (s.setFunc n x).region a = s.region a := rfl
@[simp] theorem State.stack_setFunc (n : Nat) (x : Func) (a : Nat) : (s.setFunc n x).stack a = s.stack a := rfl
@[simp] theorem State.paddock_setFunc (n : Nat) (x : Func) (a : Nat) : (s.setFunc n x).paddock a = s.paddock a := rfl
@[simp] theorem State.job_setFunc (n : Nat) (x : Func) (a : Nat) : (s.setFunc n x).job a = s.job a := rfl
@[simp] theorem State.ctx_setFunc (n : Nat) (x : Func) (a : Nat) : (s.setFunc n x).ctx a = s.ctx a := rfl
@[simp] theorem State.queue_setFunc (n : Nat) (x : Func) (a d : Nat) : (s.setFunc n x).queue a d = s.queue a d := rfl
@[simp] theorem State.port_setFunc (n : Nat) (x : Func) (a : Nat) : (s.setFunc n x).port a = s.port a := rfl
@[simp] theorem State.mmuCtx_setFunc (n : Nat) (x : Func) (a : Nat) : (s.setFunc n x).mmuCtx a = s.mmuCtx a := rfl
@[simp] theorem State.router_setFunc (n : Nat) (x : Func) (a : Nat) : (s.setFunc n x).router a = s.router a := rfl
@[simp] theorem State.core_setFunc (n : Nat) (x : Func) (a : CoreId) : (s.setFunc n x).core a = s.core a := rfl
@[simp] theorem State.lamp_setFunc (n : Nat) (x : Func) (a : Nat) : (s.setFunc n x).lamp a = s.lamp a := rfl
@[simp] theorem State.endpoint_setFunc (n : Nat) (x : Func) (a : Nat) : (s.setFunc n x).endpoint a = s.endpoint a := rfl
@[simp] theorem State.mailbox_setFunc (n : Nat) (x : Func) (a : Nat) : (s.setFunc n x).mailbox a = s.mailbox a := rfl
@[simp] theorem State.byte_setFunc (n : Nat) (x : Func) (a : Nat) : (s.setFunc n x).byte a = s.byte a := rfl
@[simp] theorem State.marked_setFunc (n : Nat) (x : Func) (a : Nat) : (s.setFunc n x).marked a = s.marked a := rfl

/-! #### State.modFunc -/
@[simp] theorem State.modFunc_mem (n : Nat) (f : Func → Func) : (s.modFunc n f).mem = s.mem := rfl
@[simp] theorem State.modFunc_marks (n : Nat) (f : Func → Func) : (s.modFunc n f).marks = s.marks := rfl
@[simp] theorem State.modFunc_org (n : Nat) (f : Func → Func) : (s.modFunc n f).org = s.org := rfl
@[simp] theorem State.modFunc_tiles (n : Nat) (f : Func → Func) : (s.modFunc n f).tiles = s.tiles := rfl
@[simp] theorem State.modFunc_regions (n : Nat) (f : Func → Func) : (s.modFunc n f).regions = s.regions := rfl
@[simp] theorem State.modFunc_net (n : Nat) (f : Func → Func) : (s.modFunc n f).net = s.net := rfl
@[simp] theorem State.modFunc_mmu (n : Nat) (f : Func → Func) : (s.modFunc n f).mmu = s.mmu := rfl
@[simp] theorem State.modFunc_hbms (n : Nat) (f : Func → Func) : (s.modFunc n f).hbms = s.hbms := rfl
@[simp] theorem State.modFunc_errs (n : Nat) (f : Func → Func) : (s.modFunc n f).errs = s.errs := rfl
@[simp] theorem State.modFunc_power (n : Nat) (f : Func → Func) : (s.modFunc n f).power = s.power := rfl
@[simp] theorem State.modFunc_start (n : Nat) (f : Func → Func) : (s.modFunc n f).start = s.start := rfl
@[simp] theorem State.modFunc_pins (n : Nat) (f : Func → Func) : (s.modFunc n f).pins = s.pins := rfl
@[simp] theorem State.modFunc_fabric (n : Nat) (f : Func → Func) : (s.modFunc n f).fabric = s.fabric := rfl
@[simp] theorem State.modFunc_fold (n : Nat) (f : Func → Func) : (s.modFunc n f).fold = s.fold := rfl
@[simp] theorem State.modFunc_ident (n : Nat) (f : Func → Func) : (s.modFunc n f).ident = s.ident := rfl
@[simp] theorem State.modFunc_events (n : Nat) (f : Func → Func) : (s.modFunc n f).events = s.events := rfl
@[simp] theorem State.modFunc_rates (n : Nat) (f : Func → Func) : (s.modFunc n f).rates = s.rates := rfl
@[simp] theorem State.modFunc_out (n : Nat) (f : Func → Func) : (s.modFunc n f).out = s.out := rfl
@[simp] theorem State.modFunc_time (n : Nat) (f : Func → Func) : (s.modFunc n f).time = s.time := rfl
@[simp] theorem State.modFunc_free (n : Nat) (f : Func → Func) : (s.modFunc n f).free = s.free := rfl
@[simp] theorem State.modFunc_pending (n : Nat) (f : Func → Func) : (s.modFunc n f).pending = s.pending := rfl
@[simp] theorem State.tile_modFunc (n : Nat) (f : Func → Func) (a : Nat) : (s.modFunc n f).tile a = s.tile a := rfl
@[simp] theorem State.region_modFunc (n : Nat) (f : Func → Func) (a : Nat) : (s.modFunc n f).region a = s.region a := rfl
@[simp] theorem State.stack_modFunc (n : Nat) (f : Func → Func) (a : Nat) : (s.modFunc n f).stack a = s.stack a := rfl
@[simp] theorem State.paddock_modFunc (n : Nat) (f : Func → Func) (a : Nat) : (s.modFunc n f).paddock a = s.paddock a := rfl
@[simp] theorem State.job_modFunc (n : Nat) (f : Func → Func) (a : Nat) : (s.modFunc n f).job a = s.job a := rfl
@[simp] theorem State.ctx_modFunc (n : Nat) (f : Func → Func) (a : Nat) : (s.modFunc n f).ctx a = s.ctx a := rfl
@[simp] theorem State.queue_modFunc (n : Nat) (f : Func → Func) (a d : Nat) : (s.modFunc n f).queue a d = s.queue a d := rfl
@[simp] theorem State.port_modFunc (n : Nat) (f : Func → Func) (a : Nat) : (s.modFunc n f).port a = s.port a := rfl
@[simp] theorem State.mmuCtx_modFunc (n : Nat) (f : Func → Func) (a : Nat) : (s.modFunc n f).mmuCtx a = s.mmuCtx a := rfl
@[simp] theorem State.router_modFunc (n : Nat) (f : Func → Func) (a : Nat) : (s.modFunc n f).router a = s.router a := rfl
@[simp] theorem State.core_modFunc (n : Nat) (f : Func → Func) (a : CoreId) : (s.modFunc n f).core a = s.core a := rfl
@[simp] theorem State.lamp_modFunc (n : Nat) (f : Func → Func) (a : Nat) : (s.modFunc n f).lamp a = s.lamp a := rfl
@[simp] theorem State.endpoint_modFunc (n : Nat) (f : Func → Func) (a : Nat) : (s.modFunc n f).endpoint a = s.endpoint a := rfl
@[simp] theorem State.mailbox_modFunc (n : Nat) (f : Func → Func) (a : Nat) : (s.modFunc n f).mailbox a = s.mailbox a := rfl
@[simp] theorem State.byte_modFunc (n : Nat) (f : Func → Func) (a : Nat) : (s.modFunc n f).byte a = s.byte a := rfl
@[simp] theorem State.marked_modFunc (n : Nat) (f : Func → Func) (a : Nat) : (s.modFunc n f).marked a = s.marked a := rfl

/-! #### State.setQueue -/
@[simp] theorem State.setQueue_mem (n q : Nat) (x : Queue) : (s.setQueue n q x).mem = s.mem := rfl
@[simp] theorem State.setQueue_marks (n q : Nat) (x : Queue) : (s.setQueue n q x).marks = s.marks := rfl
@[simp] theorem State.setQueue_org (n q : Nat) (x : Queue) : (s.setQueue n q x).org = s.org := rfl
@[simp] theorem State.setQueue_tiles (n q : Nat) (x : Queue) : (s.setQueue n q x).tiles = s.tiles := rfl
@[simp] theorem State.setQueue_regions (n q : Nat) (x : Queue) : (s.setQueue n q x).regions = s.regions := rfl
@[simp] theorem State.setQueue_net (n q : Nat) (x : Queue) : (s.setQueue n q x).net = s.net := rfl
@[simp] theorem State.setQueue_mmu (n q : Nat) (x : Queue) : (s.setQueue n q x).mmu = s.mmu := rfl
@[simp] theorem State.setQueue_hbms (n q : Nat) (x : Queue) : (s.setQueue n q x).hbms = s.hbms := rfl
@[simp] theorem State.setQueue_errs (n q : Nat) (x : Queue) : (s.setQueue n q x).errs = s.errs := rfl
@[simp] theorem State.setQueue_power (n q : Nat) (x : Queue) : (s.setQueue n q x).power = s.power := rfl
@[simp] theorem State.setQueue_start (n q : Nat) (x : Queue) : (s.setQueue n q x).start = s.start := rfl
@[simp] theorem State.setQueue_pins (n q : Nat) (x : Queue) : (s.setQueue n q x).pins = s.pins := rfl
@[simp] theorem State.setQueue_fabric (n q : Nat) (x : Queue) : (s.setQueue n q x).fabric = s.fabric := rfl
@[simp] theorem State.setQueue_fold (n q : Nat) (x : Queue) : (s.setQueue n q x).fold = s.fold := rfl
@[simp] theorem State.setQueue_ident (n q : Nat) (x : Queue) : (s.setQueue n q x).ident = s.ident := rfl
@[simp] theorem State.setQueue_events (n q : Nat) (x : Queue) : (s.setQueue n q x).events = s.events := rfl
@[simp] theorem State.setQueue_rates (n q : Nat) (x : Queue) : (s.setQueue n q x).rates = s.rates := rfl
@[simp] theorem State.setQueue_out (n q : Nat) (x : Queue) : (s.setQueue n q x).out = s.out := rfl
@[simp] theorem State.setQueue_time (n q : Nat) (x : Queue) : (s.setQueue n q x).time = s.time := rfl
@[simp] theorem State.setQueue_free (n q : Nat) (x : Queue) : (s.setQueue n q x).free = s.free := rfl
@[simp] theorem State.setQueue_pending (n q : Nat) (x : Queue) : (s.setQueue n q x).pending = s.pending := rfl
@[simp] theorem State.tile_setQueue (n q : Nat) (x : Queue) (a : Nat) : (s.setQueue n q x).tile a = s.tile a := rfl
@[simp] theorem State.region_setQueue (n q : Nat) (x : Queue) (a : Nat) : (s.setQueue n q x).region a = s.region a := rfl
@[simp] theorem State.stack_setQueue (n q : Nat) (x : Queue) (a : Nat) : (s.setQueue n q x).stack a = s.stack a := rfl
@[simp] theorem State.paddock_setQueue (n q : Nat) (x : Queue) (a : Nat) : (s.setQueue n q x).paddock a = s.paddock a := rfl
@[simp] theorem State.job_setQueue (n q : Nat) (x : Queue) (a : Nat) : (s.setQueue n q x).job a = s.job a := rfl
@[simp] theorem State.ctx_setQueue (n q : Nat) (x : Queue) (a : Nat) : (s.setQueue n q x).ctx a = s.ctx a := rfl
@[simp] theorem State.func_setQueue (n q : Nat) (x : Queue) (a : Nat) : (s.setQueue n q x).func a = s.func a := rfl
@[simp] theorem State.port_setQueue (n q : Nat) (x : Queue) (a : Nat) : (s.setQueue n q x).port a = s.port a := rfl
@[simp] theorem State.mmuCtx_setQueue (n q : Nat) (x : Queue) (a : Nat) : (s.setQueue n q x).mmuCtx a = s.mmuCtx a := rfl
@[simp] theorem State.router_setQueue (n q : Nat) (x : Queue) (a : Nat) : (s.setQueue n q x).router a = s.router a := rfl
@[simp] theorem State.core_setQueue (n q : Nat) (x : Queue) (a : CoreId) : (s.setQueue n q x).core a = s.core a := rfl
@[simp] theorem State.lamp_setQueue (n q : Nat) (x : Queue) (a : Nat) : (s.setQueue n q x).lamp a = s.lamp a := rfl
@[simp] theorem State.endpoint_setQueue (n q : Nat) (x : Queue) (a : Nat) : (s.setQueue n q x).endpoint a = s.endpoint a := rfl
@[simp] theorem State.mailbox_setQueue (n q : Nat) (x : Queue) (a : Nat) : (s.setQueue n q x).mailbox a = s.mailbox a := rfl
@[simp] theorem State.byte_setQueue (n q : Nat) (x : Queue) (a : Nat) : (s.setQueue n q x).byte a = s.byte a := rfl
@[simp] theorem State.marked_setQueue (n q : Nat) (x : Queue) (a : Nat) : (s.setQueue n q x).marked a = s.marked a := rfl

/-! #### State.modQueue -/
@[simp] theorem State.modQueue_mem (n q : Nat) (f : Queue → Queue) : (s.modQueue n q f).mem = s.mem := rfl
@[simp] theorem State.modQueue_marks (n q : Nat) (f : Queue → Queue) : (s.modQueue n q f).marks = s.marks := rfl
@[simp] theorem State.modQueue_org (n q : Nat) (f : Queue → Queue) : (s.modQueue n q f).org = s.org := rfl
@[simp] theorem State.modQueue_tiles (n q : Nat) (f : Queue → Queue) : (s.modQueue n q f).tiles = s.tiles := rfl
@[simp] theorem State.modQueue_regions (n q : Nat) (f : Queue → Queue) : (s.modQueue n q f).regions = s.regions := rfl
@[simp] theorem State.modQueue_net (n q : Nat) (f : Queue → Queue) : (s.modQueue n q f).net = s.net := rfl
@[simp] theorem State.modQueue_mmu (n q : Nat) (f : Queue → Queue) : (s.modQueue n q f).mmu = s.mmu := rfl
@[simp] theorem State.modQueue_hbms (n q : Nat) (f : Queue → Queue) : (s.modQueue n q f).hbms = s.hbms := rfl
@[simp] theorem State.modQueue_errs (n q : Nat) (f : Queue → Queue) : (s.modQueue n q f).errs = s.errs := rfl
@[simp] theorem State.modQueue_power (n q : Nat) (f : Queue → Queue) : (s.modQueue n q f).power = s.power := rfl
@[simp] theorem State.modQueue_start (n q : Nat) (f : Queue → Queue) : (s.modQueue n q f).start = s.start := rfl
@[simp] theorem State.modQueue_pins (n q : Nat) (f : Queue → Queue) : (s.modQueue n q f).pins = s.pins := rfl
@[simp] theorem State.modQueue_fabric (n q : Nat) (f : Queue → Queue) : (s.modQueue n q f).fabric = s.fabric := rfl
@[simp] theorem State.modQueue_fold (n q : Nat) (f : Queue → Queue) : (s.modQueue n q f).fold = s.fold := rfl
@[simp] theorem State.modQueue_ident (n q : Nat) (f : Queue → Queue) : (s.modQueue n q f).ident = s.ident := rfl
@[simp] theorem State.modQueue_events (n q : Nat) (f : Queue → Queue) : (s.modQueue n q f).events = s.events := rfl
@[simp] theorem State.modQueue_rates (n q : Nat) (f : Queue → Queue) : (s.modQueue n q f).rates = s.rates := rfl
@[simp] theorem State.modQueue_out (n q : Nat) (f : Queue → Queue) : (s.modQueue n q f).out = s.out := rfl
@[simp] theorem State.modQueue_time (n q : Nat) (f : Queue → Queue) : (s.modQueue n q f).time = s.time := rfl
@[simp] theorem State.modQueue_free (n q : Nat) (f : Queue → Queue) : (s.modQueue n q f).free = s.free := rfl
@[simp] theorem State.modQueue_pending (n q : Nat) (f : Queue → Queue) : (s.modQueue n q f).pending = s.pending := rfl
@[simp] theorem State.tile_modQueue (n q : Nat) (f : Queue → Queue) (a : Nat) : (s.modQueue n q f).tile a = s.tile a := rfl
@[simp] theorem State.region_modQueue (n q : Nat) (f : Queue → Queue) (a : Nat) : (s.modQueue n q f).region a = s.region a := rfl
@[simp] theorem State.stack_modQueue (n q : Nat) (f : Queue → Queue) (a : Nat) : (s.modQueue n q f).stack a = s.stack a := rfl
@[simp] theorem State.paddock_modQueue (n q : Nat) (f : Queue → Queue) (a : Nat) : (s.modQueue n q f).paddock a = s.paddock a := rfl
@[simp] theorem State.job_modQueue (n q : Nat) (f : Queue → Queue) (a : Nat) : (s.modQueue n q f).job a = s.job a := rfl
@[simp] theorem State.ctx_modQueue (n q : Nat) (f : Queue → Queue) (a : Nat) : (s.modQueue n q f).ctx a = s.ctx a := rfl
@[simp] theorem State.func_modQueue (n q : Nat) (f : Queue → Queue) (a : Nat) : (s.modQueue n q f).func a = s.func a := rfl
@[simp] theorem State.port_modQueue (n q : Nat) (f : Queue → Queue) (a : Nat) : (s.modQueue n q f).port a = s.port a := rfl
@[simp] theorem State.mmuCtx_modQueue (n q : Nat) (f : Queue → Queue) (a : Nat) : (s.modQueue n q f).mmuCtx a = s.mmuCtx a := rfl
@[simp] theorem State.router_modQueue (n q : Nat) (f : Queue → Queue) (a : Nat) : (s.modQueue n q f).router a = s.router a := rfl
@[simp] theorem State.core_modQueue (n q : Nat) (f : Queue → Queue) (a : CoreId) : (s.modQueue n q f).core a = s.core a := rfl
@[simp] theorem State.lamp_modQueue (n q : Nat) (f : Queue → Queue) (a : Nat) : (s.modQueue n q f).lamp a = s.lamp a := rfl
@[simp] theorem State.endpoint_modQueue (n q : Nat) (f : Queue → Queue) (a : Nat) : (s.modQueue n q f).endpoint a = s.endpoint a := rfl
@[simp] theorem State.mailbox_modQueue (n q : Nat) (f : Queue → Queue) (a : Nat) : (s.modQueue n q f).mailbox a = s.mailbox a := rfl
@[simp] theorem State.byte_modQueue (n q : Nat) (f : Queue → Queue) (a : Nat) : (s.modQueue n q f).byte a = s.byte a := rfl
@[simp] theorem State.marked_modQueue (n q : Nat) (f : Queue → Queue) (a : Nat) : (s.modQueue n q f).marked a = s.marked a := rfl

/-! #### State.setPort -/
@[simp] theorem State.setPort_mem (p : Nat) (x : HostPort) : (s.setPort p x).mem = s.mem := rfl
@[simp] theorem State.setPort_marks (p : Nat) (x : HostPort) : (s.setPort p x).marks = s.marks := rfl
@[simp] theorem State.setPort_org (p : Nat) (x : HostPort) : (s.setPort p x).org = s.org := rfl
@[simp] theorem State.setPort_tiles (p : Nat) (x : HostPort) : (s.setPort p x).tiles = s.tiles := rfl
@[simp] theorem State.setPort_regions (p : Nat) (x : HostPort) : (s.setPort p x).regions = s.regions := rfl
@[simp] theorem State.setPort_net (p : Nat) (x : HostPort) : (s.setPort p x).net = s.net := rfl
@[simp] theorem State.setPort_mmu (p : Nat) (x : HostPort) : (s.setPort p x).mmu = s.mmu := rfl
@[simp] theorem State.setPort_hbms (p : Nat) (x : HostPort) : (s.setPort p x).hbms = s.hbms := rfl
@[simp] theorem State.setPort_errs (p : Nat) (x : HostPort) : (s.setPort p x).errs = s.errs := rfl
@[simp] theorem State.setPort_power (p : Nat) (x : HostPort) : (s.setPort p x).power = s.power := rfl
@[simp] theorem State.setPort_start (p : Nat) (x : HostPort) : (s.setPort p x).start = s.start := rfl
@[simp] theorem State.setPort_pins (p : Nat) (x : HostPort) : (s.setPort p x).pins = s.pins := rfl
@[simp] theorem State.setPort_fabric (p : Nat) (x : HostPort) : (s.setPort p x).fabric = s.fabric := rfl
@[simp] theorem State.setPort_fold (p : Nat) (x : HostPort) : (s.setPort p x).fold = s.fold := rfl
@[simp] theorem State.setPort_ident (p : Nat) (x : HostPort) : (s.setPort p x).ident = s.ident := rfl
@[simp] theorem State.setPort_events (p : Nat) (x : HostPort) : (s.setPort p x).events = s.events := rfl
@[simp] theorem State.setPort_rates (p : Nat) (x : HostPort) : (s.setPort p x).rates = s.rates := rfl
@[simp] theorem State.setPort_out (p : Nat) (x : HostPort) : (s.setPort p x).out = s.out := rfl
@[simp] theorem State.setPort_time (p : Nat) (x : HostPort) : (s.setPort p x).time = s.time := rfl
@[simp] theorem State.setPort_free (p : Nat) (x : HostPort) : (s.setPort p x).free = s.free := rfl
@[simp] theorem State.setPort_pending (p : Nat) (x : HostPort) : (s.setPort p x).pending = s.pending := rfl
@[simp] theorem State.tile_setPort (p : Nat) (x : HostPort) (a : Nat) : (s.setPort p x).tile a = s.tile a := rfl
@[simp] theorem State.region_setPort (p : Nat) (x : HostPort) (a : Nat) : (s.setPort p x).region a = s.region a := rfl
@[simp] theorem State.stack_setPort (p : Nat) (x : HostPort) (a : Nat) : (s.setPort p x).stack a = s.stack a := rfl
@[simp] theorem State.paddock_setPort (p : Nat) (x : HostPort) (a : Nat) : (s.setPort p x).paddock a = s.paddock a := rfl
@[simp] theorem State.job_setPort (p : Nat) (x : HostPort) (a : Nat) : (s.setPort p x).job a = s.job a := rfl
@[simp] theorem State.ctx_setPort (p : Nat) (x : HostPort) (a : Nat) : (s.setPort p x).ctx a = s.ctx a := rfl
@[simp] theorem State.func_setPort (p : Nat) (x : HostPort) (a : Nat) : (s.setPort p x).func a = s.func a := rfl
@[simp] theorem State.queue_setPort (p : Nat) (x : HostPort) (a d : Nat) : (s.setPort p x).queue a d = s.queue a d := rfl
@[simp] theorem State.mmuCtx_setPort (p : Nat) (x : HostPort) (a : Nat) : (s.setPort p x).mmuCtx a = s.mmuCtx a := rfl
@[simp] theorem State.router_setPort (p : Nat) (x : HostPort) (a : Nat) : (s.setPort p x).router a = s.router a := rfl
@[simp] theorem State.core_setPort (p : Nat) (x : HostPort) (a : CoreId) : (s.setPort p x).core a = s.core a := rfl
@[simp] theorem State.lamp_setPort (p : Nat) (x : HostPort) (a : Nat) : (s.setPort p x).lamp a = s.lamp a := rfl
@[simp] theorem State.endpoint_setPort (p : Nat) (x : HostPort) (a : Nat) : (s.setPort p x).endpoint a = s.endpoint a := rfl
@[simp] theorem State.mailbox_setPort (p : Nat) (x : HostPort) (a : Nat) : (s.setPort p x).mailbox a = s.mailbox a := rfl
@[simp] theorem State.byte_setPort (p : Nat) (x : HostPort) (a : Nat) : (s.setPort p x).byte a = s.byte a := rfl
@[simp] theorem State.marked_setPort (p : Nat) (x : HostPort) (a : Nat) : (s.setPort p x).marked a = s.marked a := rfl

/-! #### State.setMmuCtx -/
@[simp] theorem State.setMmuCtx_mem (c : Nat) (x : MmuCtx) : (s.setMmuCtx c x).mem = s.mem := rfl
@[simp] theorem State.setMmuCtx_marks (c : Nat) (x : MmuCtx) : (s.setMmuCtx c x).marks = s.marks := rfl
@[simp] theorem State.setMmuCtx_org (c : Nat) (x : MmuCtx) : (s.setMmuCtx c x).org = s.org := rfl
@[simp] theorem State.setMmuCtx_tiles (c : Nat) (x : MmuCtx) : (s.setMmuCtx c x).tiles = s.tiles := rfl
@[simp] theorem State.setMmuCtx_regions (c : Nat) (x : MmuCtx) : (s.setMmuCtx c x).regions = s.regions := rfl
@[simp] theorem State.setMmuCtx_net (c : Nat) (x : MmuCtx) : (s.setMmuCtx c x).net = s.net := rfl
@[simp] theorem State.setMmuCtx_hbms (c : Nat) (x : MmuCtx) : (s.setMmuCtx c x).hbms = s.hbms := rfl
@[simp] theorem State.setMmuCtx_host (c : Nat) (x : MmuCtx) : (s.setMmuCtx c x).host = s.host := rfl
@[simp] theorem State.setMmuCtx_errs (c : Nat) (x : MmuCtx) : (s.setMmuCtx c x).errs = s.errs := rfl
@[simp] theorem State.setMmuCtx_power (c : Nat) (x : MmuCtx) : (s.setMmuCtx c x).power = s.power := rfl
@[simp] theorem State.setMmuCtx_start (c : Nat) (x : MmuCtx) : (s.setMmuCtx c x).start = s.start := rfl
@[simp] theorem State.setMmuCtx_pins (c : Nat) (x : MmuCtx) : (s.setMmuCtx c x).pins = s.pins := rfl
@[simp] theorem State.setMmuCtx_fabric (c : Nat) (x : MmuCtx) : (s.setMmuCtx c x).fabric = s.fabric := rfl
@[simp] theorem State.setMmuCtx_fold (c : Nat) (x : MmuCtx) : (s.setMmuCtx c x).fold = s.fold := rfl
@[simp] theorem State.setMmuCtx_ident (c : Nat) (x : MmuCtx) : (s.setMmuCtx c x).ident = s.ident := rfl
@[simp] theorem State.setMmuCtx_events (c : Nat) (x : MmuCtx) : (s.setMmuCtx c x).events = s.events := rfl
@[simp] theorem State.setMmuCtx_rates (c : Nat) (x : MmuCtx) : (s.setMmuCtx c x).rates = s.rates := rfl
@[simp] theorem State.setMmuCtx_out (c : Nat) (x : MmuCtx) : (s.setMmuCtx c x).out = s.out := rfl
@[simp] theorem State.setMmuCtx_time (c : Nat) (x : MmuCtx) : (s.setMmuCtx c x).time = s.time := rfl
@[simp] theorem State.setMmuCtx_free (c : Nat) (x : MmuCtx) : (s.setMmuCtx c x).free = s.free := rfl
@[simp] theorem State.setMmuCtx_pending (c : Nat) (x : MmuCtx) : (s.setMmuCtx c x).pending = s.pending := rfl
@[simp] theorem State.tile_setMmuCtx (c : Nat) (x : MmuCtx) (a : Nat) : (s.setMmuCtx c x).tile a = s.tile a := rfl
@[simp] theorem State.region_setMmuCtx (c : Nat) (x : MmuCtx) (a : Nat) : (s.setMmuCtx c x).region a = s.region a := rfl
@[simp] theorem State.stack_setMmuCtx (c : Nat) (x : MmuCtx) (a : Nat) : (s.setMmuCtx c x).stack a = s.stack a := rfl
@[simp] theorem State.paddock_setMmuCtx (c : Nat) (x : MmuCtx) (a : Nat) : (s.setMmuCtx c x).paddock a = s.paddock a := rfl
@[simp] theorem State.job_setMmuCtx (c : Nat) (x : MmuCtx) (a : Nat) : (s.setMmuCtx c x).job a = s.job a := rfl
@[simp] theorem State.ctx_setMmuCtx (c : Nat) (x : MmuCtx) (a : Nat) : (s.setMmuCtx c x).ctx a = s.ctx a := rfl
@[simp] theorem State.func_setMmuCtx (c : Nat) (x : MmuCtx) (a : Nat) : (s.setMmuCtx c x).func a = s.func a := rfl
@[simp] theorem State.queue_setMmuCtx (c : Nat) (x : MmuCtx) (a d : Nat) : (s.setMmuCtx c x).queue a d = s.queue a d := rfl
@[simp] theorem State.port_setMmuCtx (c : Nat) (x : MmuCtx) (a : Nat) : (s.setMmuCtx c x).port a = s.port a := rfl
@[simp] theorem State.router_setMmuCtx (c : Nat) (x : MmuCtx) (a : Nat) : (s.setMmuCtx c x).router a = s.router a := rfl
@[simp] theorem State.core_setMmuCtx (c : Nat) (x : MmuCtx) (a : CoreId) : (s.setMmuCtx c x).core a = s.core a := rfl
@[simp] theorem State.lamp_setMmuCtx (c : Nat) (x : MmuCtx) (a : Nat) : (s.setMmuCtx c x).lamp a = s.lamp a := rfl
@[simp] theorem State.endpoint_setMmuCtx (c : Nat) (x : MmuCtx) (a : Nat) : (s.setMmuCtx c x).endpoint a = s.endpoint a := rfl
@[simp] theorem State.mailbox_setMmuCtx (c : Nat) (x : MmuCtx) (a : Nat) : (s.setMmuCtx c x).mailbox a = s.mailbox a := rfl
@[simp] theorem State.byte_setMmuCtx (c : Nat) (x : MmuCtx) (a : Nat) : (s.setMmuCtx c x).byte a = s.byte a := rfl
@[simp] theorem State.marked_setMmuCtx (c : Nat) (x : MmuCtx) (a : Nat) : (s.setMmuCtx c x).marked a = s.marked a := rfl

/-! #### State.setRouter -/
@[simp] theorem State.setRouter_mem (t : Nat) (x : Router) : (s.setRouter t x).mem = s.mem := rfl
@[simp] theorem State.setRouter_marks (t : Nat) (x : Router) : (s.setRouter t x).marks = s.marks := rfl
@[simp] theorem State.setRouter_org (t : Nat) (x : Router) : (s.setRouter t x).org = s.org := rfl
@[simp] theorem State.setRouter_tiles (t : Nat) (x : Router) : (s.setRouter t x).tiles = s.tiles := rfl
@[simp] theorem State.setRouter_regions (t : Nat) (x : Router) : (s.setRouter t x).regions = s.regions := rfl
@[simp] theorem State.setRouter_mmu (t : Nat) (x : Router) : (s.setRouter t x).mmu = s.mmu := rfl
@[simp] theorem State.setRouter_hbms (t : Nat) (x : Router) : (s.setRouter t x).hbms = s.hbms := rfl
@[simp] theorem State.setRouter_host (t : Nat) (x : Router) : (s.setRouter t x).host = s.host := rfl
@[simp] theorem State.setRouter_errs (t : Nat) (x : Router) : (s.setRouter t x).errs = s.errs := rfl
@[simp] theorem State.setRouter_power (t : Nat) (x : Router) : (s.setRouter t x).power = s.power := rfl
@[simp] theorem State.setRouter_start (t : Nat) (x : Router) : (s.setRouter t x).start = s.start := rfl
@[simp] theorem State.setRouter_pins (t : Nat) (x : Router) : (s.setRouter t x).pins = s.pins := rfl
@[simp] theorem State.setRouter_fabric (t : Nat) (x : Router) : (s.setRouter t x).fabric = s.fabric := rfl
@[simp] theorem State.setRouter_fold (t : Nat) (x : Router) : (s.setRouter t x).fold = s.fold := rfl
@[simp] theorem State.setRouter_ident (t : Nat) (x : Router) : (s.setRouter t x).ident = s.ident := rfl
@[simp] theorem State.setRouter_events (t : Nat) (x : Router) : (s.setRouter t x).events = s.events := rfl
@[simp] theorem State.setRouter_rates (t : Nat) (x : Router) : (s.setRouter t x).rates = s.rates := rfl
@[simp] theorem State.setRouter_out (t : Nat) (x : Router) : (s.setRouter t x).out = s.out := rfl
@[simp] theorem State.setRouter_time (t : Nat) (x : Router) : (s.setRouter t x).time = s.time := rfl
@[simp] theorem State.setRouter_free (t : Nat) (x : Router) : (s.setRouter t x).free = s.free := rfl
@[simp] theorem State.setRouter_pending (t : Nat) (x : Router) : (s.setRouter t x).pending = s.pending := rfl
@[simp] theorem State.tile_setRouter (t : Nat) (x : Router) (a : Nat) : (s.setRouter t x).tile a = s.tile a := rfl
@[simp] theorem State.region_setRouter (t : Nat) (x : Router) (a : Nat) : (s.setRouter t x).region a = s.region a := rfl
@[simp] theorem State.stack_setRouter (t : Nat) (x : Router) (a : Nat) : (s.setRouter t x).stack a = s.stack a := rfl
@[simp] theorem State.paddock_setRouter (t : Nat) (x : Router) (a : Nat) : (s.setRouter t x).paddock a = s.paddock a := rfl
@[simp] theorem State.job_setRouter (t : Nat) (x : Router) (a : Nat) : (s.setRouter t x).job a = s.job a := rfl
@[simp] theorem State.ctx_setRouter (t : Nat) (x : Router) (a : Nat) : (s.setRouter t x).ctx a = s.ctx a := rfl
@[simp] theorem State.func_setRouter (t : Nat) (x : Router) (a : Nat) : (s.setRouter t x).func a = s.func a := rfl
@[simp] theorem State.queue_setRouter (t : Nat) (x : Router) (a d : Nat) : (s.setRouter t x).queue a d = s.queue a d := rfl
@[simp] theorem State.port_setRouter (t : Nat) (x : Router) (a : Nat) : (s.setRouter t x).port a = s.port a := rfl
@[simp] theorem State.mmuCtx_setRouter (t : Nat) (x : Router) (a : Nat) : (s.setRouter t x).mmuCtx a = s.mmuCtx a := rfl
@[simp] theorem State.core_setRouter (t : Nat) (x : Router) (a : CoreId) : (s.setRouter t x).core a = s.core a := rfl
@[simp] theorem State.lamp_setRouter (t : Nat) (x : Router) (a : Nat) : (s.setRouter t x).lamp a = s.lamp a := rfl
@[simp] theorem State.endpoint_setRouter (t : Nat) (x : Router) (a : Nat) : (s.setRouter t x).endpoint a = s.endpoint a := rfl
@[simp] theorem State.mailbox_setRouter (t : Nat) (x : Router) (a : Nat) : (s.setRouter t x).mailbox a = s.mailbox a := rfl
@[simp] theorem State.byte_setRouter (t : Nat) (x : Router) (a : Nat) : (s.setRouter t x).byte a = s.byte a := rfl
@[simp] theorem State.marked_setRouter (t : Nat) (x : Router) (a : Nat) : (s.setRouter t x).marked a = s.marked a := rfl

/-! #### State.modRouter -/
@[simp] theorem State.modRouter_mem (t : Nat) (f : Router → Router) : (s.modRouter t f).mem = s.mem := rfl
@[simp] theorem State.modRouter_marks (t : Nat) (f : Router → Router) : (s.modRouter t f).marks = s.marks := rfl
@[simp] theorem State.modRouter_org (t : Nat) (f : Router → Router) : (s.modRouter t f).org = s.org := rfl
@[simp] theorem State.modRouter_tiles (t : Nat) (f : Router → Router) : (s.modRouter t f).tiles = s.tiles := rfl
@[simp] theorem State.modRouter_regions (t : Nat) (f : Router → Router) : (s.modRouter t f).regions = s.regions := rfl
@[simp] theorem State.modRouter_mmu (t : Nat) (f : Router → Router) : (s.modRouter t f).mmu = s.mmu := rfl
@[simp] theorem State.modRouter_hbms (t : Nat) (f : Router → Router) : (s.modRouter t f).hbms = s.hbms := rfl
@[simp] theorem State.modRouter_host (t : Nat) (f : Router → Router) : (s.modRouter t f).host = s.host := rfl
@[simp] theorem State.modRouter_errs (t : Nat) (f : Router → Router) : (s.modRouter t f).errs = s.errs := rfl
@[simp] theorem State.modRouter_power (t : Nat) (f : Router → Router) : (s.modRouter t f).power = s.power := rfl
@[simp] theorem State.modRouter_start (t : Nat) (f : Router → Router) : (s.modRouter t f).start = s.start := rfl
@[simp] theorem State.modRouter_pins (t : Nat) (f : Router → Router) : (s.modRouter t f).pins = s.pins := rfl
@[simp] theorem State.modRouter_fabric (t : Nat) (f : Router → Router) : (s.modRouter t f).fabric = s.fabric := rfl
@[simp] theorem State.modRouter_fold (t : Nat) (f : Router → Router) : (s.modRouter t f).fold = s.fold := rfl
@[simp] theorem State.modRouter_ident (t : Nat) (f : Router → Router) : (s.modRouter t f).ident = s.ident := rfl
@[simp] theorem State.modRouter_events (t : Nat) (f : Router → Router) : (s.modRouter t f).events = s.events := rfl
@[simp] theorem State.modRouter_rates (t : Nat) (f : Router → Router) : (s.modRouter t f).rates = s.rates := rfl
@[simp] theorem State.modRouter_out (t : Nat) (f : Router → Router) : (s.modRouter t f).out = s.out := rfl
@[simp] theorem State.modRouter_time (t : Nat) (f : Router → Router) : (s.modRouter t f).time = s.time := rfl
@[simp] theorem State.modRouter_free (t : Nat) (f : Router → Router) : (s.modRouter t f).free = s.free := rfl
@[simp] theorem State.modRouter_pending (t : Nat) (f : Router → Router) : (s.modRouter t f).pending = s.pending := rfl
@[simp] theorem State.tile_modRouter (t : Nat) (f : Router → Router) (a : Nat) : (s.modRouter t f).tile a = s.tile a := rfl
@[simp] theorem State.region_modRouter (t : Nat) (f : Router → Router) (a : Nat) : (s.modRouter t f).region a = s.region a := rfl
@[simp] theorem State.stack_modRouter (t : Nat) (f : Router → Router) (a : Nat) : (s.modRouter t f).stack a = s.stack a := rfl
@[simp] theorem State.paddock_modRouter (t : Nat) (f : Router → Router) (a : Nat) : (s.modRouter t f).paddock a = s.paddock a := rfl
@[simp] theorem State.job_modRouter (t : Nat) (f : Router → Router) (a : Nat) : (s.modRouter t f).job a = s.job a := rfl
@[simp] theorem State.ctx_modRouter (t : Nat) (f : Router → Router) (a : Nat) : (s.modRouter t f).ctx a = s.ctx a := rfl
@[simp] theorem State.func_modRouter (t : Nat) (f : Router → Router) (a : Nat) : (s.modRouter t f).func a = s.func a := rfl
@[simp] theorem State.queue_modRouter (t : Nat) (f : Router → Router) (a d : Nat) : (s.modRouter t f).queue a d = s.queue a d := rfl
@[simp] theorem State.port_modRouter (t : Nat) (f : Router → Router) (a : Nat) : (s.modRouter t f).port a = s.port a := rfl
@[simp] theorem State.mmuCtx_modRouter (t : Nat) (f : Router → Router) (a : Nat) : (s.modRouter t f).mmuCtx a = s.mmuCtx a := rfl
@[simp] theorem State.core_modRouter (t : Nat) (f : Router → Router) (a : CoreId) : (s.modRouter t f).core a = s.core a := rfl
@[simp] theorem State.lamp_modRouter (t : Nat) (f : Router → Router) (a : Nat) : (s.modRouter t f).lamp a = s.lamp a := rfl
@[simp] theorem State.endpoint_modRouter (t : Nat) (f : Router → Router) (a : Nat) : (s.modRouter t f).endpoint a = s.endpoint a := rfl
@[simp] theorem State.mailbox_modRouter (t : Nat) (f : Router → Router) (a : Nat) : (s.modRouter t f).mailbox a = s.mailbox a := rfl
@[simp] theorem State.byte_modRouter (t : Nat) (f : Router → Router) (a : Nat) : (s.modRouter t f).byte a = s.byte a := rfl
@[simp] theorem State.marked_modRouter (t : Nat) (f : Router → Router) (a : Nat) : (s.modRouter t f).marked a = s.marked a := rfl

/-! #### State.setCore -/
@[simp] theorem State.setCore_mem (u : CoreId) (c : Core) : (s.setCore u c).mem = s.mem := rfl
@[simp] theorem State.setCore_marks (u : CoreId) (c : Core) : (s.setCore u c).marks = s.marks := rfl
@[simp] theorem State.setCore_org (u : CoreId) (c : Core) : (s.setCore u c).org = s.org := rfl
@[simp] theorem State.setCore_regions (u : CoreId) (c : Core) : (s.setCore u c).regions = s.regions := rfl
@[simp] theorem State.setCore_net (u : CoreId) (c : Core) : (s.setCore u c).net = s.net := rfl
@[simp] theorem State.setCore_mmu (u : CoreId) (c : Core) : (s.setCore u c).mmu = s.mmu := rfl
@[simp] theorem State.setCore_hbms (u : CoreId) (c : Core) : (s.setCore u c).hbms = s.hbms := rfl
@[simp] theorem State.setCore_host (u : CoreId) (c : Core) : (s.setCore u c).host = s.host := rfl
@[simp] theorem State.setCore_errs (u : CoreId) (c : Core) : (s.setCore u c).errs = s.errs := rfl
@[simp] theorem State.setCore_power (u : CoreId) (c : Core) : (s.setCore u c).power = s.power := rfl
@[simp] theorem State.setCore_start (u : CoreId) (c : Core) : (s.setCore u c).start = s.start := rfl
@[simp] theorem State.setCore_pins (u : CoreId) (c : Core) : (s.setCore u c).pins = s.pins := rfl
@[simp] theorem State.setCore_fabric (u : CoreId) (c : Core) : (s.setCore u c).fabric = s.fabric := rfl
@[simp] theorem State.setCore_fold (u : CoreId) (c : Core) : (s.setCore u c).fold = s.fold := rfl
@[simp] theorem State.setCore_ident (u : CoreId) (c : Core) : (s.setCore u c).ident = s.ident := rfl
@[simp] theorem State.setCore_events (u : CoreId) (c : Core) : (s.setCore u c).events = s.events := rfl
@[simp] theorem State.setCore_rates (u : CoreId) (c : Core) : (s.setCore u c).rates = s.rates := rfl
@[simp] theorem State.setCore_out (u : CoreId) (c : Core) : (s.setCore u c).out = s.out := rfl
@[simp] theorem State.setCore_time (u : CoreId) (c : Core) : (s.setCore u c).time = s.time := rfl
@[simp] theorem State.setCore_free (u : CoreId) (c : Core) : (s.setCore u c).free = s.free := rfl
@[simp] theorem State.setCore_pending (u : CoreId) (c : Core) : (s.setCore u c).pending = s.pending := rfl
@[simp] theorem State.region_setCore (u : CoreId) (c : Core) (a : Nat) : (s.setCore u c).region a = s.region a := rfl
@[simp] theorem State.stack_setCore (u : CoreId) (c : Core) (a : Nat) : (s.setCore u c).stack a = s.stack a := rfl
@[simp] theorem State.paddock_setCore (u : CoreId) (c : Core) (a : Nat) : (s.setCore u c).paddock a = s.paddock a := rfl
@[simp] theorem State.job_setCore (u : CoreId) (c : Core) (a : Nat) : (s.setCore u c).job a = s.job a := rfl
@[simp] theorem State.ctx_setCore (u : CoreId) (c : Core) (a : Nat) : (s.setCore u c).ctx a = s.ctx a := rfl
@[simp] theorem State.func_setCore (u : CoreId) (c : Core) (a : Nat) : (s.setCore u c).func a = s.func a := rfl
@[simp] theorem State.queue_setCore (u : CoreId) (c : Core) (a d : Nat) : (s.setCore u c).queue a d = s.queue a d := rfl
@[simp] theorem State.port_setCore (u : CoreId) (c : Core) (a : Nat) : (s.setCore u c).port a = s.port a := rfl
@[simp] theorem State.mmuCtx_setCore (u : CoreId) (c : Core) (a : Nat) : (s.setCore u c).mmuCtx a = s.mmuCtx a := rfl
@[simp] theorem State.router_setCore (u : CoreId) (c : Core) (a : Nat) : (s.setCore u c).router a = s.router a := rfl
@[simp] theorem State.lamp_setCore (u : CoreId) (c : Core) (a : Nat) : (s.setCore u c).lamp a = s.lamp a := rfl
@[simp] theorem State.endpoint_setCore (u : CoreId) (c : Core) (a : Nat) : (s.setCore u c).endpoint a = s.endpoint a := rfl
@[simp] theorem State.mailbox_setCore (u : CoreId) (c : Core) (a : Nat) : (s.setCore u c).mailbox a = s.mailbox a := rfl
@[simp] theorem State.byte_setCore (u : CoreId) (c : Core) (a : Nat) : (s.setCore u c).byte a = s.byte a := rfl
@[simp] theorem State.marked_setCore (u : CoreId) (c : Core) (a : Nat) : (s.setCore u c).marked a = s.marked a := rfl

/-! #### State.modCore -/
@[simp] theorem State.modCore_mem (u : CoreId) (f : Core → Core) : (s.modCore u f).mem = s.mem := rfl
@[simp] theorem State.modCore_marks (u : CoreId) (f : Core → Core) : (s.modCore u f).marks = s.marks := rfl
@[simp] theorem State.modCore_org (u : CoreId) (f : Core → Core) : (s.modCore u f).org = s.org := rfl
@[simp] theorem State.modCore_regions (u : CoreId) (f : Core → Core) : (s.modCore u f).regions = s.regions := rfl
@[simp] theorem State.modCore_net (u : CoreId) (f : Core → Core) : (s.modCore u f).net = s.net := rfl
@[simp] theorem State.modCore_mmu (u : CoreId) (f : Core → Core) : (s.modCore u f).mmu = s.mmu := rfl
@[simp] theorem State.modCore_hbms (u : CoreId) (f : Core → Core) : (s.modCore u f).hbms = s.hbms := rfl
@[simp] theorem State.modCore_host (u : CoreId) (f : Core → Core) : (s.modCore u f).host = s.host := rfl
@[simp] theorem State.modCore_errs (u : CoreId) (f : Core → Core) : (s.modCore u f).errs = s.errs := rfl
@[simp] theorem State.modCore_power (u : CoreId) (f : Core → Core) : (s.modCore u f).power = s.power := rfl
@[simp] theorem State.modCore_start (u : CoreId) (f : Core → Core) : (s.modCore u f).start = s.start := rfl
@[simp] theorem State.modCore_pins (u : CoreId) (f : Core → Core) : (s.modCore u f).pins = s.pins := rfl
@[simp] theorem State.modCore_fabric (u : CoreId) (f : Core → Core) : (s.modCore u f).fabric = s.fabric := rfl
@[simp] theorem State.modCore_fold (u : CoreId) (f : Core → Core) : (s.modCore u f).fold = s.fold := rfl
@[simp] theorem State.modCore_ident (u : CoreId) (f : Core → Core) : (s.modCore u f).ident = s.ident := rfl
@[simp] theorem State.modCore_events (u : CoreId) (f : Core → Core) : (s.modCore u f).events = s.events := rfl
@[simp] theorem State.modCore_rates (u : CoreId) (f : Core → Core) : (s.modCore u f).rates = s.rates := rfl
@[simp] theorem State.modCore_out (u : CoreId) (f : Core → Core) : (s.modCore u f).out = s.out := rfl
@[simp] theorem State.modCore_time (u : CoreId) (f : Core → Core) : (s.modCore u f).time = s.time := rfl
@[simp] theorem State.modCore_free (u : CoreId) (f : Core → Core) : (s.modCore u f).free = s.free := rfl
@[simp] theorem State.modCore_pending (u : CoreId) (f : Core → Core) : (s.modCore u f).pending = s.pending := rfl
@[simp] theorem State.region_modCore (u : CoreId) (f : Core → Core) (a : Nat) : (s.modCore u f).region a = s.region a := rfl
@[simp] theorem State.stack_modCore (u : CoreId) (f : Core → Core) (a : Nat) : (s.modCore u f).stack a = s.stack a := rfl
@[simp] theorem State.paddock_modCore (u : CoreId) (f : Core → Core) (a : Nat) : (s.modCore u f).paddock a = s.paddock a := rfl
@[simp] theorem State.job_modCore (u : CoreId) (f : Core → Core) (a : Nat) : (s.modCore u f).job a = s.job a := rfl
@[simp] theorem State.ctx_modCore (u : CoreId) (f : Core → Core) (a : Nat) : (s.modCore u f).ctx a = s.ctx a := rfl
@[simp] theorem State.func_modCore (u : CoreId) (f : Core → Core) (a : Nat) : (s.modCore u f).func a = s.func a := rfl
@[simp] theorem State.queue_modCore (u : CoreId) (f : Core → Core) (a d : Nat) : (s.modCore u f).queue a d = s.queue a d := rfl
@[simp] theorem State.port_modCore (u : CoreId) (f : Core → Core) (a : Nat) : (s.modCore u f).port a = s.port a := rfl
@[simp] theorem State.mmuCtx_modCore (u : CoreId) (f : Core → Core) (a : Nat) : (s.modCore u f).mmuCtx a = s.mmuCtx a := rfl
@[simp] theorem State.router_modCore (u : CoreId) (f : Core → Core) (a : Nat) : (s.modCore u f).router a = s.router a := rfl
@[simp] theorem State.lamp_modCore (u : CoreId) (f : Core → Core) (a : Nat) : (s.modCore u f).lamp a = s.lamp a := rfl
@[simp] theorem State.endpoint_modCore (u : CoreId) (f : Core → Core) (a : Nat) : (s.modCore u f).endpoint a = s.endpoint a := rfl
@[simp] theorem State.mailbox_modCore (u : CoreId) (f : Core → Core) (a : Nat) : (s.modCore u f).mailbox a = s.mailbox a := rfl
@[simp] theorem State.byte_modCore (u : CoreId) (f : Core → Core) (a : Nat) : (s.modCore u f).byte a = s.byte a := rfl
@[simp] theorem State.marked_modCore (u : CoreId) (f : Core → Core) (a : Nat) : (s.modCore u f).marked a = s.marked a := rfl

/-! #### State.modFold -/
@[simp] theorem State.modFold_mem (f : Fold → Fold) : (s.modFold f).mem = s.mem := rfl
@[simp] theorem State.modFold_marks (f : Fold → Fold) : (s.modFold f).marks = s.marks := rfl
@[simp] theorem State.modFold_org (f : Fold → Fold) : (s.modFold f).org = s.org := rfl
@[simp] theorem State.modFold_tiles (f : Fold → Fold) : (s.modFold f).tiles = s.tiles := rfl
@[simp] theorem State.modFold_regions (f : Fold → Fold) : (s.modFold f).regions = s.regions := rfl
@[simp] theorem State.modFold_net (f : Fold → Fold) : (s.modFold f).net = s.net := rfl
@[simp] theorem State.modFold_mmu (f : Fold → Fold) : (s.modFold f).mmu = s.mmu := rfl
@[simp] theorem State.modFold_hbms (f : Fold → Fold) : (s.modFold f).hbms = s.hbms := rfl
@[simp] theorem State.modFold_host (f : Fold → Fold) : (s.modFold f).host = s.host := rfl
@[simp] theorem State.modFold_errs (f : Fold → Fold) : (s.modFold f).errs = s.errs := rfl
@[simp] theorem State.modFold_power (f : Fold → Fold) : (s.modFold f).power = s.power := rfl
@[simp] theorem State.modFold_start (f : Fold → Fold) : (s.modFold f).start = s.start := rfl
@[simp] theorem State.modFold_pins (f : Fold → Fold) : (s.modFold f).pins = s.pins := rfl
@[simp] theorem State.modFold_fabric (f : Fold → Fold) : (s.modFold f).fabric = s.fabric := rfl
@[simp] theorem State.modFold_ident (f : Fold → Fold) : (s.modFold f).ident = s.ident := rfl
@[simp] theorem State.modFold_events (f : Fold → Fold) : (s.modFold f).events = s.events := rfl
@[simp] theorem State.modFold_rates (f : Fold → Fold) : (s.modFold f).rates = s.rates := rfl
@[simp] theorem State.modFold_out (f : Fold → Fold) : (s.modFold f).out = s.out := rfl
@[simp] theorem State.modFold_time (f : Fold → Fold) : (s.modFold f).time = s.time := rfl
@[simp] theorem State.modFold_free (f : Fold → Fold) : (s.modFold f).free = s.free := rfl
@[simp] theorem State.modFold_pending (f : Fold → Fold) : (s.modFold f).pending = s.pending := rfl
@[simp] theorem State.tile_modFold (f : Fold → Fold) (a : Nat) : (s.modFold f).tile a = s.tile a := rfl
@[simp] theorem State.region_modFold (f : Fold → Fold) (a : Nat) : (s.modFold f).region a = s.region a := rfl
@[simp] theorem State.stack_modFold (f : Fold → Fold) (a : Nat) : (s.modFold f).stack a = s.stack a := rfl
@[simp] theorem State.paddock_modFold (f : Fold → Fold) (a : Nat) : (s.modFold f).paddock a = s.paddock a := rfl
@[simp] theorem State.job_modFold (f : Fold → Fold) (a : Nat) : (s.modFold f).job a = s.job a := rfl
@[simp] theorem State.ctx_modFold (f : Fold → Fold) (a : Nat) : (s.modFold f).ctx a = s.ctx a := rfl
@[simp] theorem State.func_modFold (f : Fold → Fold) (a : Nat) : (s.modFold f).func a = s.func a := rfl
@[simp] theorem State.queue_modFold (f : Fold → Fold) (a d : Nat) : (s.modFold f).queue a d = s.queue a d := rfl
@[simp] theorem State.port_modFold (f : Fold → Fold) (a : Nat) : (s.modFold f).port a = s.port a := rfl
@[simp] theorem State.mmuCtx_modFold (f : Fold → Fold) (a : Nat) : (s.modFold f).mmuCtx a = s.mmuCtx a := rfl
@[simp] theorem State.router_modFold (f : Fold → Fold) (a : Nat) : (s.modFold f).router a = s.router a := rfl
@[simp] theorem State.core_modFold (f : Fold → Fold) (a : CoreId) : (s.modFold f).core a = s.core a := rfl
@[simp] theorem State.lamp_modFold (f : Fold → Fold) (a : Nat) : (s.modFold f).lamp a = s.lamp a := rfl
@[simp] theorem State.endpoint_modFold (f : Fold → Fold) (a : Nat) : (s.modFold f).endpoint a = s.endpoint a := rfl
@[simp] theorem State.byte_modFold (f : Fold → Fold) (a : Nat) : (s.modFold f).byte a = s.byte a := rfl
@[simp] theorem State.marked_modFold (f : Fold → Fold) (a : Nat) : (s.modFold f).marked a = s.marked a := rfl

/-! #### State.modIdent -/
@[simp] theorem State.modIdent_mem (f : Ident → Ident) : (s.modIdent f).mem = s.mem := rfl
@[simp] theorem State.modIdent_marks (f : Ident → Ident) : (s.modIdent f).marks = s.marks := rfl
@[simp] theorem State.modIdent_org (f : Ident → Ident) : (s.modIdent f).org = s.org := rfl
@[simp] theorem State.modIdent_tiles (f : Ident → Ident) : (s.modIdent f).tiles = s.tiles := rfl
@[simp] theorem State.modIdent_regions (f : Ident → Ident) : (s.modIdent f).regions = s.regions := rfl
@[simp] theorem State.modIdent_net (f : Ident → Ident) : (s.modIdent f).net = s.net := rfl
@[simp] theorem State.modIdent_mmu (f : Ident → Ident) : (s.modIdent f).mmu = s.mmu := rfl
@[simp] theorem State.modIdent_hbms (f : Ident → Ident) : (s.modIdent f).hbms = s.hbms := rfl
@[simp] theorem State.modIdent_host (f : Ident → Ident) : (s.modIdent f).host = s.host := rfl
@[simp] theorem State.modIdent_errs (f : Ident → Ident) : (s.modIdent f).errs = s.errs := rfl
@[simp] theorem State.modIdent_power (f : Ident → Ident) : (s.modIdent f).power = s.power := rfl
@[simp] theorem State.modIdent_start (f : Ident → Ident) : (s.modIdent f).start = s.start := rfl
@[simp] theorem State.modIdent_pins (f : Ident → Ident) : (s.modIdent f).pins = s.pins := rfl
@[simp] theorem State.modIdent_fabric (f : Ident → Ident) : (s.modIdent f).fabric = s.fabric := rfl
@[simp] theorem State.modIdent_fold (f : Ident → Ident) : (s.modIdent f).fold = s.fold := rfl
@[simp] theorem State.modIdent_events (f : Ident → Ident) : (s.modIdent f).events = s.events := rfl
@[simp] theorem State.modIdent_rates (f : Ident → Ident) : (s.modIdent f).rates = s.rates := rfl
@[simp] theorem State.modIdent_out (f : Ident → Ident) : (s.modIdent f).out = s.out := rfl
@[simp] theorem State.modIdent_time (f : Ident → Ident) : (s.modIdent f).time = s.time := rfl
@[simp] theorem State.modIdent_free (f : Ident → Ident) : (s.modIdent f).free = s.free := rfl
@[simp] theorem State.modIdent_pending (f : Ident → Ident) : (s.modIdent f).pending = s.pending := rfl
@[simp] theorem State.tile_modIdent (f : Ident → Ident) (a : Nat) : (s.modIdent f).tile a = s.tile a := rfl
@[simp] theorem State.region_modIdent (f : Ident → Ident) (a : Nat) : (s.modIdent f).region a = s.region a := rfl
@[simp] theorem State.stack_modIdent (f : Ident → Ident) (a : Nat) : (s.modIdent f).stack a = s.stack a := rfl
@[simp] theorem State.paddock_modIdent (f : Ident → Ident) (a : Nat) : (s.modIdent f).paddock a = s.paddock a := rfl
@[simp] theorem State.job_modIdent (f : Ident → Ident) (a : Nat) : (s.modIdent f).job a = s.job a := rfl
@[simp] theorem State.ctx_modIdent (f : Ident → Ident) (a : Nat) : (s.modIdent f).ctx a = s.ctx a := rfl
@[simp] theorem State.func_modIdent (f : Ident → Ident) (a : Nat) : (s.modIdent f).func a = s.func a := rfl
@[simp] theorem State.queue_modIdent (f : Ident → Ident) (a d : Nat) : (s.modIdent f).queue a d = s.queue a d := rfl
@[simp] theorem State.port_modIdent (f : Ident → Ident) (a : Nat) : (s.modIdent f).port a = s.port a := rfl
@[simp] theorem State.mmuCtx_modIdent (f : Ident → Ident) (a : Nat) : (s.modIdent f).mmuCtx a = s.mmuCtx a := rfl
@[simp] theorem State.router_modIdent (f : Ident → Ident) (a : Nat) : (s.modIdent f).router a = s.router a := rfl
@[simp] theorem State.core_modIdent (f : Ident → Ident) (a : CoreId) : (s.modIdent f).core a = s.core a := rfl
@[simp] theorem State.lamp_modIdent (f : Ident → Ident) (a : Nat) : (s.modIdent f).lamp a = s.lamp a := rfl
@[simp] theorem State.endpoint_modIdent (f : Ident → Ident) (a : Nat) : (s.modIdent f).endpoint a = s.endpoint a := rfl
@[simp] theorem State.mailbox_modIdent (f : Ident → Ident) (a : Nat) : (s.modIdent f).mailbox a = s.mailbox a := rfl
@[simp] theorem State.byte_modIdent (f : Ident → Ident) (a : Nat) : (s.modIdent f).byte a = s.byte a := rfl
@[simp] theorem State.marked_modIdent (f : Ident → Ident) (a : Nat) : (s.modIdent f).marked a = s.marked a := rfl

/-! #### State.modPower -/
@[simp] theorem State.modPower_mem (f : Power → Power) : (s.modPower f).mem = s.mem := rfl
@[simp] theorem State.modPower_marks (f : Power → Power) : (s.modPower f).marks = s.marks := rfl
@[simp] theorem State.modPower_org (f : Power → Power) : (s.modPower f).org = s.org := rfl
@[simp] theorem State.modPower_tiles (f : Power → Power) : (s.modPower f).tiles = s.tiles := rfl
@[simp] theorem State.modPower_regions (f : Power → Power) : (s.modPower f).regions = s.regions := rfl
@[simp] theorem State.modPower_net (f : Power → Power) : (s.modPower f).net = s.net := rfl
@[simp] theorem State.modPower_mmu (f : Power → Power) : (s.modPower f).mmu = s.mmu := rfl
@[simp] theorem State.modPower_hbms (f : Power → Power) : (s.modPower f).hbms = s.hbms := rfl
@[simp] theorem State.modPower_host (f : Power → Power) : (s.modPower f).host = s.host := rfl
@[simp] theorem State.modPower_errs (f : Power → Power) : (s.modPower f).errs = s.errs := rfl
@[simp] theorem State.modPower_start (f : Power → Power) : (s.modPower f).start = s.start := rfl
@[simp] theorem State.modPower_pins (f : Power → Power) : (s.modPower f).pins = s.pins := rfl
@[simp] theorem State.modPower_fabric (f : Power → Power) : (s.modPower f).fabric = s.fabric := rfl
@[simp] theorem State.modPower_fold (f : Power → Power) : (s.modPower f).fold = s.fold := rfl
@[simp] theorem State.modPower_ident (f : Power → Power) : (s.modPower f).ident = s.ident := rfl
@[simp] theorem State.modPower_events (f : Power → Power) : (s.modPower f).events = s.events := rfl
@[simp] theorem State.modPower_rates (f : Power → Power) : (s.modPower f).rates = s.rates := rfl
@[simp] theorem State.modPower_out (f : Power → Power) : (s.modPower f).out = s.out := rfl
@[simp] theorem State.modPower_time (f : Power → Power) : (s.modPower f).time = s.time := rfl
@[simp] theorem State.modPower_free (f : Power → Power) : (s.modPower f).free = s.free := rfl
@[simp] theorem State.modPower_pending (f : Power → Power) : (s.modPower f).pending = s.pending := rfl
@[simp] theorem State.tile_modPower (f : Power → Power) (a : Nat) : (s.modPower f).tile a = s.tile a := rfl
@[simp] theorem State.region_modPower (f : Power → Power) (a : Nat) : (s.modPower f).region a = s.region a := rfl
@[simp] theorem State.stack_modPower (f : Power → Power) (a : Nat) : (s.modPower f).stack a = s.stack a := rfl
@[simp] theorem State.paddock_modPower (f : Power → Power) (a : Nat) : (s.modPower f).paddock a = s.paddock a := rfl
@[simp] theorem State.job_modPower (f : Power → Power) (a : Nat) : (s.modPower f).job a = s.job a := rfl
@[simp] theorem State.ctx_modPower (f : Power → Power) (a : Nat) : (s.modPower f).ctx a = s.ctx a := rfl
@[simp] theorem State.func_modPower (f : Power → Power) (a : Nat) : (s.modPower f).func a = s.func a := rfl
@[simp] theorem State.queue_modPower (f : Power → Power) (a d : Nat) : (s.modPower f).queue a d = s.queue a d := rfl
@[simp] theorem State.port_modPower (f : Power → Power) (a : Nat) : (s.modPower f).port a = s.port a := rfl
@[simp] theorem State.mmuCtx_modPower (f : Power → Power) (a : Nat) : (s.modPower f).mmuCtx a = s.mmuCtx a := rfl
@[simp] theorem State.router_modPower (f : Power → Power) (a : Nat) : (s.modPower f).router a = s.router a := rfl
@[simp] theorem State.core_modPower (f : Power → Power) (a : CoreId) : (s.modPower f).core a = s.core a := rfl
@[simp] theorem State.lamp_modPower (f : Power → Power) (a : Nat) : (s.modPower f).lamp a = s.lamp a := rfl
@[simp] theorem State.endpoint_modPower (f : Power → Power) (a : Nat) : (s.modPower f).endpoint a = s.endpoint a := rfl
@[simp] theorem State.mailbox_modPower (f : Power → Power) (a : Nat) : (s.modPower f).mailbox a = s.mailbox a := rfl
@[simp] theorem State.byte_modPower (f : Power → Power) (a : Nat) : (s.modPower f).byte a = s.byte a := rfl
@[simp] theorem State.marked_modPower (f : Power → Power) (a : Nat) : (s.modPower f).marked a = s.marked a := rfl

/-! #### State.modStart -/
@[simp] theorem State.modStart_mem (f : Start → Start) : (s.modStart f).mem = s.mem := rfl
@[simp] theorem State.modStart_marks (f : Start → Start) : (s.modStart f).marks = s.marks := rfl
@[simp] theorem State.modStart_org (f : Start → Start) : (s.modStart f).org = s.org := rfl
@[simp] theorem State.modStart_tiles (f : Start → Start) : (s.modStart f).tiles = s.tiles := rfl
@[simp] theorem State.modStart_regions (f : Start → Start) : (s.modStart f).regions = s.regions := rfl
@[simp] theorem State.modStart_net (f : Start → Start) : (s.modStart f).net = s.net := rfl
@[simp] theorem State.modStart_mmu (f : Start → Start) : (s.modStart f).mmu = s.mmu := rfl
@[simp] theorem State.modStart_hbms (f : Start → Start) : (s.modStart f).hbms = s.hbms := rfl
@[simp] theorem State.modStart_host (f : Start → Start) : (s.modStart f).host = s.host := rfl
@[simp] theorem State.modStart_errs (f : Start → Start) : (s.modStart f).errs = s.errs := rfl
@[simp] theorem State.modStart_power (f : Start → Start) : (s.modStart f).power = s.power := rfl
@[simp] theorem State.modStart_pins (f : Start → Start) : (s.modStart f).pins = s.pins := rfl
@[simp] theorem State.modStart_fabric (f : Start → Start) : (s.modStart f).fabric = s.fabric := rfl
@[simp] theorem State.modStart_fold (f : Start → Start) : (s.modStart f).fold = s.fold := rfl
@[simp] theorem State.modStart_ident (f : Start → Start) : (s.modStart f).ident = s.ident := rfl
@[simp] theorem State.modStart_events (f : Start → Start) : (s.modStart f).events = s.events := rfl
@[simp] theorem State.modStart_rates (f : Start → Start) : (s.modStart f).rates = s.rates := rfl
@[simp] theorem State.modStart_out (f : Start → Start) : (s.modStart f).out = s.out := rfl
@[simp] theorem State.modStart_time (f : Start → Start) : (s.modStart f).time = s.time := rfl
@[simp] theorem State.modStart_free (f : Start → Start) : (s.modStart f).free = s.free := rfl
@[simp] theorem State.modStart_pending (f : Start → Start) : (s.modStart f).pending = s.pending := rfl
@[simp] theorem State.tile_modStart (f : Start → Start) (a : Nat) : (s.modStart f).tile a = s.tile a := rfl
@[simp] theorem State.region_modStart (f : Start → Start) (a : Nat) : (s.modStart f).region a = s.region a := rfl
@[simp] theorem State.stack_modStart (f : Start → Start) (a : Nat) : (s.modStart f).stack a = s.stack a := rfl
@[simp] theorem State.paddock_modStart (f : Start → Start) (a : Nat) : (s.modStart f).paddock a = s.paddock a := rfl
@[simp] theorem State.job_modStart (f : Start → Start) (a : Nat) : (s.modStart f).job a = s.job a := rfl
@[simp] theorem State.ctx_modStart (f : Start → Start) (a : Nat) : (s.modStart f).ctx a = s.ctx a := rfl
@[simp] theorem State.func_modStart (f : Start → Start) (a : Nat) : (s.modStart f).func a = s.func a := rfl
@[simp] theorem State.queue_modStart (f : Start → Start) (a d : Nat) : (s.modStart f).queue a d = s.queue a d := rfl
@[simp] theorem State.port_modStart (f : Start → Start) (a : Nat) : (s.modStart f).port a = s.port a := rfl
@[simp] theorem State.mmuCtx_modStart (f : Start → Start) (a : Nat) : (s.modStart f).mmuCtx a = s.mmuCtx a := rfl
@[simp] theorem State.router_modStart (f : Start → Start) (a : Nat) : (s.modStart f).router a = s.router a := rfl
@[simp] theorem State.core_modStart (f : Start → Start) (a : CoreId) : (s.modStart f).core a = s.core a := rfl
@[simp] theorem State.lamp_modStart (f : Start → Start) (a : Nat) : (s.modStart f).lamp a = s.lamp a := rfl
@[simp] theorem State.endpoint_modStart (f : Start → Start) (a : Nat) : (s.modStart f).endpoint a = s.endpoint a := rfl
@[simp] theorem State.mailbox_modStart (f : Start → Start) (a : Nat) : (s.modStart f).mailbox a = s.mailbox a := rfl
@[simp] theorem State.byte_modStart (f : Start → Start) (a : Nat) : (s.modStart f).byte a = s.byte a := rfl
@[simp] theorem State.marked_modStart (f : Start → Start) (a : Nat) : (s.modStart f).marked a = s.marked a := rfl

/-! #### State.modFabric -/
@[simp] theorem State.modFabric_mem (f : Fabric → Fabric) : (s.modFabric f).mem = s.mem := rfl
@[simp] theorem State.modFabric_marks (f : Fabric → Fabric) : (s.modFabric f).marks = s.marks := rfl
@[simp] theorem State.modFabric_org (f : Fabric → Fabric) : (s.modFabric f).org = s.org := rfl
@[simp] theorem State.modFabric_tiles (f : Fabric → Fabric) : (s.modFabric f).tiles = s.tiles := rfl
@[simp] theorem State.modFabric_regions (f : Fabric → Fabric) : (s.modFabric f).regions = s.regions := rfl
@[simp] theorem State.modFabric_net (f : Fabric → Fabric) : (s.modFabric f).net = s.net := rfl
@[simp] theorem State.modFabric_mmu (f : Fabric → Fabric) : (s.modFabric f).mmu = s.mmu := rfl
@[simp] theorem State.modFabric_hbms (f : Fabric → Fabric) : (s.modFabric f).hbms = s.hbms := rfl
@[simp] theorem State.modFabric_host (f : Fabric → Fabric) : (s.modFabric f).host = s.host := rfl
@[simp] theorem State.modFabric_errs (f : Fabric → Fabric) : (s.modFabric f).errs = s.errs := rfl
@[simp] theorem State.modFabric_power (f : Fabric → Fabric) : (s.modFabric f).power = s.power := rfl
@[simp] theorem State.modFabric_start (f : Fabric → Fabric) : (s.modFabric f).start = s.start := rfl
@[simp] theorem State.modFabric_pins (f : Fabric → Fabric) : (s.modFabric f).pins = s.pins := rfl
@[simp] theorem State.modFabric_fold (f : Fabric → Fabric) : (s.modFabric f).fold = s.fold := rfl
@[simp] theorem State.modFabric_ident (f : Fabric → Fabric) : (s.modFabric f).ident = s.ident := rfl
@[simp] theorem State.modFabric_events (f : Fabric → Fabric) : (s.modFabric f).events = s.events := rfl
@[simp] theorem State.modFabric_rates (f : Fabric → Fabric) : (s.modFabric f).rates = s.rates := rfl
@[simp] theorem State.modFabric_out (f : Fabric → Fabric) : (s.modFabric f).out = s.out := rfl
@[simp] theorem State.modFabric_time (f : Fabric → Fabric) : (s.modFabric f).time = s.time := rfl
@[simp] theorem State.modFabric_free (f : Fabric → Fabric) : (s.modFabric f).free = s.free := rfl
@[simp] theorem State.modFabric_pending (f : Fabric → Fabric) : (s.modFabric f).pending = s.pending := rfl
@[simp] theorem State.tile_modFabric (f : Fabric → Fabric) (a : Nat) : (s.modFabric f).tile a = s.tile a := rfl
@[simp] theorem State.region_modFabric (f : Fabric → Fabric) (a : Nat) : (s.modFabric f).region a = s.region a := rfl
@[simp] theorem State.stack_modFabric (f : Fabric → Fabric) (a : Nat) : (s.modFabric f).stack a = s.stack a := rfl
@[simp] theorem State.paddock_modFabric (f : Fabric → Fabric) (a : Nat) : (s.modFabric f).paddock a = s.paddock a := rfl
@[simp] theorem State.job_modFabric (f : Fabric → Fabric) (a : Nat) : (s.modFabric f).job a = s.job a := rfl
@[simp] theorem State.ctx_modFabric (f : Fabric → Fabric) (a : Nat) : (s.modFabric f).ctx a = s.ctx a := rfl
@[simp] theorem State.func_modFabric (f : Fabric → Fabric) (a : Nat) : (s.modFabric f).func a = s.func a := rfl
@[simp] theorem State.queue_modFabric (f : Fabric → Fabric) (a d : Nat) : (s.modFabric f).queue a d = s.queue a d := rfl
@[simp] theorem State.port_modFabric (f : Fabric → Fabric) (a : Nat) : (s.modFabric f).port a = s.port a := rfl
@[simp] theorem State.mmuCtx_modFabric (f : Fabric → Fabric) (a : Nat) : (s.modFabric f).mmuCtx a = s.mmuCtx a := rfl
@[simp] theorem State.router_modFabric (f : Fabric → Fabric) (a : Nat) : (s.modFabric f).router a = s.router a := rfl
@[simp] theorem State.core_modFabric (f : Fabric → Fabric) (a : CoreId) : (s.modFabric f).core a = s.core a := rfl
@[simp] theorem State.mailbox_modFabric (f : Fabric → Fabric) (a : Nat) : (s.modFabric f).mailbox a = s.mailbox a := rfl
@[simp] theorem State.byte_modFabric (f : Fabric → Fabric) (a : Nat) : (s.modFabric f).byte a = s.byte a := rfl
@[simp] theorem State.marked_modFabric (f : Fabric → Fabric) (a : Nat) : (s.modFabric f).marked a = s.marked a := rfl

/-! #### State.modLamp -/
@[simp] theorem State.modLamp_mem (n : Nat) (f : Lamp → Lamp) : (s.modLamp n f).mem = s.mem := rfl
@[simp] theorem State.modLamp_marks (n : Nat) (f : Lamp → Lamp) : (s.modLamp n f).marks = s.marks := rfl
@[simp] theorem State.modLamp_org (n : Nat) (f : Lamp → Lamp) : (s.modLamp n f).org = s.org := rfl
@[simp] theorem State.modLamp_tiles (n : Nat) (f : Lamp → Lamp) : (s.modLamp n f).tiles = s.tiles := rfl
@[simp] theorem State.modLamp_regions (n : Nat) (f : Lamp → Lamp) : (s.modLamp n f).regions = s.regions := rfl
@[simp] theorem State.modLamp_net (n : Nat) (f : Lamp → Lamp) : (s.modLamp n f).net = s.net := rfl
@[simp] theorem State.modLamp_mmu (n : Nat) (f : Lamp → Lamp) : (s.modLamp n f).mmu = s.mmu := rfl
@[simp] theorem State.modLamp_hbms (n : Nat) (f : Lamp → Lamp) : (s.modLamp n f).hbms = s.hbms := rfl
@[simp] theorem State.modLamp_host (n : Nat) (f : Lamp → Lamp) : (s.modLamp n f).host = s.host := rfl
@[simp] theorem State.modLamp_errs (n : Nat) (f : Lamp → Lamp) : (s.modLamp n f).errs = s.errs := rfl
@[simp] theorem State.modLamp_power (n : Nat) (f : Lamp → Lamp) : (s.modLamp n f).power = s.power := rfl
@[simp] theorem State.modLamp_start (n : Nat) (f : Lamp → Lamp) : (s.modLamp n f).start = s.start := rfl
@[simp] theorem State.modLamp_pins (n : Nat) (f : Lamp → Lamp) : (s.modLamp n f).pins = s.pins := rfl
@[simp] theorem State.modLamp_fold (n : Nat) (f : Lamp → Lamp) : (s.modLamp n f).fold = s.fold := rfl
@[simp] theorem State.modLamp_ident (n : Nat) (f : Lamp → Lamp) : (s.modLamp n f).ident = s.ident := rfl
@[simp] theorem State.modLamp_events (n : Nat) (f : Lamp → Lamp) : (s.modLamp n f).events = s.events := rfl
@[simp] theorem State.modLamp_rates (n : Nat) (f : Lamp → Lamp) : (s.modLamp n f).rates = s.rates := rfl
@[simp] theorem State.modLamp_out (n : Nat) (f : Lamp → Lamp) : (s.modLamp n f).out = s.out := rfl
@[simp] theorem State.modLamp_time (n : Nat) (f : Lamp → Lamp) : (s.modLamp n f).time = s.time := rfl
@[simp] theorem State.modLamp_free (n : Nat) (f : Lamp → Lamp) : (s.modLamp n f).free = s.free := rfl
@[simp] theorem State.modLamp_pending (n : Nat) (f : Lamp → Lamp) : (s.modLamp n f).pending = s.pending := rfl
@[simp] theorem State.tile_modLamp (n : Nat) (f : Lamp → Lamp) (a : Nat) : (s.modLamp n f).tile a = s.tile a := rfl
@[simp] theorem State.region_modLamp (n : Nat) (f : Lamp → Lamp) (a : Nat) : (s.modLamp n f).region a = s.region a := rfl
@[simp] theorem State.stack_modLamp (n : Nat) (f : Lamp → Lamp) (a : Nat) : (s.modLamp n f).stack a = s.stack a := rfl
@[simp] theorem State.paddock_modLamp (n : Nat) (f : Lamp → Lamp) (a : Nat) : (s.modLamp n f).paddock a = s.paddock a := rfl
@[simp] theorem State.job_modLamp (n : Nat) (f : Lamp → Lamp) (a : Nat) : (s.modLamp n f).job a = s.job a := rfl
@[simp] theorem State.ctx_modLamp (n : Nat) (f : Lamp → Lamp) (a : Nat) : (s.modLamp n f).ctx a = s.ctx a := rfl
@[simp] theorem State.func_modLamp (n : Nat) (f : Lamp → Lamp) (a : Nat) : (s.modLamp n f).func a = s.func a := rfl
@[simp] theorem State.queue_modLamp (n : Nat) (f : Lamp → Lamp) (a d : Nat) : (s.modLamp n f).queue a d = s.queue a d := rfl
@[simp] theorem State.port_modLamp (n : Nat) (f : Lamp → Lamp) (a : Nat) : (s.modLamp n f).port a = s.port a := rfl
@[simp] theorem State.mmuCtx_modLamp (n : Nat) (f : Lamp → Lamp) (a : Nat) : (s.modLamp n f).mmuCtx a = s.mmuCtx a := rfl
@[simp] theorem State.router_modLamp (n : Nat) (f : Lamp → Lamp) (a : Nat) : (s.modLamp n f).router a = s.router a := rfl
@[simp] theorem State.core_modLamp (n : Nat) (f : Lamp → Lamp) (a : CoreId) : (s.modLamp n f).core a = s.core a := rfl
@[simp] theorem State.endpoint_modLamp (n : Nat) (f : Lamp → Lamp) (a : Nat) : (s.modLamp n f).endpoint a = s.endpoint a := rfl
@[simp] theorem State.mailbox_modLamp (n : Nat) (f : Lamp → Lamp) (a : Nat) : (s.modLamp n f).mailbox a = s.mailbox a := rfl
@[simp] theorem State.byte_modLamp (n : Nat) (f : Lamp → Lamp) (a : Nat) : (s.modLamp n f).byte a = s.byte a := rfl
@[simp] theorem State.marked_modLamp (n : Nat) (f : Lamp → Lamp) (a : Nat) : (s.modLamp n f).marked a = s.marked a := rfl

/-! #### State.modEp -/
@[simp] theorem State.modEp_mem (e : Nat) (f : Endpoint → Endpoint) : (s.modEp e f).mem = s.mem := rfl
@[simp] theorem State.modEp_marks (e : Nat) (f : Endpoint → Endpoint) : (s.modEp e f).marks = s.marks := rfl
@[simp] theorem State.modEp_org (e : Nat) (f : Endpoint → Endpoint) : (s.modEp e f).org = s.org := rfl
@[simp] theorem State.modEp_tiles (e : Nat) (f : Endpoint → Endpoint) : (s.modEp e f).tiles = s.tiles := rfl
@[simp] theorem State.modEp_regions (e : Nat) (f : Endpoint → Endpoint) : (s.modEp e f).regions = s.regions := rfl
@[simp] theorem State.modEp_net (e : Nat) (f : Endpoint → Endpoint) : (s.modEp e f).net = s.net := rfl
@[simp] theorem State.modEp_mmu (e : Nat) (f : Endpoint → Endpoint) : (s.modEp e f).mmu = s.mmu := rfl
@[simp] theorem State.modEp_hbms (e : Nat) (f : Endpoint → Endpoint) : (s.modEp e f).hbms = s.hbms := rfl
@[simp] theorem State.modEp_host (e : Nat) (f : Endpoint → Endpoint) : (s.modEp e f).host = s.host := rfl
@[simp] theorem State.modEp_errs (e : Nat) (f : Endpoint → Endpoint) : (s.modEp e f).errs = s.errs := rfl
@[simp] theorem State.modEp_power (e : Nat) (f : Endpoint → Endpoint) : (s.modEp e f).power = s.power := rfl
@[simp] theorem State.modEp_start (e : Nat) (f : Endpoint → Endpoint) : (s.modEp e f).start = s.start := rfl
@[simp] theorem State.modEp_pins (e : Nat) (f : Endpoint → Endpoint) : (s.modEp e f).pins = s.pins := rfl
@[simp] theorem State.modEp_fold (e : Nat) (f : Endpoint → Endpoint) : (s.modEp e f).fold = s.fold := rfl
@[simp] theorem State.modEp_ident (e : Nat) (f : Endpoint → Endpoint) : (s.modEp e f).ident = s.ident := rfl
@[simp] theorem State.modEp_events (e : Nat) (f : Endpoint → Endpoint) : (s.modEp e f).events = s.events := rfl
@[simp] theorem State.modEp_rates (e : Nat) (f : Endpoint → Endpoint) : (s.modEp e f).rates = s.rates := rfl
@[simp] theorem State.modEp_out (e : Nat) (f : Endpoint → Endpoint) : (s.modEp e f).out = s.out := rfl
@[simp] theorem State.modEp_time (e : Nat) (f : Endpoint → Endpoint) : (s.modEp e f).time = s.time := rfl
@[simp] theorem State.modEp_free (e : Nat) (f : Endpoint → Endpoint) : (s.modEp e f).free = s.free := rfl
@[simp] theorem State.modEp_pending (e : Nat) (f : Endpoint → Endpoint) : (s.modEp e f).pending = s.pending := rfl
@[simp] theorem State.tile_modEp (e : Nat) (f : Endpoint → Endpoint) (a : Nat) : (s.modEp e f).tile a = s.tile a := rfl
@[simp] theorem State.region_modEp (e : Nat) (f : Endpoint → Endpoint) (a : Nat) : (s.modEp e f).region a = s.region a := rfl
@[simp] theorem State.stack_modEp (e : Nat) (f : Endpoint → Endpoint) (a : Nat) : (s.modEp e f).stack a = s.stack a := rfl
@[simp] theorem State.paddock_modEp (e : Nat) (f : Endpoint → Endpoint) (a : Nat) : (s.modEp e f).paddock a = s.paddock a := rfl
@[simp] theorem State.job_modEp (e : Nat) (f : Endpoint → Endpoint) (a : Nat) : (s.modEp e f).job a = s.job a := rfl
@[simp] theorem State.ctx_modEp (e : Nat) (f : Endpoint → Endpoint) (a : Nat) : (s.modEp e f).ctx a = s.ctx a := rfl
@[simp] theorem State.func_modEp (e : Nat) (f : Endpoint → Endpoint) (a : Nat) : (s.modEp e f).func a = s.func a := rfl
@[simp] theorem State.queue_modEp (e : Nat) (f : Endpoint → Endpoint) (a d : Nat) : (s.modEp e f).queue a d = s.queue a d := rfl
@[simp] theorem State.port_modEp (e : Nat) (f : Endpoint → Endpoint) (a : Nat) : (s.modEp e f).port a = s.port a := rfl
@[simp] theorem State.mmuCtx_modEp (e : Nat) (f : Endpoint → Endpoint) (a : Nat) : (s.modEp e f).mmuCtx a = s.mmuCtx a := rfl
@[simp] theorem State.router_modEp (e : Nat) (f : Endpoint → Endpoint) (a : Nat) : (s.modEp e f).router a = s.router a := rfl
@[simp] theorem State.core_modEp (e : Nat) (f : Endpoint → Endpoint) (a : CoreId) : (s.modEp e f).core a = s.core a := rfl
@[simp] theorem State.lamp_modEp (e : Nat) (f : Endpoint → Endpoint) (a : Nat) : (s.modEp e f).lamp a = s.lamp a := rfl
@[simp] theorem State.mailbox_modEp (e : Nat) (f : Endpoint → Endpoint) (a : Nat) : (s.modEp e f).mailbox a = s.mailbox a := rfl
@[simp] theorem State.byte_modEp (e : Nat) (f : Endpoint → Endpoint) (a : Nat) : (s.modEp e f).byte a = s.byte a := rfl
@[simp] theorem State.marked_modEp (e : Nat) (f : Endpoint → Endpoint) (a : Nat) : (s.modEp e f).marked a = s.marked a := rfl

/-! #### State.modMailbox -/
@[simp] theorem State.modMailbox_mem (p : Nat) (f : Mailbox → Mailbox) : (s.modMailbox p f).mem = s.mem := rfl
@[simp] theorem State.modMailbox_marks (p : Nat) (f : Mailbox → Mailbox) : (s.modMailbox p f).marks = s.marks := rfl
@[simp] theorem State.modMailbox_org (p : Nat) (f : Mailbox → Mailbox) : (s.modMailbox p f).org = s.org := rfl
@[simp] theorem State.modMailbox_tiles (p : Nat) (f : Mailbox → Mailbox) : (s.modMailbox p f).tiles = s.tiles := rfl
@[simp] theorem State.modMailbox_regions (p : Nat) (f : Mailbox → Mailbox) : (s.modMailbox p f).regions = s.regions := rfl
@[simp] theorem State.modMailbox_net (p : Nat) (f : Mailbox → Mailbox) : (s.modMailbox p f).net = s.net := rfl
@[simp] theorem State.modMailbox_mmu (p : Nat) (f : Mailbox → Mailbox) : (s.modMailbox p f).mmu = s.mmu := rfl
@[simp] theorem State.modMailbox_hbms (p : Nat) (f : Mailbox → Mailbox) : (s.modMailbox p f).hbms = s.hbms := rfl
@[simp] theorem State.modMailbox_host (p : Nat) (f : Mailbox → Mailbox) : (s.modMailbox p f).host = s.host := rfl
@[simp] theorem State.modMailbox_errs (p : Nat) (f : Mailbox → Mailbox) : (s.modMailbox p f).errs = s.errs := rfl
@[simp] theorem State.modMailbox_power (p : Nat) (f : Mailbox → Mailbox) : (s.modMailbox p f).power = s.power := rfl
@[simp] theorem State.modMailbox_start (p : Nat) (f : Mailbox → Mailbox) : (s.modMailbox p f).start = s.start := rfl
@[simp] theorem State.modMailbox_pins (p : Nat) (f : Mailbox → Mailbox) : (s.modMailbox p f).pins = s.pins := rfl
@[simp] theorem State.modMailbox_fabric (p : Nat) (f : Mailbox → Mailbox) : (s.modMailbox p f).fabric = s.fabric := rfl
@[simp] theorem State.modMailbox_ident (p : Nat) (f : Mailbox → Mailbox) : (s.modMailbox p f).ident = s.ident := rfl
@[simp] theorem State.modMailbox_events (p : Nat) (f : Mailbox → Mailbox) : (s.modMailbox p f).events = s.events := rfl
@[simp] theorem State.modMailbox_rates (p : Nat) (f : Mailbox → Mailbox) : (s.modMailbox p f).rates = s.rates := rfl
@[simp] theorem State.modMailbox_out (p : Nat) (f : Mailbox → Mailbox) : (s.modMailbox p f).out = s.out := rfl
@[simp] theorem State.modMailbox_time (p : Nat) (f : Mailbox → Mailbox) : (s.modMailbox p f).time = s.time := rfl
@[simp] theorem State.modMailbox_free (p : Nat) (f : Mailbox → Mailbox) : (s.modMailbox p f).free = s.free := rfl
@[simp] theorem State.modMailbox_pending (p : Nat) (f : Mailbox → Mailbox) : (s.modMailbox p f).pending = s.pending := rfl
@[simp] theorem State.tile_modMailbox (p : Nat) (f : Mailbox → Mailbox) (a : Nat) : (s.modMailbox p f).tile a = s.tile a := rfl
@[simp] theorem State.region_modMailbox (p : Nat) (f : Mailbox → Mailbox) (a : Nat) : (s.modMailbox p f).region a = s.region a := rfl
@[simp] theorem State.stack_modMailbox (p : Nat) (f : Mailbox → Mailbox) (a : Nat) : (s.modMailbox p f).stack a = s.stack a := rfl
@[simp] theorem State.paddock_modMailbox (p : Nat) (f : Mailbox → Mailbox) (a : Nat) : (s.modMailbox p f).paddock a = s.paddock a := rfl
@[simp] theorem State.job_modMailbox (p : Nat) (f : Mailbox → Mailbox) (a : Nat) : (s.modMailbox p f).job a = s.job a := rfl
@[simp] theorem State.ctx_modMailbox (p : Nat) (f : Mailbox → Mailbox) (a : Nat) : (s.modMailbox p f).ctx a = s.ctx a := rfl
@[simp] theorem State.func_modMailbox (p : Nat) (f : Mailbox → Mailbox) (a : Nat) : (s.modMailbox p f).func a = s.func a := rfl
@[simp] theorem State.queue_modMailbox (p : Nat) (f : Mailbox → Mailbox) (a d : Nat) : (s.modMailbox p f).queue a d = s.queue a d := rfl
@[simp] theorem State.port_modMailbox (p : Nat) (f : Mailbox → Mailbox) (a : Nat) : (s.modMailbox p f).port a = s.port a := rfl
@[simp] theorem State.mmuCtx_modMailbox (p : Nat) (f : Mailbox → Mailbox) (a : Nat) : (s.modMailbox p f).mmuCtx a = s.mmuCtx a := rfl
@[simp] theorem State.router_modMailbox (p : Nat) (f : Mailbox → Mailbox) (a : Nat) : (s.modMailbox p f).router a = s.router a := rfl
@[simp] theorem State.core_modMailbox (p : Nat) (f : Mailbox → Mailbox) (a : CoreId) : (s.modMailbox p f).core a = s.core a := rfl
@[simp] theorem State.lamp_modMailbox (p : Nat) (f : Mailbox → Mailbox) (a : Nat) : (s.modMailbox p f).lamp a = s.lamp a := rfl
@[simp] theorem State.endpoint_modMailbox (p : Nat) (f : Mailbox → Mailbox) (a : Nat) : (s.modMailbox p f).endpoint a = s.endpoint a := rfl
@[simp] theorem State.byte_modMailbox (p : Nat) (f : Mailbox → Mailbox) (a : Nat) : (s.modMailbox p f).byte a = s.byte a := rfl
@[simp] theorem State.marked_modMailbox (p : Nat) (f : Mailbox → Mailbox) (a : Nat) : (s.modMailbox p f).marked a = s.marked a := rfl

/-! #### State.emit -/
@[simp] theorem State.emit_mem (o : Out) : (s.emit o).mem = s.mem := rfl
@[simp] theorem State.emit_marks (o : Out) : (s.emit o).marks = s.marks := rfl
@[simp] theorem State.emit_org (o : Out) : (s.emit o).org = s.org := rfl
@[simp] theorem State.emit_tiles (o : Out) : (s.emit o).tiles = s.tiles := rfl
@[simp] theorem State.emit_regions (o : Out) : (s.emit o).regions = s.regions := rfl
@[simp] theorem State.emit_net (o : Out) : (s.emit o).net = s.net := rfl
@[simp] theorem State.emit_mmu (o : Out) : (s.emit o).mmu = s.mmu := rfl
@[simp] theorem State.emit_hbms (o : Out) : (s.emit o).hbms = s.hbms := rfl
@[simp] theorem State.emit_host (o : Out) : (s.emit o).host = s.host := rfl
@[simp] theorem State.emit_errs (o : Out) : (s.emit o).errs = s.errs := rfl
@[simp] theorem State.emit_power (o : Out) : (s.emit o).power = s.power := rfl
@[simp] theorem State.emit_start (o : Out) : (s.emit o).start = s.start := rfl
@[simp] theorem State.emit_pins (o : Out) : (s.emit o).pins = s.pins := rfl
@[simp] theorem State.emit_fabric (o : Out) : (s.emit o).fabric = s.fabric := rfl
@[simp] theorem State.emit_fold (o : Out) : (s.emit o).fold = s.fold := rfl
@[simp] theorem State.emit_ident (o : Out) : (s.emit o).ident = s.ident := rfl
@[simp] theorem State.emit_events (o : Out) : (s.emit o).events = s.events := rfl
@[simp] theorem State.emit_rates (o : Out) : (s.emit o).rates = s.rates := rfl
@[simp] theorem State.emit_time (o : Out) : (s.emit o).time = s.time := rfl
@[simp] theorem State.emit_free (o : Out) : (s.emit o).free = s.free := rfl
@[simp] theorem State.emit_pending (o : Out) : (s.emit o).pending = s.pending := rfl
@[simp] theorem State.tile_emit (o : Out) (a : Nat) : (s.emit o).tile a = s.tile a := rfl
@[simp] theorem State.region_emit (o : Out) (a : Nat) : (s.emit o).region a = s.region a := rfl
@[simp] theorem State.stack_emit (o : Out) (a : Nat) : (s.emit o).stack a = s.stack a := rfl
@[simp] theorem State.paddock_emit (o : Out) (a : Nat) : (s.emit o).paddock a = s.paddock a := rfl
@[simp] theorem State.job_emit (o : Out) (a : Nat) : (s.emit o).job a = s.job a := rfl
@[simp] theorem State.ctx_emit (o : Out) (a : Nat) : (s.emit o).ctx a = s.ctx a := rfl
@[simp] theorem State.func_emit (o : Out) (a : Nat) : (s.emit o).func a = s.func a := rfl
@[simp] theorem State.queue_emit (o : Out) (a d : Nat) : (s.emit o).queue a d = s.queue a d := rfl
@[simp] theorem State.port_emit (o : Out) (a : Nat) : (s.emit o).port a = s.port a := rfl
@[simp] theorem State.mmuCtx_emit (o : Out) (a : Nat) : (s.emit o).mmuCtx a = s.mmuCtx a := rfl
@[simp] theorem State.router_emit (o : Out) (a : Nat) : (s.emit o).router a = s.router a := rfl
@[simp] theorem State.core_emit (o : Out) (a : CoreId) : (s.emit o).core a = s.core a := rfl
@[simp] theorem State.lamp_emit (o : Out) (a : Nat) : (s.emit o).lamp a = s.lamp a := rfl
@[simp] theorem State.endpoint_emit (o : Out) (a : Nat) : (s.emit o).endpoint a = s.endpoint a := rfl
@[simp] theorem State.mailbox_emit (o : Out) (a : Nat) : (s.emit o).mailbox a = s.mailbox a := rfl
@[simp] theorem State.byte_emit (o : Out) (a : Nat) : (s.emit o).byte a = s.byte a := rfl
@[simp] theorem State.marked_emit (o : Out) (a : Nat) : (s.emit o).marked a = s.marked a := rfl

/-! #### State.store -/
@[simp] theorem State.store_marks (k : Nat) (bs : List Byte) : (s.store k bs).marks = s.marks := rfl
@[simp] theorem State.store_org (k : Nat) (bs : List Byte) : (s.store k bs).org = s.org := rfl
@[simp] theorem State.store_tiles (k : Nat) (bs : List Byte) : (s.store k bs).tiles = s.tiles := rfl
@[simp] theorem State.store_regions (k : Nat) (bs : List Byte) : (s.store k bs).regions = s.regions := rfl
@[simp] theorem State.store_net (k : Nat) (bs : List Byte) : (s.store k bs).net = s.net := rfl
@[simp] theorem State.store_mmu (k : Nat) (bs : List Byte) : (s.store k bs).mmu = s.mmu := rfl
@[simp] theorem State.store_hbms (k : Nat) (bs : List Byte) : (s.store k bs).hbms = s.hbms := rfl
@[simp] theorem State.store_host (k : Nat) (bs : List Byte) : (s.store k bs).host = s.host := rfl
@[simp] theorem State.store_errs (k : Nat) (bs : List Byte) : (s.store k bs).errs = s.errs := rfl
@[simp] theorem State.store_power (k : Nat) (bs : List Byte) : (s.store k bs).power = s.power := rfl
@[simp] theorem State.store_start (k : Nat) (bs : List Byte) : (s.store k bs).start = s.start := rfl
@[simp] theorem State.store_pins (k : Nat) (bs : List Byte) : (s.store k bs).pins = s.pins := rfl
@[simp] theorem State.store_fabric (k : Nat) (bs : List Byte) : (s.store k bs).fabric = s.fabric := rfl
@[simp] theorem State.store_fold (k : Nat) (bs : List Byte) : (s.store k bs).fold = s.fold := rfl
@[simp] theorem State.store_ident (k : Nat) (bs : List Byte) : (s.store k bs).ident = s.ident := rfl
@[simp] theorem State.store_events (k : Nat) (bs : List Byte) : (s.store k bs).events = s.events := rfl
@[simp] theorem State.store_rates (k : Nat) (bs : List Byte) : (s.store k bs).rates = s.rates := rfl
@[simp] theorem State.store_out (k : Nat) (bs : List Byte) : (s.store k bs).out = s.out := rfl
@[simp] theorem State.store_time (k : Nat) (bs : List Byte) : (s.store k bs).time = s.time := rfl
@[simp] theorem State.store_free (k : Nat) (bs : List Byte) : (s.store k bs).free = s.free := rfl
@[simp] theorem State.store_pending (k : Nat) (bs : List Byte) : (s.store k bs).pending = s.pending := rfl
@[simp] theorem State.tile_store (k : Nat) (bs : List Byte) (a : Nat) : (s.store k bs).tile a = s.tile a := rfl
@[simp] theorem State.region_store (k : Nat) (bs : List Byte) (a : Nat) : (s.store k bs).region a = s.region a := rfl
@[simp] theorem State.stack_store (k : Nat) (bs : List Byte) (a : Nat) : (s.store k bs).stack a = s.stack a := rfl
@[simp] theorem State.paddock_store (k : Nat) (bs : List Byte) (a : Nat) : (s.store k bs).paddock a = s.paddock a := rfl
@[simp] theorem State.job_store (k : Nat) (bs : List Byte) (a : Nat) : (s.store k bs).job a = s.job a := rfl
@[simp] theorem State.ctx_store (k : Nat) (bs : List Byte) (a : Nat) : (s.store k bs).ctx a = s.ctx a := rfl
@[simp] theorem State.func_store (k : Nat) (bs : List Byte) (a : Nat) : (s.store k bs).func a = s.func a := rfl
@[simp] theorem State.queue_store (k : Nat) (bs : List Byte) (a d : Nat) : (s.store k bs).queue a d = s.queue a d := rfl
@[simp] theorem State.port_store (k : Nat) (bs : List Byte) (a : Nat) : (s.store k bs).port a = s.port a := rfl
@[simp] theorem State.mmuCtx_store (k : Nat) (bs : List Byte) (a : Nat) : (s.store k bs).mmuCtx a = s.mmuCtx a := rfl
@[simp] theorem State.router_store (k : Nat) (bs : List Byte) (a : Nat) : (s.store k bs).router a = s.router a := rfl
@[simp] theorem State.core_store (k : Nat) (bs : List Byte) (a : CoreId) : (s.store k bs).core a = s.core a := rfl
@[simp] theorem State.lamp_store (k : Nat) (bs : List Byte) (a : Nat) : (s.store k bs).lamp a = s.lamp a := rfl
@[simp] theorem State.endpoint_store (k : Nat) (bs : List Byte) (a : Nat) : (s.store k bs).endpoint a = s.endpoint a := rfl
@[simp] theorem State.mailbox_store (k : Nat) (bs : List Byte) (a : Nat) : (s.store k bs).mailbox a = s.mailbox a := rfl
@[simp] theorem State.marked_store (k : Nat) (bs : List Byte) (a : Nat) : (s.store k bs).marked a = s.marked a := rfl

/-! #### State.mark -/
@[simp] theorem State.mark_mem (k : Nat) (b : Bool) : (s.mark k b).mem = s.mem := rfl
@[simp] theorem State.mark_org (k : Nat) (b : Bool) : (s.mark k b).org = s.org := rfl
@[simp] theorem State.mark_tiles (k : Nat) (b : Bool) : (s.mark k b).tiles = s.tiles := rfl
@[simp] theorem State.mark_regions (k : Nat) (b : Bool) : (s.mark k b).regions = s.regions := rfl
@[simp] theorem State.mark_net (k : Nat) (b : Bool) : (s.mark k b).net = s.net := rfl
@[simp] theorem State.mark_mmu (k : Nat) (b : Bool) : (s.mark k b).mmu = s.mmu := rfl
@[simp] theorem State.mark_hbms (k : Nat) (b : Bool) : (s.mark k b).hbms = s.hbms := rfl
@[simp] theorem State.mark_host (k : Nat) (b : Bool) : (s.mark k b).host = s.host := rfl
@[simp] theorem State.mark_errs (k : Nat) (b : Bool) : (s.mark k b).errs = s.errs := rfl
@[simp] theorem State.mark_power (k : Nat) (b : Bool) : (s.mark k b).power = s.power := rfl
@[simp] theorem State.mark_start (k : Nat) (b : Bool) : (s.mark k b).start = s.start := rfl
@[simp] theorem State.mark_pins (k : Nat) (b : Bool) : (s.mark k b).pins = s.pins := rfl
@[simp] theorem State.mark_fabric (k : Nat) (b : Bool) : (s.mark k b).fabric = s.fabric := rfl
@[simp] theorem State.mark_fold (k : Nat) (b : Bool) : (s.mark k b).fold = s.fold := rfl
@[simp] theorem State.mark_ident (k : Nat) (b : Bool) : (s.mark k b).ident = s.ident := rfl
@[simp] theorem State.mark_events (k : Nat) (b : Bool) : (s.mark k b).events = s.events := rfl
@[simp] theorem State.mark_rates (k : Nat) (b : Bool) : (s.mark k b).rates = s.rates := rfl
@[simp] theorem State.mark_out (k : Nat) (b : Bool) : (s.mark k b).out = s.out := rfl
@[simp] theorem State.mark_time (k : Nat) (b : Bool) : (s.mark k b).time = s.time := rfl
@[simp] theorem State.mark_free (k : Nat) (b : Bool) : (s.mark k b).free = s.free := rfl
@[simp] theorem State.mark_pending (k : Nat) (b : Bool) : (s.mark k b).pending = s.pending := rfl
@[simp] theorem State.tile_mark (k : Nat) (b : Bool) (a : Nat) : (s.mark k b).tile a = s.tile a := rfl
@[simp] theorem State.region_mark (k : Nat) (b : Bool) (a : Nat) : (s.mark k b).region a = s.region a := rfl
@[simp] theorem State.stack_mark (k : Nat) (b : Bool) (a : Nat) : (s.mark k b).stack a = s.stack a := rfl
@[simp] theorem State.paddock_mark (k : Nat) (b : Bool) (a : Nat) : (s.mark k b).paddock a = s.paddock a := rfl
@[simp] theorem State.job_mark (k : Nat) (b : Bool) (a : Nat) : (s.mark k b).job a = s.job a := rfl
@[simp] theorem State.ctx_mark (k : Nat) (b : Bool) (a : Nat) : (s.mark k b).ctx a = s.ctx a := rfl
@[simp] theorem State.func_mark (k : Nat) (b : Bool) (a : Nat) : (s.mark k b).func a = s.func a := rfl
@[simp] theorem State.queue_mark (k : Nat) (b : Bool) (a d : Nat) : (s.mark k b).queue a d = s.queue a d := rfl
@[simp] theorem State.port_mark (k : Nat) (b : Bool) (a : Nat) : (s.mark k b).port a = s.port a := rfl
@[simp] theorem State.mmuCtx_mark (k : Nat) (b : Bool) (a : Nat) : (s.mark k b).mmuCtx a = s.mmuCtx a := rfl
@[simp] theorem State.router_mark (k : Nat) (b : Bool) (a : Nat) : (s.mark k b).router a = s.router a := rfl
@[simp] theorem State.core_mark (k : Nat) (b : Bool) (a : CoreId) : (s.mark k b).core a = s.core a := rfl
@[simp] theorem State.lamp_mark (k : Nat) (b : Bool) (a : Nat) : (s.mark k b).lamp a = s.lamp a := rfl
@[simp] theorem State.endpoint_mark (k : Nat) (b : Bool) (a : Nat) : (s.mark k b).endpoint a = s.endpoint a := rfl
@[simp] theorem State.mailbox_mark (k : Nat) (b : Bool) (a : Nat) : (s.mark k b).mailbox a = s.mailbox a := rfl
@[simp] theorem State.byte_mark (k : Nat) (b : Bool) (a : Nat) : (s.mark k b).byte a = s.byte a := rfl

/-! #### The unit written, and the others of its kind -/
@[simp] theorem State.tile_modTile_same (a : Nat) (f : Tile → Tile) : (s.modTile a f).tile a = f (s.tile a) := tget_tput_same _ _ _
theorem State.tile_modTile_ne {a b : Nat} (f : Tile → Tile) (h : b ≠ a) : (s.modTile a f).tile b = s.tile b := tget_tput_ne _ _ h
@[simp] theorem State.region_setRegion_same (a : Nat) (x : Region) : (s.setRegion a x).region a = x := tget_tput_same _ _ _
theorem State.region_setRegion_ne {a b : Nat} (x : Region) (h : b ≠ a) : (s.setRegion a x).region b = s.region b := tget_tput_ne _ _ h
@[simp] theorem State.region_modRegion_same (a : Nat) (f : Region → Region) : (s.modRegion a f).region a = f (s.region a) := tget_tput_same _ _ _
theorem State.region_modRegion_ne {a b : Nat} (f : Region → Region) (h : b ≠ a) : (s.modRegion a f).region b = s.region b := tget_tput_ne _ _ h
@[simp] theorem State.stack_setStack_same (a : Nat) (x : Stack) : (s.setStack a x).stack a = x := tget_tput_same _ _ _
theorem State.stack_setStack_ne {a b : Nat} (x : Stack) (h : b ≠ a) : (s.setStack a x).stack b = s.stack b := tget_tput_ne _ _ h
@[simp] theorem State.stack_modStack_same (a : Nat) (f : Stack → Stack) : (s.modStack a f).stack a = f (s.stack a) := tget_tput_same _ _ _
theorem State.stack_modStack_ne {a b : Nat} (f : Stack → Stack) (h : b ≠ a) : (s.modStack a f).stack b = s.stack b := tget_tput_ne _ _ h
@[simp] theorem State.paddock_setPaddock_same (a : Nat) (x : Paddock) : (s.setPaddock a x).paddock a = x := tget_tput_same _ _ _
theorem State.paddock_setPaddock_ne {a b : Nat} (x : Paddock) (h : b ≠ a) : (s.setPaddock a x).paddock b = s.paddock b := tget_tput_ne _ _ h
@[simp] theorem State.paddock_modPaddock_same (a : Nat) (f : Paddock → Paddock) : (s.modPaddock a f).paddock a = f (s.paddock a) := tget_tput_same _ _ _
theorem State.paddock_modPaddock_ne {a b : Nat} (f : Paddock → Paddock) (h : b ≠ a) : (s.modPaddock a f).paddock b = s.paddock b := tget_tput_ne _ _ h
@[simp] theorem State.job_setJob_same (a : Nat) (x : Job) : (s.setJob a x).job a = x := tget_tput_same _ _ _
theorem State.job_setJob_ne {a b : Nat} (x : Job) (h : b ≠ a) : (s.setJob a x).job b = s.job b := tget_tput_ne _ _ h
@[simp] theorem State.job_modJob_same (a : Nat) (f : Job → Job) : (s.modJob a f).job a = f (s.job a) := tget_tput_same _ _ _
theorem State.job_modJob_ne {a b : Nat} (f : Job → Job) (h : b ≠ a) : (s.modJob a f).job b = s.job b := tget_tput_ne _ _ h
@[simp] theorem State.ctx_setCtx_same (a : Nat) (x : Context) : (s.setCtx a x).ctx a = x := tget_tput_same _ _ _
theorem State.ctx_setCtx_ne {a b : Nat} (x : Context) (h : b ≠ a) : (s.setCtx a x).ctx b = s.ctx b := tget_tput_ne _ _ h
@[simp] theorem State.func_setFunc_same (a : Nat) (x : Func) : (s.setFunc a x).func a = x := tget_tput_same _ _ _
theorem State.func_setFunc_ne {a b : Nat} (x : Func) (h : b ≠ a) : (s.setFunc a x).func b = s.func b := tget_tput_ne _ _ h
@[simp] theorem State.func_modFunc_same (a : Nat) (f : Func → Func) : (s.modFunc a f).func a = f (s.func a) := tget_tput_same _ _ _
theorem State.func_modFunc_ne {a b : Nat} (f : Func → Func) (h : b ≠ a) : (s.modFunc a f).func b = s.func b := tget_tput_ne _ _ h
@[simp] theorem State.port_setPort_same (a : Nat) (x : HostPort) : (s.setPort a x).port a = x := tget_tput_same _ _ _
theorem State.port_setPort_ne {a b : Nat} (x : HostPort) (h : b ≠ a) : (s.setPort a x).port b = s.port b := tget_tput_ne _ _ h
@[simp] theorem State.mmuCtx_setMmuCtx_same (a : Nat) (x : MmuCtx) : (s.setMmuCtx a x).mmuCtx a = x := tget_tput_same _ _ _
theorem State.mmuCtx_setMmuCtx_ne {a b : Nat} (x : MmuCtx) (h : b ≠ a) : (s.setMmuCtx a x).mmuCtx b = s.mmuCtx b := tget_tput_ne _ _ h
@[simp] theorem State.router_setRouter_same (a : Nat) (x : Router) : (s.setRouter a x).router a = x := tget_tput_same _ _ _
theorem State.router_setRouter_ne {a b : Nat} (x : Router) (h : b ≠ a) : (s.setRouter a x).router b = s.router b := tget_tput_ne _ _ h
@[simp] theorem State.router_modRouter_same (a : Nat) (f : Router → Router) : (s.modRouter a f).router a = f (s.router a) := tget_tput_same _ _ _
theorem State.router_modRouter_ne {a b : Nat} (f : Router → Router) (h : b ≠ a) : (s.modRouter a f).router b = s.router b := tget_tput_ne _ _ h
@[simp] theorem State.lamp_modLamp_same (a : Nat) (f : Lamp → Lamp) : (s.modLamp a f).lamp a = f (s.lamp a) := tget_tput_same _ _ _
theorem State.lamp_modLamp_ne {a b : Nat} (f : Lamp → Lamp) (h : b ≠ a) : (s.modLamp a f).lamp b = s.lamp b := tget_tput_ne _ _ h
@[simp] theorem State.endpoint_modEp_same (a : Nat) (f : Endpoint → Endpoint) : (s.modEp a f).endpoint a = f (s.endpoint a) := tget_tput_same _ _ _
theorem State.endpoint_modEp_ne {a b : Nat} (f : Endpoint → Endpoint) (h : b ≠ a) : (s.modEp a f).endpoint b = s.endpoint b := tget_tput_ne _ _ h
@[simp] theorem State.mailbox_modMailbox_same (a : Nat) (f : Mailbox → Mailbox) : (s.modMailbox a f).mailbox a = f (s.mailbox a) := tget_tput_same _ _ _
theorem State.mailbox_modMailbox_ne {a b : Nat} (f : Mailbox → Mailbox) (h : b ≠ a) : (s.modMailbox a f).mailbox b = s.mailbox b := tget_tput_ne _ _ h
@[simp] theorem State.queue_setQueue_same (n q : Nat) (x : Queue) : (s.setQueue n q x).queue n q = x := tget_tput_same _ _ _
@[simp] theorem State.queue_modQueue_same (n q : Nat) (f : Queue → Queue) : (s.modQueue n q f).queue n q = f (s.queue n q) := tget_tput_same _ _ _
@[simp] theorem State.fold_modFold_same (f : Fold → Fold) : (s.modFold f).fold = f s.fold := rfl
@[simp] theorem State.ident_modIdent_same (f : Ident → Ident) : (s.modIdent f).ident = f s.ident := rfl
@[simp] theorem State.power_modPower_same (f : Power → Power) : (s.modPower f).power = f s.power := rfl
@[simp] theorem State.start_modStart_same (f : Start → Start) : (s.modStart f).start = f s.start := rfl
@[simp] theorem State.fabric_modFabric_same (f : Fabric → Fabric) : (s.modFabric f).fabric = f s.fabric := rfl
@[simp] theorem State.out_emit_same (o : Out) : (s.emit o).out = s.out ++ [o] := rfl

end Sys2Proof.Machine
end

