-- ==== Sys2Proof/Laws/Ops.lean ====
section
/-! SUPPORT. What each shared operation does: memory keeps its canonical form and reads as written, marks stay a rising list, records,
what leaves the module, defects and free values. -/
namespace Sys2Proof.Machine

/-! ### Memory -/

/-- Bytes stored keep the canonical form. -/
theorem Memory.wf_putBytes : ∀ (bs : List Byte) (m : List Host.Cell) (k : Nat), Memory.wf m = true → Memory.wf (putBytes m k bs) = true
  | [], _, _, h => h
  | b :: t, _, k, h => Memory.wf_putBytes t _ (k + 1) (Tab.wf_tput (β := Byte) k b h)
theorem Memory.wf_store (s : State) (k : Nat) (bs : List Byte) (h : Memory.wf s.mem = true) : Memory.wf (s.store k bs).mem = true := Memory.wf_putBytes bs s.mem k h
theorem Memory.wf_storeWord (s : State) (k : Nat) (bs : List Byte) (b : Bool) (h : Memory.wf s.mem = true) : Memory.wf (s.storeWord k bs b).mem = true := Memory.wf_store s k bs h
theorem Memory.wf_garble (s : State) (k n : Nat) (h : Memory.wf s.mem = true) : Memory.wf (s.garble k n).mem = true := Memory.wf_store _ k _ h
theorem tabFrom_filter {β : Type} [Inhabited β] [DecidableEq β] (p : Nat × β → Bool) : ∀ (t : Tab β) (lo : Nat), tabFrom lo t = true → tabFrom lo (t.filter p) = true
  | [], _, _ => rfl
  | (k, v) :: t, lo, h => by
    simp only [tabFrom, Bool.and_eq_true] at h
    rw [List.filter_cons]
    split
    · simp only [tabFrom, Bool.and_eq_true]; exact ⟨h.1, tabFrom_filter p t (k + 1) h.2⟩
    · refine tabFrom_filter p t lo (tabFrom_mono ?_ h.2)
      have := of_decide_eq_true h.1.1; omega
/-- Taking bytes out of the memory (a zero-fill, a power loss) keeps the canonical form. -/
theorem Memory.wf_filter (p : Host.Cell → Bool) {m : List Host.Cell} (h : Memory.wf m = true) : Memory.wf (m.filter p) = true := tabFrom_filter p m 0 h

/-- What a byte reads as after bytes were stored from key `k` on. -/
theorem tget_putBytes : ∀ (bs : List Byte) (m : List Host.Cell) (k a : Nat),
    tget (putBytes m k bs) a = if h : k ≤ a ∧ a - k < bs.length then bs[a - k]'h.2 else tget m a
  | [], m, k, a => by rw [dif_neg (fun h => absurd h.2 (Nat.not_lt_zero _))]; rfl
  | b :: t, m, k, a => by
    rw [putBytes, tget_putBytes t _ (k + 1) a, tget_tput]
    by_cases e : a = k
    · subst e
      rw [dif_neg (by omega), dif_pos ⟨Nat.le_refl a, by simp⟩, if_pos rfl]
      simp only [Nat.sub_self, List.getElem_cons_zero]
    · by_cases l : k ≤ a
      · have d : a - k = (a - (k + 1)) + 1 := by omega
        simp only [d, List.length_cons, List.getElem_cons_succ, e, if_false]
        by_cases q : a - (k + 1) < t.length
        · rw [dif_pos ⟨by omega, q⟩, dif_pos ⟨l, by omega⟩]
        · rw [dif_neg fun h => q h.2, dif_neg fun h => q (by omega)]
      · simp [show ¬ k + 1 ≤ a by omega, l, e]
/-- A store changes no byte outside the bytes stored. -/
theorem State.byte_store_ne (s : State) {k a : Nat} {bs : List Byte} (h : a < k ∨ k + bs.length ≤ a) : (s.store k bs).byte a = s.byte a := by
  unfold State.byte State.store
  rw [tget_putBytes, dif_neg (by omega)]
/-- A byte stored reads as stored. -/
theorem State.byte_store_at (s : State) (k i : Nat) (bs : List Byte) (h : i < bs.length) : (s.store k bs).byte (k + i) = bs[i] := by
  unfold State.byte State.store
  rw [tget_putBytes, dif_pos ⟨Nat.le_add_right k i, by simpa using h⟩]
  congr 1; omega
/-- Consecutive bytes read are as many as asked for, each the byte at its key. -/
@[simp] theorem State.bytes_length (s : State) : ∀ (n k : Nat), (s.bytes k n).length = n
  | 0, _ => rfl
  | n + 1, k => by simp [State.bytes, State.bytes_length s n]
theorem State.bytes_getElem (s : State) : ∀ (n k i : Nat) (h : i < (s.bytes k n).length), (s.bytes k n)[i] = s.byte (k + i)
  | 0, _, _, h => absurd h (Nat.not_lt_zero _)
  | n + 1, k, 0, _ => rfl
  | n + 1, k, i + 1, h => by
    simp only [State.bytes, List.getElem_cons_succ]
    rw [State.bytes_getElem s n (k + 1) i]; congr 1; omega
/-- Bytes just stored read back. -/
theorem State.bytes_store (s : State) (k : Nat) (bs : List Byte) : (s.store k bs).bytes k bs.length = bs := by
  apply List.ext_getElem (by simp)
  intro i h _
  rw [State.bytes_getElem, State.byte_store_at _ _ _ _ (by simpa using h)]
/-- A read goes by the memory alone. -/
theorem State.bytes_congr {s t : State} (h : s.mem = t.mem) : ∀ (n k : Nat), s.bytes k n = t.bytes k n
  | 0, _ => rfl
  | n + 1, k => by simp only [State.bytes, State.byte, h, State.bytes_congr h n]

/-! ### Numbers as bytes -/

@[simp] theorem toBytes_length (v : Nat) : ∀ n, (toBytes v n).length = n
  | 0 => rfl
  | n + 1 => by simp [toBytes, toBytes_length (v / 256) n]
theorem ofBytes_toBytes (n v : Nat) : ofBytes (toBytes v n) = v % 256 ^ n := by
  induction n generalizing v with
  | zero => simp [toBytes, ofBytes, Nat.mod_one]
  | succ n ih =>
    simp only [toBytes, ofBytes, ih, BitVec.toNat_ofNat]
    have e := Nat.mod_mul (x := v) (a := 256) (b := 256 ^ n)
    have p : 256 ^ (n + 1) = 256 * 256 ^ n := by rw [Nat.pow_succ, Nat.mul_comm]
    rw [p, e]
theorem ofBytes_lt (bs : List Byte) : ofBytes bs < 256 ^ bs.length := by
  induction bs with
  | nil => simp [ofBytes]
  | cons b t ih =>
    have hb := b.isLt
    have p : 256 ^ (t.length + 1) = 256 * 256 ^ t.length := by rw [Nat.pow_succ, Nat.mul_comm]
    simp only [ofBytes, List.length_cons, p]; omega
/-- A number stored in its bytes reads back. -/
theorem State.nat_store (s : State) (k n v : Nat) (h : v < 256 ^ n) : (s.store k (toBytes v n)).nat k n = v := by
  have e := s.bytes_store k (toBytes v n)
  rw [toBytes_length] at e
  rw [State.nat, e, ofBytes_toBytes, Nat.mod_eq_of_lt h]

/-! ### Marks -/

theorem risingFrom_filter (p : Nat → Bool) : ∀ (l : List Nat) (lo : Nat), risingFrom lo l = true → risingFrom lo (l.filter p) = true
  | [], _, _ => rfl
  | a :: t, lo, w => by
    simp only [risingFrom, Bool.and_eq_true, decide_eq_true_eq] at w
    rw [List.filter_cons]
    split
    · simp only [risingFrom, Bool.and_eq_true, decide_eq_true_eq]; exact ⟨w.1, risingFrom_filter p t (a + 1) w.2⟩
    · exact risingFrom_filter p t lo (risingFrom_mono (by omega) w.2)
/-- A mark set or cleared keeps the marks a rising list. -/
theorem risingFrom_mark (s : State) (k : Nat) (b : Bool) (h : risingFrom 0 s.marks = true) : risingFrom 0 (s.mark k b).marks = true := risingFrom_setPut k b h
/-- What a unit's mark reads as after one unit's mark was written. -/
theorem State.marked_mark (s : State) (k j : Nat) (b : Bool) : (s.mark k b).marked j = if j = k then b else s.marked j := by
  unfold State.marked State.mark setPut
  cases b
  · simp only [Bool.false_eq_true, if_false, contains_setDel]; split <;> simp_all
  · simp only [if_true, contains_setIns]; split <;> simp_all
/-- A whole word written: its bytes, and its mark. -/
theorem State.storeWord_eq (s : State) (k : Nat) (bs : List Byte) (b : Bool) : s.storeWord k bs b = { s with mem := putBytes s.mem k bs, marks := setPut s.marks k b } := rfl
/-- An uncorrectable error takes the bytes and one free value, and nothing else. -/
theorem State.garble_eq (s : State) (k n : Nat) : s.garble k n = { s with mem := putBytes s.mem k (toBytes (Config.freeValue s.free) n), free := s.free + 1 } := rfl
theorem State.takeFree_eq (s : State) : s.takeFree = (Config.freeValue s.free, { s with free := s.free + 1 }) := rfl

/-! ### Records, defects, wakes -/

/-- A record of a code that is not counted is sent, and nothing else changes. -/
theorem State.raise_plain (s : State) (e : EventRec) (h : countPeriod e.code = 0) : s.raise e = { s with events := s.events ++ [e] } := by
  unfold State.raise; simp only [h, if_true]
/-- Whatever its code, a record changes the records and their counts alone. -/
theorem State.raise_frame (s : State) (e : EventRec) : s.raise e = { s with events := (s.raise e).events, rates := (s.raise e).rates } := by
  unfold State.raise
  simp only []
  repeat' split
  all_goals rfl
@[simp] theorem State.raise_mem (s : State) (e : EventRec) : (s.raise e).mem = s.mem := by rw [State.raise_frame]
@[simp] theorem State.raise_marks (s : State) (e : EventRec) : (s.raise e).marks = s.marks := by rw [State.raise_frame]
@[simp] theorem State.raise_org (s : State) (e : EventRec) : (s.raise e).org = s.org := by rw [State.raise_frame]
@[simp] theorem State.raise_tiles (s : State) (e : EventRec) : (s.raise e).tiles = s.tiles := by rw [State.raise_frame]
@[simp] theorem State.raise_regions (s : State) (e : EventRec) : (s.raise e).regions = s.regions := by rw [State.raise_frame]
@[simp] theorem State.raise_net (s : State) (e : EventRec) : (s.raise e).net = s.net := by rw [State.raise_frame]
@[simp] theorem State.raise_mmu (s : State) (e : EventRec) : (s.raise e).mmu = s.mmu := by rw [State.raise_frame]
@[simp] theorem State.raise_hbms (s : State) (e : EventRec) : (s.raise e).hbms = s.hbms := by rw [State.raise_frame]
@[simp] theorem State.raise_host (s : State) (e : EventRec) : (s.raise e).host = s.host := by rw [State.raise_frame]
@[simp] theorem State.raise_errs (s : State) (e : EventRec) : (s.raise e).errs = s.errs := by rw [State.raise_frame]
@[simp] theorem State.raise_power (s : State) (e : EventRec) : (s.raise e).power = s.power := by rw [State.raise_frame]
@[simp] theorem State.raise_start (s : State) (e : EventRec) : (s.raise e).start = s.start := by rw [State.raise_frame]
@[simp] theorem State.raise_fabric (s : State) (e : EventRec) : (s.raise e).fabric = s.fabric := by rw [State.raise_frame]
@[simp] theorem State.raise_fold (s : State) (e : EventRec) : (s.raise e).fold = s.fold := by rw [State.raise_frame]
@[simp] theorem State.raise_ident (s : State) (e : EventRec) : (s.raise e).ident = s.ident := by rw [State.raise_frame]
@[simp] theorem State.raise_out (s : State) (e : EventRec) : (s.raise e).out = s.out := by rw [State.raise_frame]
@[simp] theorem State.raise_time (s : State) (e : EventRec) : (s.raise e).time = s.time := by rw [State.raise_frame]
@[simp] theorem State.raise_free (s : State) (e : EventRec) : (s.raise e).free = s.free := by rw [State.raise_frame]
@[simp] theorem State.raise_pending (s : State) (e : EventRec) : (s.raise e).pending = s.pending := by rw [State.raise_frame]
@[simp] theorem State.raise_pins (s : State) (e : EventRec) : (s.raise e).pins = s.pins := by rw [State.raise_frame]
/-- A defect changes the defect map alone. -/
theorem State.defect_frame (s : State) (kind cause : Nat) (w : List Nat) (d : Nat) : s.defect kind cause w d = { s with org := { s.org with
    defects := s.org.defects ++ [{ kind := kind, cause := cause, where_ := w, time := s.time, seq := s.org.defectSeq + 1, detail := d }], defectSeq := s.org.defectSeq + 1 } } := rfl
/-- A tile declared unfit changes the record of the tiles alone. -/
theorem State.declareUnfit_frame (s : State) (t cause : Nat) : s.declareUnfit t cause = { s with org := (s.declareUnfit t cause).org } := by
  unfold State.declareUnfit; split <;> rfl
/-- A request to wake changes the list of those that wait alone. -/
theorem State.wantWake_frame (s : State) (r : Nat) : s.wantWake r = { s with power := { s.power with wakes := (s.wantWake r).power.wakes } } := by
  unfold State.wantWake; split <;> rfl

end Sys2Proof.Machine
end

