-- ==== Sys2Proof/WellFormed.lean ====
section
/-! DEFINITION. Well-formed commands: operands within the ranges that the formats of the spec give them. exec answers for every
command; this is what a sender keeps to. -/
namespace Sys2Proof

/-- The widths of R303, and the marks of words the packet has (R306). -/
def Packet.wf (p : Packet) : Bool :=
  decide (p.vc < 4) && decide (p.words ≤ 64) && decide (p.tag < 2 ^ 16) && decide (p.src < 1024) && decide (p.dst < 1024) && decide (p.status < 16)
    && decide (p.context < 256) && decide (p.srcLid < 2 ^ 16) && decide (p.dstLid < 2 ^ 16) && decide (p.drove < 2 ^ 16) && decide (p.txn < 2 ^ 12)
    && decide (p.addr < 2 ^ 64) && decide (p.poison < 2 ^ 64) && decide (p.data.length ≤ 64) && decide (p.left < 64)
/-- The widths of R540. -/
def FPacket.wf (p : FPacket) : Bool :=
  decide (p.typ < 16) && decide (p.vl < 2) && decide (p.status < 8) && decide (p.words ≤ 64) && decide (p.srcMod < 2 ^ 12) && decide (p.dstMod < 2 ^ 12)
    && decide (p.hops < 16) && decide (p.srcEp < 1024) && decide (p.dstEp < 1024) && decide (p.txn < 2 ^ 16) && decide (p.offset < 2 ^ 48)
    && decide (p.poison < 2 ^ 64) && decide (p.data.length ≤ 64)
/-- The widths of R521. -/
def FlitHead.wf (f : FlitHead) : Bool :=
  decide (f.typ < 16) && decide (f.vl < 4) && decide (f.seq < 4096) && decide (f.ack < 4096) && decide (f.cvl < 4) && decide (f.credits < 1024)
/-- Channels, nodes and ranks of R338-R340. -/
def HMsg.wf (m : HMsg) : Bool :=
  decide (m.paddock < 2 ^ 16) && decide (m.channel < 64) && decide (m.dst < 576) && decide (m.src < 576) && decide (m.tile < 576) && decide (m.op < 16)
    && decide (m.first < 576) && decide (m.last < 576) && decide (m.value < 2 ^ 64) && decide (m.code < 256)
/-- Requesters and words of R164 and R192. -/
def PortReq.wf (r : PortReq) : Bool := decide (r.requester < 7) && decide (r.words.length ≤ 32) && r.words.all fun w => decide (w < 262144)
/-- The cells that a tile has (R51, R71, R162, R202). -/
def Upset.wf : Upset → Bool
  | .spdWord w b => decide (w < 262144) && decide (1 ≤ b)
  | .privUnit c u b => decide (c < 2) && decide (u < 16384) && decide (1 ≤ b)
  | .slotBit a k r c b => decide (a < 4) && decide (k < 2) && decide (r < 64) && decide (c < 64) && decide (b < 24)
  | .accEntry a r c _ => decide (a < 4) && decide (r < 512) && decide (c < 64)
/-- Host addresses have 64 bits. -/
def HostMem.wf (h : HostMem) : Bool := h.all fun e => decide (e.1 < 2 ^ 64)
/-- Members are logical IDs, at most a paddock's (R325, R326). -/
def TableWrite.wf : TableWrite → Bool
  | .route .. => true
  | .fork _ _ _ beneath uni _ _ => (beneath ++ uni).all fun l => decide (l < 540)
  | .unfork .. => true
  | .bind .. => true
/-- FMULT is 16 or more (R355). -/
def PowerCmd.wf : PowerCmd → Bool
  | .fmult f => decide (16 ≤ f.val)
  | _ => true
/-- One sample of each region, brick and edge domain (R589). -/
def PowerSample.wf (m : PowerSample) : Bool :=
  decide (m.regions.map (·.region)).Nodup && decide (m.bricks.map (·.1)).Nodup && decide (m.edges.map (·.1)).Nodup
/-- Words within an access, each with its number of wrong bits. -/
def wordPlaces (l : List (Nat × Nat)) : Bool := decide (l.map (·.1)).Nodup

/-- Is a command well formed: does every operand keep the range that its row and the formats it carries give it? -/
def Instr.wf (i : Instr) : Bool :=
  match i with
  | .registerWrite _ _ bytes _ => decide (1 ≤ bytes.val)
  | .reg64LoRead _ _ bytes => decide (1 ≤ bytes.val)
  | .reg64LoWrite _ _ _ => true
  | .reg64HiWrite _ _ _ => true
  | .clearingEnd _ _ => true
  | .arrayTick _ upsets => upsets.all Upset.wf
  | .columnBypassApply _ _ _ => true
  | .feederEntry _ _ => true
  | .loaderCommit _ => true
  | .drainRead _ _ => true
  | .alu _ _ _ _ _ _ => true
  | .addi _ _ _ _ => true
  | .andi _ _ _ _ => true
  | .ori _ _ _ _ => true
  | .xori _ _ _ _ => true
  | .shi _ _ _ _ => true
  | .lui _ _ _ _ => true
  | .slti _ _ _ _ => true
  | .load _ _ _ _ _ => true
  | .store _ _ _ _ _ => true
  | .amo _ _ _ _ _ _ => true
  | .fpu _ _ _ _ _ _ => true
  | .br _ _ _ _ _ => true
  | .jal _ _ _ => true
  | .jalr _ _ _ _ => true
  | .srr _ _ _ _ => true
  | .srw _ _ _ _ => true
  | .fence _ _ _ _ => true
  | .ecall _ _ _ _ => true
  | .ebreak _ _ _ _ => true
  | .eret _ _ _ _ => true
  | .pause _ _ _ _ => true
  | .exit _ _ _ _ => true
  | .tld _ _ _ _ => true
  | .tst _ _ _ _ => true
  | .trd _ _ _ _ => true
  | .twr _ _ _ _ => true
  | .qmov _ _ _ _ => true
  | .vint _ _ _ _ _ _ _ => true
  | .vfp _ _ _ _ _ _ _ => true
  | .vcmp _ _ _ _ _ _ _ => true
  | .vcvt _ _ _ _ _ _ _ => true
  | .vperm _ _ _ _ _ _ _ => true
  | .vred _ _ _ _ _ _ _ => true
  | .vld _ _ _ _ _ _ _ _ => true
  | .vst _ _ _ _ _ _ _ _ => true
  | .vmov _ _ _ _ _ _ _ => true
  | .vspec _ _ _ _ _ _ _ => true
  | .pred _ _ _ _ _ _ _ => true
  | .li _ _ _ => true
  | .laddi _ _ _ => true
  | .ljal _ _ _ => true
  | .mload _ _ _ _ _ _ _ _ => true
  | .mpass _ _ _ _ _ _ _ _ => true
  | .mdrain _ _ _ _ _ _ _ _ => true
  | .mmode _ _ _ _ _ _ _ => true
  | .mwait _ _ _ _ _ _ => true
  | .mpoll _ _ _ _ _ _ => true
  | .mwaitall _ _ _ _ _ _ => true
  | .xopen _ _ _ _ _ _ => true
  | .xclose _ _ _ _ _ _ => true
  | .xcopyGet _ _ _ _ _ _ _ _ => true
  | .xcopyPut _ _ _ _ _ _ _ _ => true
  | .xput _ _ _ _ _ _ _ => true
  | .packNm _ _ _ _ _ _ _ _ => true
  | .unpackNm _ _ _ _ _ _ _ _ => true
  | .packBcr _ _ _ _ _ _ _ _ => true
  | .unpackBcrGather _ _ _ _ _ _ _ _ => true
  | .unpackBcrExpand _ _ _ _ _ _ _ _ => true
  | .xsend _ _ _ _ _ _ _ _ => true
  | .xwait _ _ _ _ _ _ => true
  | .xpoll _ _ _ _ _ _ => true
  | .xfence _ _ _ _ _ _ => true
  | .xwaitall _ _ _ _ _ _ => true
  | .dlayer _ _ _ _ _ _ => true
  | .drelease _ _ _ _ _ _ => true
  | .dstep _ _ _ _ _ _ => true
  | .dgate _ _ _ _ _ _ => true
  | .bundleWaitExpiry _ _ => true
  | .dflush _ _ _ _ _ _ => true
  | .dspill _ _ _ _ _ _ => true
  | .dreturn _ _ _ _ _ _ => true
  | .spillWriteDone _ _ _ _ => true
  | .dspBalReset _ => true
  | .harm _ _ _ _ _ _ => true
  | .hclose _ _ _ _ _ _ => true
  | .hpass _ _ _ _ _ _ _ => true
  | .hwait _ _ _ _ _ _ => true
  | .htest _ _ _ _ _ _ => true
  | .hstat _ _ _ _ _ _ => true
  | .hurdleArmMessage m => m.wf
  | .hurdleContribution m => m.wf
  | .hurdleCompletion m => m.wf
  | .hurdleNodeUe _ => true
  | .linkWaitSplit _ => true
  | .spdPortArbitration _ raised => raised.all PortReq.wf
  | .cbFlushTimeout _ _ => true
  | .spdEccWriteback _ _ _ => true
  | .spdZoneWrite _ _ _ => true
  | .zoneSweepRow _ => true
  | .scrubStep _ _ => true
  | .zeroFillRow _ => true
  | .spdRemoteRead _ _ => true
  | .seqRerunRead _ _ => true
  | .write p => p.wf
  | .writeAck p => p.wf
  | .read p => p.wf
  | .readData p => p.wf
  | .droveData p _ => p.wf
  | .droveAck p => p.wf
  | .notice p => p.wf
  | .memWrite p upsets => p.wf && wordPlaces upsets
  | .memRead p upsets => p.wf && wordPlaces upsets
  | .memData p => p.wf
  | .memAck p => p.wf
  | .pruneNote p => p.wf
  | .routerForward _ _ _ p => p.wf
  | .routerArbitration _ _ _ => true
  | .overholdCutoff _ _ _ p => p.wf
  | .linkBeatReceive _ _ _ _ p => p.all Packet.wf
  | .requestTimeout _ _ => true
  | .busyResend _ _ => true
  | .droveInstall _ _ _ => true
  | .droveRemove _ _ => true
  | .droveRebuild _ _ => true
  | .forkBufferSend _ _ => true
  | .droveBranchPrune _ _ p => p.wf
  | .regRead _ _ => true
  | .regWrite _ _ _ => true
  | .regData => true
  | .event _ => true
  | .faultNote _ => true
  | .preempt _ _ => true
  | .preemptDone _ => true
  | .tileReset _ => true
  | .regionReset _ => true
  | .power _ c => c.wf
  | .hurdleCtl _ _ _ => true
  | .table _ w => w.wf
  | .bankSwitch => true
  | .telemetry _ _ => true
  | .oscillatorSwitch => true
  | .transitPllLockTimeout _ => true
  | .regionPllLockTimeout _ => true
  | .clockStretch _ _ => true
  | .frequencyChange _ => true
  | .frequencyRestart _ => true
  | .calibrationDone _ _ _ => true
  | .timestampMarker _ => true
  | .schGo _ => true
  | .schAbort _ => true
  | .abortDrained _ => true
  | .schLoad _ _ => true
  | .schLoadDone _ => true
  | .schLimitWrite _ _ => true
  | .schDoneRead _ => true
  | .scheduleTick _ _ _ => true
  | .scheduledWordArrive _ _ => true
  | .schStall _ => true
  | .walkComplete _ _ _ => true
  | .atsTranslationCompletion _ _ _ _ _ _ _ _ => true
  | .prgResponse _ _ _ => true
  | .atsInvalidateRequest _ _ _ _ _ => true
  | .atsPriDisable _ _ _ => true
  | .mmuSvaWrite _ _ _ _ => true
  | .mmuInvContext _ _ => true
  | .mmuInvRange _ _ _ _ => true
  | .mmuInvFunction _ => true
  | .xtcInvAll _ => true
  | .xtcInvRange _ _ _ => true
  | .invalidationComplete _ => true
  | .faultRecordWrite _ => true
  | .fqHeadWrite _ _ _ => true
  | .fqResRetry _ _ _ => true
  | .fqResFail _ _ _ => true
  | .fltResRetry _ _ => true
  | .fltResFail _ _ => true
  | .fltNoteRead _ => true
  | .fltHeadWrite _ _ => true
  | .saveComplete _ => true
  | .sliceEnd _ => true
  | .restoreComplete _ _ words => wordPlaces words
  | .saveAreaRoom _ => true
  | .hbmScrubStep _ upsets _ => wordPlaces upsets
  | .migrationStep _ upsets => wordPlaces upsets
  | .hbmRefresh _ _ => true
  | .selfRefreshEntry _ => true
  | .selfRefreshExit _ => true
  | .hbmTrainingDone _ _ _ failed => decide failed.Nodup
  | .testStepPart _ _ => true
  | .stackReset _ => true
  | .hbmCeRead _ => true
  | .hbmUeRead _ => true
  | .fncEnable _ => true
  | .fncDisable _ => true
  | .flr _ => true
  | .hostLinkDown _ => true
  | .hostLinkTrained _ width gt => [1, 2, 4, 8, 16].contains width && [2, 5, 8, 16, 32, 64].contains gt
  | .perstNAssert _ => true
  | .perstNDeassert _ => true
  | .sqTailDoorbell _ _ _ => true
  | .cqHeadDoorbell _ _ _ => true
  | .deviceRingPoll _ _ host => host.wf
  | .commandFetch _ _ _ _ => true
  | .coalesceTimeout _ _ => true
  | .createQueue _ _ _ => true
  | .deleteQueue _ _ _ => true
  | .allot _ _ _ => true
  | .createContext _ _ _ => true
  | .destroyContext _ _ _ => true
  | .createPaddock _ _ _ => true
  | .growPaddock _ _ _ => true
  | .shrinkPaddock _ _ _ => true
  | .setPaddock _ _ _ => true
  | .replacePaddock _ _ _ => true
  | .releasePaddock _ _ _ => true
  | .getPlacement _ _ _ => true
  | .alloc _ _ _ => true
  | .free _ _ _ => true
  | .map _ _ _ => true
  | .unmap _ _ _ => true
  | .copy _ _ _ => true
  | .getFaults _ _ _ => true
  | .resolve _ _ _ => true
  | .loadImage _ _ _ host => host.wf
  | .unloadImage _ _ _ => true
  | .submit _ _ _ => true
  | .suspend _ _ _ => true
  | .resume _ _ _ => true
  | .cancel _ _ _ => true
  | .query _ _ _ => true
  | .jobCtlSuspend _ _ => true
  | .jobCtlResume _ => true
  | .jobCtlCancel _ => true
  | .jobStart _ host => host.wf
  | .stackTest _ => true
  | .stackScrub _ => true
  | .linkRetrain _ => true
  | .regionRetest _ => true
  | .rechar _ => true
  | .fwStage _ => true
  | .fwActivate _ => true
  | .licenceInstall _ => true
  | .logRotate _ => true
  | .maintStepEnd _ _ => true
  | .signalDetectPoll _ _ => true
  | .trainingStepDone _ _ lanes _ _ _ _ => decide lanes.Nodup
  | .trainingRetry _ => true
  | .lowPowerEntry _ _ => true
  | .lowPowerExit _ => true
  | .codewordReceive _ _ flits _ _ => flits.all FlitHead.wf
  | .replayReq _ _ _ => true
  | .laneCmd _ _ => true
  | .swapMarker _ => true
  | .laneFailure _ _ => true
  | .linkIdleTimeout _ => true
  | .hello _ _ _ => true
  | .floorAdvTimer => true
  | .floorAdv _ _ _ _ _ => true
  | .floorTableExpiry _ => true
  | .floorHoldExpiry => true
  | .linkState _ _ body => decide (body.length = 5)
  | .route _ _ _ _ => true
  | .group _ _ _ _ => true
  | .keyUpdate _ => true
  | .rekeyTimer _ => true
  | .echo _ _ _ _ _ => true
  | .fabricWrite _ p => p.wf
  | .fabricWriteAck _ p host => p.wf && host.wf
  | .fabricRead _ p host => p.wf && host.wf
  | .fabricReadData _ p => p.wf
  | .fabricGroup _ p => p.wf
  | .groupAck _ p => p.wf
  | .fabricHurdle _ p => p.wf
  | .hurdleDone _ p => p.wf
  | .endpointTailPoll _ _ host => host.wf
  | .descWrite _ host => host.wf
  | .descRead _ host => host.wf
  | .groupWrite _ host => host.wf
  | .descHurdle _ host => host.wf
  | .fabricRequestTimeout _ _ host => host.wf
  | .groupBranchPrune _ p => p.wf
  | .lnkPortReset _ _ => true
  | .lnkPortEnableWrite _ _ _ => true
  | .lnkEqForget _ _ => true
  | .pfecUeRead _ _ => true
  | .preplayRead _ _ => true
  | .lnkModuleWrite _ _ => true
  | .lnkRtDataWrite _ _ => true
  | .epOpen _ _ => true
  | .epClose _ _ host => host.wf
  | .groupEntryWrite _ _ => true
  | .cabPwrOvercurrent _ => true
  | .feedLoss _ _ => true
  | .feedRestore _ => true
  | .fsenseOpen _ => true
  | .busUndervoltage => true
  | .regulatorInputSwitch _ => true
  | .brickFoldback _ => true
  | .brickFailure _ => true
  | .idleEntry _ => true
  | .idleExit _ => true
  | .napTimer _ => true
  | .offTimer _ => true
  | .wakeStart _ => true
  | .wakeComplete _ _ => true
  | .voltageSlewDone _ => true
  | .ageingCheck _ _ tiles => decide tiles.Nodup
  | .capAllocation m => m.wf
  | .grantEnforce _ _ => true
  | .estimatorRefit _ => true
  | .sensorSelfCheck _ _ failed => decide failed.Nodup
  | .thermalForcedDrop _ => true
  | .thermalTrip _ _ => true
  | .tripRelease _ => true
  | .heatShutdown _ => true
  | .hbmThermalThrottle _ _ => true
  | .linkEdgeThermal _ _ => true
  | .foldCapUpdate _ _ _ => true
  | .dropLineAssert _ => true
  | .regulatorFault _ _ _ _ => true
  | .lowestStateRelease => true
  | .regionShort _ => true
  | .moduleReset _ _ _ => true
  | .startCoolantWait => true
  | .waveStart => true
  | .gleanRound _ => true
  | .selfTestStep _ _ => true
  | .selfTestEnd _ => true
  | .startComplete => true
  | .tileLossHandle _ => true
  | .stateMoveCopyDone => true
  | .tileImageCopyRebuild bad => decide bad.Nodup
  | .fencedTileReset _ => true
  | .hostPortReset _ => true
  | .lockstepMismatch _ => true
  | .watchdogRestart _ _ => true
  | .logBlockSeal _ => true
  | .mgtSend _ _ => true
  | .getVersion _ _ => true
  | .getStatus _ _ => true
  | .logInfo _ _ => true
  | .readLog _ _ _ => true
  | .logAck _ _ => true
  | .readDefects _ _ => true
  | .readTelemetry _ _ => true
  | .maintQuery _ _ => true
  | .maintCtl _ _ => true
  | .listMaint _ _ => true
  | .stop _ _ => true
  | .nextCold _ _ => true
  | .mgtLogAckWrite _ _ => true
  | .mgtLogLostRead _ => true
  | .setEndpointId _ _ => true
  | .getEndpointId _ => true
  | .getMctpVersionSupport _ _ => true
  | .getMessageTypeSupport _ => true
  | .getVendorDefinedMessageSupport _ _ => true
  | .getPdrRepositoryInfo _ => true
  | .getPdr _ _ => true
  | .getSensorReading _ _ => true
  | .getSensorThresholds _ _ => true
  | .setEventReceiver _ _ => true
  | .thresholdCrossing _ _ => true
  | .queryDeviceIdentifiers _ => true
  | .getFirmwareParameters _ => true
  | .requestUpdate _ _ => true
  | .passComponentTable _ _ _ => true
  | .updateComponent _ _ _ => true
  | .requestFirmwareData _ => true
  | .transferComplete => true
  | .verifyComplete _ => true
  | .applyComplete _ => true
  | .activateFirmware _ _ => true
  | .pldmGetStatus _ => true
  | .cancelUpdateComponent _ => true
  | .cancelUpdate _ => true
  | .spdmGetVersion _ => true
  | .getCapabilities _ _ => true
  | .negotiateAlgorithms _ _ => true
  | .getDigests _ => true
  | .getCertificate _ _ _ _ => true
  | .challenge _ _ _ => true
  | .getMeasurements _ _ _ _ => true
  | .keyExchange _ _ _ _ => true
  | .finish _ _ _ => true
  | .endSession _ _ => true
  | .heartbeat _ _ => true
  | .heartbeatTimeout _ _ => true
  | .spdmKeyUpdate _ _ _ => true
  | .chunkSend _ _ _ _ _ => true
  | .chunkGet _ _ _ => true
  | .ideKmQuery _ _ => true
  | .keyProg _ _ _ _ _ => true
  | .kSetGo _ _ _ _ _ => true
  | .kSetStop _ _ _ _ _ => true
  | .ideIntegrityFailure _ _ => true
  | .debugConsent _ _ _ _ _ _ => true
  | .debugWithdraw _ _ _ => true
  | .debugRead _ _ _ _ _ _ _ _ => true
  | .consentExpiry _ => true
  | .debugLicenceExpiry => true
  | .errHeadWrite _ _ => true
  | .errCntRead _ _ => true
  | .errLostRead _ => true
  | .coolantSensorCheck _ _ => true
  | .jsbUnmate => true
  | .bypass => true
  | .sample _ => true
  | .preload _ => true
  | .extest => true
  | .idcode => true
  | .clamp => true
  | .highz => true
  | .startPhaseEnd _ badBanks _ => decide badBanks.Nodup
  | .vfEnable _ _ => true
  | .priReenable _ => true
  | .hostCompletionReceived _ _ _ _ _ => true
  | .completionTimeout _ _ => true
  | .hbmControllerError _ _ => true
  | .portBlockFailure _ => true
  | .cabPresChange _ _ => true
  | .fsenseClose _ => true
  | .maintRequestRetry => true
  | .entdaa _ => true
  | .setdasa _ _ => true
  | .getEncapsulatedRequest _ => true
  | .deliverEncapsulatedResponse _ _ _ => true

end Sys2Proof
end

