-- ==== Sys2Proof/Tests/Slice0.lean ====
section
/-! SUPPORT. Tests: the check of ill-formed commands, small steps with results worked out from the spec, and for every statement states
that meet its hypotheses. -/
namespace Sys2Proof.Tests
open Sys2Proof.Machine
-- one theorem at a time: kernel evaluations that wait for one another would each hold a thread
set_option Elab.async false

def u0 : CoreId := ⟨0, 0⟩
/-- A region that runs, with a job on it, and a core that may issue. -/
def s0 : State :=
  let s := State.reset.setRegion 0 { power := .on, stopped := false }
  let s := { s with host := { s.host with
    paddocks := [(1, { live := true, ctx := 3, regions := [0], resident := some 5, jobs := [5] })], ctxs := [(3, { live := true, fn := 0 })]
    jobs := [(5, { live := true, kind := .compute, ctx := 3, paddock := 1, state := .running, img := { lvlMajor := 2, lvlMinor := 2 } })] } }
  s.setCore u0 { running := true, pc := BitVec.ofNat 64 (privBase + 0x100), evec := BitVec.ofNat 64 privBase }
/-- The same with registers g1 and g2. -/
def s1 (a b : Nat) : State := s0.modCore u0 fun c => { c with g := [(1, BitVec.ofNat 64 a), (2, BitVec.ofNat 64 b)] }
/-- With the tile, or the core, changed. -/
def onTile (s : State) (f : Tile → Tile) : State := s.modTile 0 f
def onCore (s : State) (f : Core → Core) : State := s.modCore u0 f

/-- Hypotheses of the statements on instructions, as a computation. -/
def issues (s : State) (u : CoreId) (words level : Nat) : Bool :=
  s.coreOn u && (s.core u).hold.isNone && (s.core u).loads.isEmpty && decide (level ≤ s.imageLevel u) &&
  (List.range words).all fun k => inPriv ((s.core u).pcOf + 4 * k) && tget (s.core u).privUpset (((s.core u).pcOf + 4 * k - privBase) / 8) == 0 &&
    !s.marked (privKey u.tile u.core (8 * (((s.core u).pcOf + 4 * k - privBase) / 8)))
theorem issues_sound {s : State} {u : CoreId} {words level : Nat} (h : issues s u words level = true) : s.atIssue u words level := by
  simp only [issues, Bool.and_eq_true, List.all_eq_true, List.mem_range, Option.isNone_iff_eq_none, List.isEmpty_iff, decide_eq_true_eq, beq_iff_eq,
    Bool.not_eq_true'] at h
  exact ⟨h.1.1.1.1, h.1.1.1.2, h.1.1.2, h.1.2, fun k hk => ⟨(h.2 k hk).1.1, (h.2 k hk).1.2, (h.2 k hk).2⟩⟩
/-- Scratchpad words that an access finds sound. -/
def sounds (s : State) (t off n : Nat) : Bool :=
  ((List.range ((off + n - 1) / 32 + 1)).all fun w => w < off / 32 || (tget (s.tile t).spd.upset w == 0 && !s.marked (spdKey t (32 * w)) && !(s.tile t).spdBlocked w)) &&
  (s.tile t).spd.cb.all fun e => !e.poison
/-! ### States that meet the hypotheses of the statements, clause by clause -/

theorem witness_StepTakesTheFrontCommand : State.reset.pending = [] ∧ (State.reset.rest [Instr.bypass]).pending = [Instr.bypass] := ⟨rfl, rfl⟩
theorem witness_StepKeepsMemoryCanonical :
    let s := { State.reset with mem := [(5, 1)], marks := [32], pending := [Instr.bypass] }
    Memory.wf s.mem = true ∧ risingFrom 0 s.marks = true ∧ ∃ t, step s = .next t := ⟨by decide, by decide, _, rfl⟩
theorem witness_StepKeepsSettingsLegal :
    let s := { State.reset with power := { State.reset.power with hostCap := 3500, order := [2, 0, 1] }, time := 2 ^ 64 - 1, pending := [Instr.bypass] }
    3500 ≤ s.power.hostCap ∧ s.power.hostCap ≤ 12000 ∧ s.power.order.Perm [0, 1, 2] ∧ s.time < 2 ^ 64 ∧ ∃ t, step s = .next t :=
  ⟨by decide, by decide, by decide, by decide, _, rfl⟩

def linkedPass : PassRun := { entry := { op := .pass { word := 2 ^ 50, link := 1 }, no := 1 } }
def sLinked : State := onTile s0 fun T => { T with seqr := { T.seqr with passes := [linkedPass] }, chans := [(0, { links := [{ no := 1 }] })] }
theorem witness_ArraysAdvance :
    State.reset.ticking 0 = false ∧ s0.ticking 0 = true ∧ (s0.tile 0).seqr.passes = [] ∧ (s0.tile 0).seqr.queue = [] ∧
    (let w : Wave := { age := 127, valid := true, set := true, mask := 8, row := 255 }
     let A := ((onTile s0 fun T => { T with arr := { T.arr with waves := [w] } }).tile 0).arr
     A.waves = [w] ∧ w.mask = 2 ^ 3 ∧ w.lanes = 1 ∧ w.row < 256 ∧ 64 ≤ w.age ∧ w.age < 128) ∧
    (let s := State.reset.modTile 0 fun T => { T with arr := { T.arr with pendingBypass := [259] } }
     (s.tile 0).arr.pendingBypass.contains (3 * 65 + 64) = true ∧ s.tag 0 = 0) ∧
    linkedPass.done = false ∧ linkedPass.entry.pword.linked = true ∧
    ((sLinked.tile 0).linkReady linkedPass.entry.pword.link linkedPass.entry.link linkedPass.next).1 = false := by decide +kernel

/-- The loader at row 63 of a dense BF16 block, at array tick `n`. -/
def sLoad (n : Nat) : State := onTile s0 fun T => { T with arr := { T.arr with tick := n }, seqr := { T.seqr with load := some { entry := { op := .load 1 (63 * 2 ^ 48) }, rows := 63 } } }
def lastWrite : SpdWrite := { bytes := List.replicate 32 7 }
def lastDrain : DrainRun := { row := 1, pipe2 := [lastWrite], entry := { op := .drain 0 0 } }
def sDrain : State := onTile s0 fun T => { T with seqr := { T.seqr with drain := some lastDrain } }
theorem witness_LoaderAndDrainMove :
    (s0.tile 0).seqr.load = none ∧ (sLoad 10).ticking 0 = true ∧ (LWord.ofNat 1).arrays = 2 ^ 0 ∧ (LWord.ofNat 1).lanes = 1 ∧ (LWord.ofNat 1).diag = false ∧
    (let d := Desc.ofNat (63 * 2 ^ 48)
     d.fmt = 0 ∧ d.nm = 0 ∧ d.transposed = false ∧ d.rowPitch = 0 ∧ d.cols = 64 ∧ d.base % 32 = 0 ∧ d.base + 8192 ≤ 2 ^ 23) ∧
    (let due := 0 + max 63 ((2 * (63 + 1) * 64 + 255) / 256 - 1) + 0
     10 - 1 < due ∧ due ≤ 64 - 1) ∧ ((sLoad 64).tile 0).spd.cb = [] ∧
    (s0.tile 0).seqr.drain = none ∧ (∀ e ∈ (s0.tile 0).seqr.queue, e.isDrain = false) ∧ sDrain.ticking 0 = true ∧
    (sDrain.tile 0).seqr.drain = some lastDrain ∧ lastDrain.pipe1 = [] ∧ (sDrain.tile 0).arr.drainRows lastDrain.entry.dword ≤ lastDrain.row ∧
    lastDrain.entry.dword.scatter = false ∧ lastDrain.entry.dword.clear = false ∧ lastWrite.bytes.length % 32 = 0 := by decide +kernel
theorem witness_LoaderAndDrainMove_sound : (sLoad 64).spdSound 0 0 8192 ∧ sDrain.spdSound 0 lastWrite.off (lastWrite.bytes.length + 32) := by
  constructor <;> exact ⟨fun w _ _ => ⟨rfl, rfl, rfl⟩, rfl⟩

def sSpd : State := onTile s0 fun T => { T with spd := { T.spd with cb := [{ word := 262143, mask := 1 }], checkBack := [5], sweep := [255], sweepRow := 31 } }
def sFill (g : Nat) : State := onTile s0 fun T => { T with spd := { T.spd with fillRow := some g } }
theorem witness_ScratchpadSteps :
    ((sSpd.tile 0).spd.cb.find? fun e => e.word == 262143) = some { word := 262143, mask := 1 } ∧ tget (sSpd.tile 0).spd.upset 262143 = 0 ∧
    sSpd.marked (spdKey 0 (32 * 262143)) = false ∧ (∀ e ∈ (s0.tile 0).spd.cb, e.word ≠ 0) ∧
    (sSpd.tile 0).spd.checkBack.contains 5 = true ∧ (sSpd.tile 0).spd.checkBack.contains 6 = false ∧ (sSpd.tile 0).spd.spares.contains 5 = false ∧
    ((sSpd.tile 0).spd.spares.filter fun w => bankOf w == bankOf 5).length < 15 ∧
    (sSpd.tile 0).spd.sweep ≠ [] ∧ (sFill 8191).ticking 0 = true ∧ ((sFill 8191).tile 0).spd.fillRow = some 8191 ∧ ((sFill 0).tile 0).spd.fillRow = some 0 ∧
    (s0.tile 0).spd.sweep = [] ∧ (s0.tile 0).spd.fillRow = none ∧ changedSheets ((s0.tile 0).reg (0xA00 + 7)) 1 7 ≠ [] ∧
    (let s := onTile s0 fun T => { T with spd := { T.spd with sweep := [255], sweepRow := 31 } }
     (s.tile 0).spd.sweep = [255] ∧ (s.tile 0).spd.cb = [] ∧ (s.tile 0).spd.sweepRow < 32 ∧ ∀ i, i < 32 → tget (s.tile 0).spd.upset (1024 * 255 + 32 * 31 + i) = 0) ∧
    bit ((onTile s0 fun T => T.setReg 0xA08 0).tile 0 |>.reg 0xA08) 1 = false ∧
    (let s := onTile s0 fun T => T.setReg 0xA08 2
     bit ((s.tile 0).reg 0xA08) 1 = true ∧ (s.tile 0).detectOnly = false ∧ (s.tile 0).spdBlocked (bankWord 31 0) = false ∧ s.marked (spdKey 0 (32 * bankWord 31 0)) = false ∧
      tget (s.tile 0).spd.upset (bankWord 31 0) = 0) := by decide +kernel

def sServes : State := { s0 with start := { s0.start with phase := 0 } }
theorem witness_RegisterAccesses :
    let w : RegBy := .core u0
    (regPair w 0x00E = true ∧ regPair w 0x00F = false ∧ 0x00F = 0x00E + pairStep w ∧ regAccess w 0x00E 4 = true ∧ regAccess w 0x00F 4 = true ∧ s0.regPairRw w 0x00E = false) ∧
    ((s0.modCore u0 fun c => { c with shadow := [(0x00E, some 7)] }).shadowOf w 0x00E = some 7) ∧
    (regPair w 0x006 = true ∧ regPair w 0x007 = false ∧ (s0.modCore u0 fun c => { c with supervisor := true }).regPairRw w 0x006 = true) ∧
    State.reset.nodeAnswers 0 = false ∧ sServes.nodeAnswers 0 = true ∧ regPair (.fold 0) 0x801 = false ∧ regHi (.fold 0) 0x801 = false ∧
    State.reset.net.regData = [] := by decide +kernel

def sSuper : State := onCore s0 fun c => { c with supervisor := true }
def sPoison : State := onCore s0 fun c => { c with gp := [1, 2] }
/-- Each state of the first list may issue one word at level 2.2, the others as they say. -/
theorem witness_atIssue :
    issues s0 u0 2 0x202 = true ∧ issues (s1 5 7) u0 1 0x202 = true ∧ issues sSuper u0 1 0x202 = true ∧ issues sPoison u0 1 0x202 = true ∧
    issues (onCore s0 fun c => { c with evec := 0 }) u0 1 0x200 = true := by decide +kernel
theorem witness_IntegerInstructions :
    s0.atIssue u0 2 0x200 ∧ s0.atIssue u0 1 0x200 ∧ aluKnown 0x17 = true ∧ aluKnown 0x1A = true ∧ aluKnown 0x1B = false ∧
    bit ((s0.core u0).pr 0) 0 = true ∧ (s0.core u0).supervisor = false ∧ (s0.core u0).evec ≠ 0 :=
  ⟨issues_sound (by decide +kernel), issues_sound (by decide +kernel), by decide +kernel⟩
theorem witness_BranchesAndJumps :
    (sPoison.core u0).gBad 1 = true ∧ (s0.core u0).gBad 1 = false ∧
    (let bt := fun (off : BitVec 13) => ((s0.core u0).pc + off.signExtend 64 * 4).toNat
     inPriv (bt 0x1FC0) = true ∧ inPriv (bt 0x1FBF) = false ∧ inPriv (((s0.core u0).pc + (0x7FC0 : BitVec 47).signExtend 64).toNat) = true ∧
     inPriv (((s0.core u0).pc + (0x1FF00 : BitVec 47).signExtend 64).toNat) = false) ∧
    inPriv ((BitVec.ofNat 64 ((s1 privBase 0).core u0 |>.gr 1) + (3 : BitVec 16).signExtend 64) >>> 2 <<< 2).toNat = true ∧
    inPriv ((BitVec.ofNat 64 ((s1 0 0).core u0 |>.gr 1) + (3 : BitVec 16).signExtend 64) >>> 2 <<< 2).toNat = false := by decide +kernel
theorem witness_ExceptionsAndReturn :
    s0.atIssue u0 1 0x200 ∧ sSuper.atIssue u0 1 0x200 ∧ (s0.core u0).supervisor = false ∧ (s0.core u0).evec ≠ 0 ∧ (sSuper.core u0).supervisor = true ∧ aluKnown 0x1B = false :=
  ⟨issues_sound (by decide +kernel), issues_sound (by decide +kernel), by decide +kernel⟩
theorem witness_VectorWritesAndIntegerResults :
    (let l := [(0, 2 ^ 64, true), (7, 5, false)]
     64 * 8 ≤ 512 ∧ (∀ e ∈ l, e.1 < 8) ∧ (l.map (·.1)).Nodup) ∧ (2 ^ 64 - 1 < 2 ^ 64 ∧ (63 : Nat) < 64) := by decide
theorem witness_ElementwiseInstructionsComplete : s0.atIssue u0 1 0x202 ∧ (3 : Nat) < 4 ∧ (0x11 : Nat) ≤ 0x11 ∧ (6 : Nat) < 7 := ⟨issues_sound (by decide +kernel), by decide⟩
theorem witness_OtherVectorInstructionsComplete :
    s0.atIssue u0 1 0x202 ∧ vcmpKnown 8 = true ∧ vcvtKnown 0 = true ∧ vredKnown 0 = true ∧ vredKnown 8 = true ∧
    (∀ i ∈ (s0.core u0).enabled 0 (etLanes 3), (s0.core u0).elBad 1 (etWidth 3) i = false) ∧ bit ((s0.core u0).pr 0) ((s0.core u0).gr 1 % etLanes 3) = true ∧
    bit ((s0.core u0).pr 1) ((s0.core u0).gr 1 % etLanes 3) = false := ⟨issues_sound (by decide +kernel), by decide +kernel⟩
theorem witness_PredicateInstructions :
    s0.atIssue u0 1 0x200 ∧ sPoison.atIssue u0 1 0x200 ∧ (s0.core u0).gBad 31 = false ∧ (sPoison.core u0).gBad 1 = true ∧
    (sPoison.core u0).supervisor = false ∧ (sPoison.core u0).evec ≠ 0 ∧ ((s1 64 63).core u0).gr 1 = 64 ∧ ((s1 64 63).core u0).gr 2 = 63 :=
  ⟨issues_sound (by decide +kernel), issues_sound (by decide +kernel), by decide +kernel⟩
theorem witness_PredicatedOffInstructionsAreSkipped :
    s0.atIssue u0 1 0x202 ∧ bit ((s0.core u0).pr 1) 0 = false ∧ aluKnown 0x17 = true ∧ fpuKnown 0x0B = true ∧ fpuKnown 4 = true :=
  ⟨issues_sound (by decide +kernel), by decide +kernel⟩
theorem witness_ScalarFloatingPoint :
    s0.atIssue u0 1 0x200 ∧ bit ((s0.core u0).pr 0) 0 = true ∧ fpuKnown (0x90 % 128) = true ∧ fpuKnown (4 % 128) = true ∧
    (let e := fun (a : BitVec 32) => (a.toNat / 2 ^ 23) % 2 ^ 8
     (e 0x7F800001 = 255 ∧ (0x7F800001 : BitVec 32).toNat % 2 ^ 23 ≠ 0) ∧ (e 0x7F800000 = 255 ∧ (0x7F800000 : BitVec 32).toNat % 2 ^ 23 = 0) ∧ e 0x007FFFFF = 0) :=
  ⟨issues_sound (by decide +kernel), by decide +kernel⟩

/-- g1 at the last place of private memory or scratchpad that holds `n` bytes; g2 is 7. -/
def sPriv (n : Nat) : State := s1 (privBase + (2 ^ 17 - n)) 7
def sPad (n : Nat) : State := s1 (spdBase + (2 ^ 23 - n)) 7
theorem pad_sound {s : State} {t off n : Nat} (h : ∀ k, s.marked k = false) (hu : (s.tile t).spd.upset = []) (hb : ∀ w, (s.tile t).spdBlocked w = false)
    (hc : (s.tile t).spd.cb = []) : s.spdSound t off n :=
  ⟨fun w _ _ => ⟨by rw [hu]; rfl, h _, hb _⟩, by rw [hc]; rfl⟩
theorem pad_sound_one (a b off n : Nat) : (s1 a b).spdSound 0 off n := pad_sound (fun _ => rfl) rfl (fun _ => rfl) rfl
theorem priv_sound_one (a b off n : Nat) : (s1 a b).privSound u0 off n := fun _ _ _ => ⟨rfl, rfl⟩
theorem witness_LocalLoadsAndStores :
    ((sPriv 8).core u0).gr 1 = privBase + (2 ^ 17 - 8) ∧ ((sPriv 64).core u0).gr 1 = privBase + (2 ^ 17 - 64) ∧ (2 ^ 17 - 32) % 32 = 0 ∧
    ((sPad 8).core u0).gr 1 = spdBase + (2 ^ 23 - 8) ∧ ((sPad 64).core u0).gr 1 = spdBase + (2 ^ 23 - 64) ∧ (2 ^ 23 - 64) % 32 = 0 ∧
    ((sPriv 8).core u0).gBad 1 = false ∧ ((sPad 32).tile 0).spdBlocked 262143 = false ∧ ((onCore (sPriv 8) fun c => { c with gp := [2] }).core u0).gBad 2 = true ∧
    issues (sPriv 8) u0 1 0x200 = true ∧ issues (sPad 64) u0 1 0x200 = true := by decide +kernel
theorem witness_LocalLoadsAndStores_sound (n : Nat) : (sPad n).spdSound 0 (2 ^ 23 - n) n ∧ (sPriv n).privSound u0 (2 ^ 17 - n) n :=
  ⟨pad_sound_one _ _ _ _, priv_sound_one _ _ _ _⟩
theorem witness_AtomicsComplete :
    (sPriv 8).atIssue u0 1 0x202 ∧ (sPad 4).atIssue u0 1 0x202 ∧ bit (((sPriv 8).core u0).pr 0) 0 = true ∧ ((sPriv 8).core u0).gBad 1 = false ∧
    ((sPriv 8).core u0).gr 1 = privBase + (2 ^ 17 - 8) ∧ (2 ^ 17 - 8) % 8 = 0 ∧ ((sPad 4).core u0).gr 1 = spdBase + (2 ^ 23 - 4) ∧ (2 ^ 23 - 4) % 4 = 0 :=
  ⟨issues_sound (by decide +kernel), issues_sound (by decide +kernel), by decide +kernel⟩
theorem witness_MemoryExceptionsAndTranslation :
    sPoison.atIssue u0 1 0x202 ∧ (sPoison.core u0).gBad 1 = true ∧ (sPoison.core u0).supervisor = false ∧ (sPoison.core u0).evec ≠ 0 ∧
    caddr (privBase + (2 ^ 17 - 7)) 8 = .bad ∧ caddr 0 8 = .virt ∧ caddr (privBase + 1) 8 ≠ .bad ∧ caddr (privBase + 1) 8 ≠ .virt ∧ (privBase + 1) % 8 ≠ 0 ∧
    (privBase + 1) % 32 ≠ 0 ∧ ((s1 (spdBase + 4) 0).core u0).gr 1 = spdBase + 4 ∧ (2 ^ 56 - 8) % 32 + 8 ≤ 32 ∧
    (s0.tile 0).tlb = [] ∧ (s0.region 0).stlb = [] ∧
    (let s := onCore s0 fun c => { c with hold := some { va := 64, resolved := some false } }
     (s.core u0).hold = some { va := 64, resolved := some false } ∧ s.coreOn u0 = true ∧ (s.core u0).supervisor = false ∧ (s.core u0).evec ≠ 0) :=
  ⟨issues_sound (by decide +kernel), by decide +kernel⟩
theorem witness_SystemInstructionsComplete :
    s0.atIssue u0 1 0x200 ∧ (s0.core u0).gBad 1 = false ∧ (s0.core u0).stores = [] ∧ (onCore s0 fun c => { c with stores := [(0, 0)] }).atIssue u0 1 0x200 :=
  ⟨issues_sound (by decide +kernel), by decide +kernel, by decide +kernel, issues_sound (by decide +kernel)⟩
/-- A core that still has an instruction in a channel. -/
def sIssued : State := s0.modTile 0 fun T => { T with chans := [(0, { queue := [{ core := 0 }] })] }
theorem witness_ExceptionsEndJobsAndExitStops :
    sSuper.atIssue u0 1 0x200 ∧ (sSuper.core u0).supervisor = true ∧ (sSuper.paddock (sSuper.tag 0)).resident = some 5 ∧ (sSuper.paddock (sSuper.tag 0)).releasing = false ∧
    (sSuper.job 5).live = true ∧ (sSuper.job 5).kind = .compute ∧ (sSuper.job 5).paddock = sSuper.tag 0 ∧ (sSuper.job 5).terminal = false ∧
    sSuper.host.jobs.length < 1024 ∧ sSuper.host.funcs.all (fun e => !e.2.resetting) = true ∧
    sIssued.coreIssued u0 = true ∧ s0.coreIssued u0 = false ∧ 1 ∈ s0.memberTiles (s0.tag 0) ∧ (s0.tile 1).core0.exited = none ∧
    (let s := { s0 with host := { s0.host with paddocks := [(1, { (s0.paddock 1) with resident := none })] } }
     (s.paddock (s.tag 0)).resident = none ∧ s.coreIssued u0 = false) :=
  ⟨issues_sound (by decide +kernel), by decide +kernel⟩

/-- A core with g1 and g2, and descriptor register t1. -/
def sMat (a b bits : Nat) : State := onCore (s1 a b) fun c => { c with t := [(1, BitVec.ofNat 256 bits)] }
/-- A surface of one plane of BF16 elements. -/
def surface (rows cols : Nat) : Nat := (rows - 1) * 2 ^ 32 + (cols - 1) * 2 ^ 48
theorem witness_MatrixInstructionsComplete :
    (let s := sMat 1 0 (surface 64 64)
     let w := LWord.ofNat 1
     let d := Desc.ofNat (surface 64 64)
     issues s u0 1 0x200 = true ∧ bit ((s.core u0).pr 0) 0 = true ∧ (s.core u0).gBad 1 = false ∧ (s.core u0).gr 1 = 1 ∧ (s.core u0).tr 1 = surface 64 64 ∧
     w.lanes ≠ 0 ∧ descBad (s.tile 0).weightSheet w.diag (surface 64 64) = false ∧ loadRateOk d.fmt w.lanes = true ∧ d.nm ≠ 2 ∧ w.diag = false ∧ d.transposed = false ∧
     d.cols = 64 * w.lanes ∧ d.rows = 64 ∧ (maskArrays w.arrays).length ≤ d.planes ∧ (s.tile 0).seqr.held 0 < 16) ∧
    (let x := 1 + 255 * 2 ^ 25
     let s := sMat x 0 (surface 1 64)
     let w := PWord.ofNat x
     let d := Desc.ofNat (surface 1 64)
     x < 2 ^ 55 ∧ w.spars ≠ 0 ∧ w.target < 3 ∧ descBad (s.tile 0).weightSheet false (surface 1 64) = false ∧ pairRate d.fmt w.wfmt = some 1 ∧ w.spars ≠ 4 ∧ w.diag = false ∧ d.nm = 0 ∧
     w.add = false ∧ w.linked = false ∧ w.rowBase + w.rowCount = targetRows w.exact 1 w.target ∧ d.cols = 64 * w.spars ∧ w.n = d.rows * d.planes) ∧
    (let x := 255 * 2 ^ 25 + 1
     let s := sMat x 0 (surface 256 256)
     let w := DWordM.ofNat x
     let d := Desc.ofNat (surface 256 256)
     fld x 12 4 = 0 ∧ x < 2 ^ 34 ∧ w.target < 3 ∧ w.lanes = 1 ∧ w.zfill = false ∧ w.scatter = false ∧ descBad (s.tile 0).weightSheet false (surface 256 256) = false ∧ d.fmt = 0 ∧
     (∀ b ∈ targetHalves w.target, (s.tile 0).seqr.issueMode b = .normal) ∧ w.exact = false ∧ w.rowBase + w.rowCount = targetRows w.exact w.lanes w.target ∧
     d.cols = 256 * w.lanes ∧ w.rowCount = d.rows * d.planes) ∧
    ((sMat (2 ^ 11 - 1) (2 ^ 11) 0).core u0).gr 1 < 2 ^ 11 ∧ 2 ^ 11 ≤ ((sMat (2 ^ 11 - 1) (2 ^ 11) 0).core u0).gr 2 := by decide +kernel
def loadCauses (x bits : Nat) : List Bool :=
  let d := Desc.ofNat bits
  let w := LWord.ofNat x
  [decide (x ≥ 2 ^ 9 ∨ w.lanes = 0), descBad (s0.tile 0).weightSheet w.diag bits, decide (d.nm = 2 ∧ w.lanes = 1), decide (d.cols ≠ 64 * w.lanes)]
/-- One state for each of several codes, in the order of R257. -/
theorem witness_MatrixRejections :
    loadCauses 512 (surface 64 64) = [true, false, false, false] ∧ loadCauses 1 (surface 64 64 + 1) = [false, true, false, false] ∧
    loadCauses 1 (surface 64 64 + 2 * 2 ^ 128) = [false, false, true, false] ∧ loadCauses 1 (surface 64 63) = [false, false, false, true] ∧
    (let w := PWord.ofNat (3 * 2 ^ 10)
     w.target = 3 ∧ w.linked = false) ∧ (let w := PWord.ofNat (1 + 256 * 2 ^ 25); w.rowBase + w.rowCount > targetRows w.exact 1 w.target ∧ w.linked = false) ∧
    (let w := DWordM.ofNat (2 ^ 6); w.exact = true ∧ (s0.tile 0).seqr.issueMode false ≠ .bf16Exact) ∧
    (let w := DWordM.ofNat (2 ^ 8); w.scatter = true ∧ ((s0.tile 0).arr.idx false).valid = false) ∧
    issues (sMat 512 0 (surface 64 64)) u0 1 0x200 = true ∧ (sPoison.core u0).gBad 1 = true := by decide +kernel

/-- Tickets: one issued and done, one issued and queued. -/
def sTicket (x : Nat) : State := onTile (onCore (s1 x (privBase + (2 ^ 17 - 64))) fun c => { c with seqs := [(0, some 5), (1, some 5), (18, some 5)] })
  fun T => { T with held := [{ core := 0, unit := 0, seq := 4, status := 2 ^ 63, words := [9] }], seqr := { T.seqr with queue := [{ core := 0, seq := 5, op := .load 0 0 }] }
                    chans := [(0, { queue := [{ core := 0, seq := 5 }] })] }
theorem witness_WaitsAndPolls :
    (let c := (sTicket (2 ^ 60 + 5)).core u0
     issues (sTicket (2 ^ 60 + 5)) u0 1 0x200 = true ∧ bit (c.pr 0) 0 = true ∧ c.gBad 1 = false ∧ c.gBad 2 = false ∧ c.gr 2 = privBase + (2 ^ 17 - 64) ∧ (2 ^ 17 - 64) % 64 = 0 ∧
     c.gr 1 / 2 ^ 16 = 2 ^ 44 ∧ c.issued 0 5 = true ∧ c.issued 0 4 = true ∧ c.issued 0 6 = false ∧ (2 ^ 60 + 2 ^ 16) / 2 ^ 16 ≠ 2 ^ 44 ∧
     (sTicket 5).ticketPending u0 0 5 = true ∧ (sTicket 5).ticketPending u0 0 4 = false ∧
     (sTicket 5).ticketPending u0 1 5 = true ∧ (sTicket 5).ticketPending u0 1 4 = false ∧ c.issued 1 5 = true ∧ c.issued 18 5 = true ∧ c.issued 16 0 = false ∧
     fld (2 * 2 ^ 60 + 5) 16 40 = 0 ∧ (2 * 2 ^ 60 + 5) / 2 ^ 60 = 2 ∧ (3 * 2 ^ 60 + 2 ^ 56 + 5) / 2 ^ 60 = 3 ∧ (3 * 2 ^ 60 + 2 ^ 56 + 5) / 2 ^ 56 % 16 < 2) := by decide +kernel
/-- Channels: 15 of them open, the last one, or none, free. -/
def sChans (n x : Nat) (queue : List XEntry) : State := onTile (onCore (s1 x 0) fun c => { c with q := [(3, BitVec.ofNat 64 (2 * 2 ^ 60 + 2 ^ 32 + 1))] }) fun T =>
  { T with chans := (List.range n).map fun k => (k, { open_ := true, owner := 0, queue := queue }) }
theorem witness_ChannelsOpenAndClose :
    ((sChans 15 15 []).chan 0 15).open_ = false ∧ ((sChans 15 15 []).chan 0 15).queue = [] ∧ (∀ k, k < 15 → ((sChans 15 256 []).chan 0 k).open_ = true) ∧ 271 / 16 = 16 ∧
    ((sChans 16 15 []).chan 0 15).open_ = true ∧ (∀ k, k < 16 → ((sChans 16 256 []).chan 0 k).open_ = true) ∧ 16 / 16 % 16 ≠ 0 ∧
    ((sChans 2 0 []).core u0).qr 3 = 2 * 2 ^ 60 + (sChans 2 0 []).tag 0 * 2 ^ 32 + 1 ∧ ((sChans 2 0 []).chan 0 1).open_ = true ∧ ((sChans 2 0 []).chan 0 1).owner = 0 ∧
    ((sChans 2 0 []).chan 0 1).queue = [] ∧ ((sChans 2 0 [{}]).chan 0 1).queue ≠ [] ∧ issues (sChans 2 0 []) u0 1 0x200 = true := by decide +kernel
/-- A channel whose one transfer awaits an answer, with g1 and t1. -/
def sFar (a bits : Nat) : State := onTile (onCore (s1 a 0) fun c => { c with q := [(3, BitVec.ofNat 64 (2 * 2 ^ 60 + 2 ^ 32 + 1))], t := [(1, BitVec.ofNat 256 bits)] }) fun T =>
  { T with chans := [(1, { open_ := true, owner := 0, queue := [{}], busy := true })] }
theorem engine_still (a bits : Nat) : (sFar a bits).engineStill 0 where
  chans c h := by
    by_cases hc : c = 1
    · subst hc; exact ⟨rfl, rfl⟩
    · exact absurd (show (if c = 1 then _ else (default : Channel)).queue = [] by rw [if_neg hc]; rfl) h
  slots k _ := by
    show (if k = 0 then _ else _ : LayerSlot).queue = []
    split <;> rfl
theorem witness_TransfersAreQueued :
    (let s := sFar (2 ^ 56 - 32) (surface 1 16)
     issues s u0 1 0x200 = true ∧ bit ((s.core u0).pr 0) 0 = true ∧ (s.core u0).gBad 1 = false ∧ (s.core u0).qr 3 = 2 * 2 ^ 60 + s.tag 0 * 2 ^ 32 + 1 ∧ (s.chan 0 1).open_ = true ∧
     (s.chan 0 1).owner = 0 ∧ (s.chan 0 1).queue.length < 8 ∧ (2 ^ 56 - 32) % 32 = 0 ∧ farBad 0 (2 ^ 56 - 32) = false ∧ descBad (s.tile 0).weightSheet false (surface 1 16) = false ∧
     farOutside 0 (2 ^ 56 - 32) ((Desc.ofNat (surface 1 16)).imageChunks false) = false) ∧
    farBad 1 (539 * 2 ^ 32 + (2 ^ 23 - 32)) = false ∧ farOutside 1 (539 * 2 ^ 32 + (2 ^ 23 - 32)) ((Desc.ofNat (surface 1 16)).imageChunks false) = false ∧
    (let a := 2 ^ 54 + 0xFFFF; fld a 16 16 = 0 ∧ a < 2 ^ 55 ∧ fld a 32 5 = 0 ∧ farOutside 1 (fld a 32 23) ((Desc.ofNat (surface 1 16)).imageChunks false) = false) ∧
    (let x := SparseP.ofNat (2 ^ 440); x.reserved = false ∧ x.far ≤ 2 ∧ x.h ≤ 3 ∧ farBad x.far x.values = false ∧ farBad x.far x.index = false ∧ x.i0 ≤ x.i1 ∧ x.list % 32 = 0 ∧ x.j0 ≤ x.j1) ∧
    (2 ^ 23 - 64) % 32 = 0 ∧ (Desc.ofNat (surface 1 64)).cols % 64 = 0 ∧
    (let b := 1 * 2 ^ 32 + 15 * 2 ^ 24 + 32; b < 2 ^ 48 ∧ fld b 23 1 = 0 ∧ fld b 28 4 = 0 ∧ fld b 0 5 = 0 ∧ (2 ^ 23 - 32) + 32 * fld b 32 16 ≤ 2 ^ 23) ∧
    bit ((s0.core u0).pr 1) 0 = false ∧ fld ((s0.core u0).qr 0) 60 4 ≠ 2 ∧ (sPoison.core u0).gBad 1 = true := by decide +kernel

/-! #### Dispatch and hurdles -/
/-- A layer of one expert that takes one route a token, its scores preselected. -/
def layerBits : Nat := 1 + 1 * 2 ^ 11 + 2 * 2 ^ 26 + 32 * 2 ^ 32
def gated : LayerSlot := { heldBy := some 1, desc := layerBits, stepOpen := true, stepDone := false, experts := [(0, { cap := 1 })] }
def flushed : LayerSlot := { heldBy := some 1, desc := layerBits }
/-- A core that holds layer slot 1, in the state given, with g1 and g2. -/
def sSlot (L : LayerSlot) (a b : Nat) : State := (onCore (s1 a b) fun c => { c with q := [(3, BitVec.ofNat 64 (3 * 2 ^ 60 + 2 ^ 32 + 1))] }).modSlot 0 1 fun _ => L
def holdsSlot1 (s : State) : Bool := (s.core u0).qr 3 == 3 * 2 ^ 60 + s.tag 0 * 2 ^ 32 + 1 && (s.slot 0 1).heldBy == some (s.tag 0) &&
  (s.slot 0 0).queue.isEmpty && (s.slot 0 1).queue.isEmpty && !(s.paddock (s.tag 0)).preempt && !(s.paddock (s.tag 0)).frozen &&
  !s.ticketPending u0 18 ((s.core u0).nextSeq 18) && (s.tile 0).held.isEmpty && issues s u0 1 0x200
theorem witness_DispatchInstructionsComplete :
    holdsSlot1 (sSlot {} 0 1) = false ∧ ((sSlot {} 0 1).slot 0 1).heldBy = none ∧
    (let s := (sSlot {} 64 1).store (spdKey 0 64) ((upto 0 64).map fun i => BitVec.ofNat 8 (fld (layerBits + 2 ^ 16 * 2 ^ 128) (8 * i) 8))
     ldescBad (s.seenNat 0 64 64) = false ∧ (LDesc.ofNat (s.seenNat 0 64 64)).e = 1 ∧ (LDesc.ofNat (s.seenNat 0 64 64)).tableOff = 65536 ∧ (2 ^ 23 - 64) + 64 ≤ 2 ^ 23) ∧
    holdsSlot1 (sSlot flushed 0xFFFF 0) = true ∧ holdsSlot1 (sSlot gated 0 1) = true ∧ (flushed.stepOpen = false ∧ flushed.stepDone = true ∧ flushed.idle = true ∧ flushed.tokens = []) ∧
    (gated.stepOpen = true ∧ gated.tokens = [] ∧ gated.bundles = [] ∧ gated.held = [] ∧ gated.spillWrites = []) ∧
    (let s := (sSlot gated (2 ^ 23 - 32) 1).store (spdKey 0 (2 ^ 23 - 30)) [0x1C, 0x02]
     s.seenNat 0 (2 ^ 23 - 30) 2 = 540) ∧ (2 ^ 23 - 32 * 16384) + 32 * 16384 ≤ 2 ^ 23 ∧ ((s1 0 0).core u0).qr 3 / 2 ^ 60 ≠ 3 := by decide +kernel
theorem witness_DispatchInstructionsComplete_sound (L : LayerSlot) (a b off n : Nat) : (sSlot L a b).spdSound 0 off n :=
  pad_sound (fun _ => rfl) rfl (fun _ => rfl) rfl
/-- The record at scratchpad byte 0: token 0 of tile 0, SEL set, everything else 0; so token 0 goes to expert 0. -/
def sGate : State := (sSlot gated 0 1).store (spdKey 0 17) [0x40]
theorem witness_GateRecordsAndSelection :
    holdsSlot1 sGate = true ∧ (sGate.core u0).gr 2 = 1 ∧ gated.d.ordered = false ∧ gated.d.k = 1 ∧ 2 ≤ gated.d.bundleMax ∧
    (let g := sGate.seenNat 0 0 32
     fld g 0 16 = 0 ∧ fld g 16 16 = 0 ∧ sGate.tileOf 0 = some 0 ∧ sGate.tag 0 = 1 ∧ fld g 32 5 = 0 ∧ fld g 64 5 = 0 ∧ fld g 96 5 = 0 ∧ bit g 142 = true ∧
     (sGate.slot 0 1).seen.contains 0 = false ∧ sGate.unitTokens 0 < 16384 ∧ sGate.unitBundles 0 < 4096 ∧ fld g 64 23 + 8 ≤ 2 ^ 23 ∧ sGate.seenNat 0 (fld g 64 23) 8 = 0 ∧
     0 < gated.d.e ∧ (tget gated.experts 0).count < (tget gated.experts 0).cap) := by decide +kernel
def openBundle : Bundle := { no := 4, routes := [(7, 0)] }
def spilling : LayerSlot := { gated with tokens := [{ token := 7, routes := [{ token := 7 }] }], spillWrites := [(7, 0)], bundles := [{ no := 3, sent := true }, openBundle] }
/-- The same with the page of the expert's spill region in the shared cache. -/
def sSpills : State := (sSlot spilling 0 0).modRegion 0 fun R => { R with stlb := [{ ctx := 3, va := 0, size := 4096, w := true, out := 4096 }] }
theorem witness_DispatchEvents :
    (∀ b ∈ gated.bundles, b.sent = true) ∧ spilling.bundles = [{ no := 3, sent := true }] ++ openBundle :: [] ∧ openBundle.sent = false ∧
    spilling.tokens.find? (fun t => t.token == 7 && t.step == spilling.step) = some { token := 7, routes := [{ token := 7 }] } ∧
    spilling.route 7 spilling.step 0 = some { token := 7 } ∧ spilling.spillWrites.contains (7, 0) = true ∧ spilling.spillWrites.contains (7, 1) = false ∧
    (sSlot spilling 0 0).ticking (tileInRegion 0 0) = true ∧ ((sSlot spilling 0 0).slot 0 0).spillHold = none ∧
    (sSlot { spilling with spillHold := some { resolved := some false } } 0 0 |>.slot 0 1).spillHold = some { resolved := some false } ∧
    sSpills.tileOf 0 = some 0 ∧ (sSpills.tile 0).spd.cb = [] ∧ spilling.d.rowBytes = 32 ∧ 4096 / 4096 = (4096 + 64 - 1) / 4096 ∧
    (sSpills.spillLook 0 (sSpills.paddock 1).ctx 0).1 = .hit 0 4096 ∧ (sSpills.slot 0 1).heldBy = some (sSpills.tag 0) ∧ (sSpills.slot 0 0).heldBy ≠ some (sSpills.tag 0) := by decide +kernel

/-- A hurdle over every rank of the paddock, armed by this core on channel 63. -/
def sHurdle (h : HurdleCh) (a : Nat) : State :=
  onCore (s1 a 7) fun c => { c with q := [(3, BitVec.ofNat 64 (4 * 2 ^ 60 + 2 ^ 32 + 63))], hurdles := [(63, some h)] }
theorem witness_HurdleInstructionsComplete :
    (let w := 63 + 6 * 2 ^ 8 + 0xFFFF * 2 ^ 32
     fld w 6 2 = 0 ∧ fld w 8 3 ≠ 7 ∧ fld w 11 5 = 0 ∧ w < 2 ^ 48 ∧ fld w 32 16 = 0xFFFF ∧ 0 < (s0.members 1).length ∧ s0.rank 0 = 0 ∧ fld w 16 16 ≤ s0.rank 0 ∧
     (tget ((s1 w 0).tile 0).core0.hurdles 63).isSome = false ∧ (tget ((s1 w 0).tile 0).core1.hurdles 63).isSome = false ∧
     (tget ((sHurdle {} w).tile 0).core0.hurdles 63).isSome = true) ∧ fld (2 ^ 6) 6 2 ≠ 0 ∧ fld (7 * 2 ^ 8) 8 3 = 7 ∧ s0.rank 0 < fld (2 ^ 16) 16 16 ∧
    ((sHurdle {} 0).core u0).qr 3 = 4 * 2 ^ 60 + (sHurdle {} 0).tag 0 * 2 ^ 32 + 63 ∧ tget ((sHurdle {} 0).core u0).hurdles 63 = some {} ∧ ((sHurdle {} 0).core u0).stores = [] ∧
    (let h : HurdleCh := { passed := 1, completed := 1 }
     h.passed ≠ 0 ∧ h.passed ≤ h.completed) ∧ (let h : HurdleCh := { passed := 2, completed := 1 }; h.completed < h.passed) ∧
    ((s1 0 0).core u0).qr 0 = 0 ∧ issues (sHurdle {} 0) u0 1 0x200 = true := by decide +kernel
/-- Node 0 with the arms of tiles 0 and 1, tile 0's contribution there or not. -/
def sNode (arrived : List Nat) (mismatch : Bool) : State := s0.modHnode 0 1 5 fun _ =>
  { arms := [(0, 0, 0, 1), (1, 0, 0, 1)], arrived := arrived, mismatch := mismatch, value := 3 }
def fromTile (n : Nat) : HMsg := { paddock := 1, channel := 5, dst := 0, src := n, value := 4, tile := n, last := 1 }
theorem witness_HurdleMessagesAndOrder :
    (let s := sNode [] false
     let ts := s.participants 1 (s.hnode 0 1 5)
     ts = [0, 1] ∧ (∃ c ∈ nodeChildren 0 ts, c ≠ 0 ∧ (s.hnode 0 1 5).arrived.contains c = false) ∧ 0 = meetNode ts ∧ (s.hnode 0 1 5).arms ≠ [] ∧ (s.hnode 0 1 5).passedUp = false) ∧
    (let s := sNode [0] false
     (s.hnode 0 1 5).arrived.contains (fromTile 1).src = false ∧ (s.hnode 0 1 5).mismatch = false ∧ (fromTile 1).code ≠ 0x27 ∧
     ∀ c ∈ nodeChildren 0 (s.participants 1 (s.hnode 0 1 5)), c = 1 ∨ (s.hnode 0 1 5).arrived.contains c = true) ∧
    ((fromTile 0).dst < 190 ∧ (fromTile 0).channel < 64 ∧ (fromTile 0).paddock < 65536) ∧
    (let s := { s0 with host := { s0.host with paddocks := [(1, { (s0.paddock 1) with regions := [0, 1] })] } }
     nodeLevel 0 < nodeLevel (meetNode (s.rankTiles 1 0 0xFFFF))) ∧
    (let s := sHurdle {} 0
     s.tag 0 = 1 ∧ tget (s.tile 0).core0.hurdles 63 = some {} ∧ tget (s.tile 0).core1.hurdles 63 = none) ∧ ((sNode [0] true).hnode 0 1 5).arrived ≠ [] ∧ 144 ≤ 189 ∧ 6 < 7 := by decide +kernel

/-! #### Networks, clocks, scheduled mode -/
/-- A packet from tile 1 to tile 0, of 64 words where it carries words. -/
def aPacket (typ : PType) : Packet := { typ := typ, words := 64, tag := 1, src := 1, dst := 0, srcLid := 1, dstLid := 0, txn := 9, addr := 2 ^ 23 - 2048, data := List.replicate 64 7, poison := 1 }
def withRequest (q : Request) : State := onTile s0 fun T => { T with net := { T.net with requests := [q] } }
def sentWrite : Packet := { aPacket .write with src := 0, dst := 1, srcLid := 0, dstLid := 16 }
def oneLoad : LoadWait := { txn := 9, rd := 31, len := 8, width := 8 }
theorem witness_PacketsAndAnswers :
    (let p := aPacket .write
     p.dst < 576 ∧ (s0.tile 0).net.fenced = false ∧ (s0.region (regionOf 0)).power = .on ∧ p.dstLid = s0.lidOr 0 ∧ p.tag = s0.tag 0 ∧ p.addr < 2 ^ 48 ∧ p.words ≤ 64 ∧
     p.data.length = p.words ∧ (s0.tile 0).spd.cb = [] ∧ ∀ i, i < 64 → tget (s0.tile 0).spd.upset ((p.addr / 32 + i) % 2 ^ 18) = 0 ∧ (s0.tile 0).spdBlocked ((p.addr / 32 + i) % 2 ^ 18) = false) ∧
    (s0.paddock 1).frozen = false ∧
    (let y : Route := { token := 7, sent := true }
     let L : LayerSlot := { gated with tokens := [{ token := 7, routes := [y] }] }
     (sSlot L 0 0).noticeOk 0 1 (7 + 2 ^ 35 + 0 * 2 ^ 64) = true) ∧
    ((onTile s0 fun T => { T with net := { T.net with fenced := true } }).tile 0).net.fenced = true ∧ ((s0.modRegion 0 fun R => { R with power := .nap }).region 0).power = .nap ∧
    5 ≠ s0.lidOr 0 ∧ 2 ≠ s0.tag 0 ∧
    (let q : Request := { pkt := { sentWrite with txn := 9 } }
     ((withRequest q).tile 0).net.requests.find? (fun q => q.pkt.txn == (aPacket .writeAck).txn && !q.busy) = some q ∧ q.more = [] ∧ q.for_ = .save ∧ q.moved = false ∧ q.cut = false ∧
     (withRequest q).reResolve 0 q.pkt = some 1 ∧ q.pkt.typ ≠ .droveData ∧ q.timedOut = false) ∧
    (let q : Request := { pkt := sentWrite, busy := true, moved := true, cut := true, timedOut := true }
     ((withRequest q).tile 0).net.requests.find? (fun q => q.pkt.txn == 9 && q.busy) = some q ∧ q.moved = true ∧ q.cut = true ∧ q.timedOut = true) ∧
    (let s := onCore (withRequest { pkt := sentWrite, for_ := .coreLoad 0 }) fun c => { c with loads := [oneLoad] }
     (s.core (mkCore 0 0)).loads = [oneLoad] ∧ (s.core (mkCore 0 0)).gBad 31 = false ∧ (s.core (mkCore 0 0)).gr 31 = 0) := by decide +kernel
/-- Tile 0's route to tile 1, written as `e`, with one packet in flight. -/
def sRoute (e : Nat) (p : Packet) : State := { s0 with net := { s0.net with flight := [p], routers := [(0, { table := [(1, some e)], raised := [(1, 3, 0, 5)], holder := [(1, some (17, 9))], replays := [(1, 4)] })] } }
theorem witness_RoutersForwardAndArbitrate :
    (let s := sRoute (128 + 1) sentWrite
     bit (s.route 0 1) 7 = true ∧ bit (s.route 0 1) 6 = false ∧ s.outLive 0 (fld (s.route 0 1) 0 3) = true ∧ s.net.flight = [sentWrite]) ∧
    (let s := sRoute (128 + 64 + 1 * 8) sentWrite
     bit (s.route 0 1) 6 = true ∧ s.outLive 0 (fld (s.route 0 1) 3 3) = true) ∧
    bit ((sRoute 0 sentWrite).route 0 1) 7 = false ∧ (∃ x ∈ ((sRoute 0 sentWrite).router 0).raised, x.1 = 1) ∧ (∀ x ∈ ((sRoute 0 sentWrite).router 0).raised, x.1 ≠ 2) ∧
    tget ((sRoute 0 sentWrite).router 0).holder 1 = some (17, 9) ∧ 17 / 4 = 4 ∧ tget ((sRoute 0 sentWrite).router 0).holder 2 = none ∧ ((sRoute 0 sentWrite).router 0).overhold ≤ 64 ∧
    4 ≤ tget ((sRoute 0 sentWrite).router 0).replays 1 ∧ tget ((sRoute 0 sentWrite).router 0).replays 0 < 4 ∧ s0.org.dead.contains 0 = false ∧
    ({ s0 with org := { s0.org with dead := [0] } } : State).org.dead.contains (regionOf 0) = true := by decide +kernel
def oneDrove : Drove := { id := 4095, tag := 1, members := [16] }
def oneSend : DroveSend := { tag := 1, drove := 4095, txn := 9, sender := 1, senderTxn := 3, lastIn := true }
def sDrove (ds : List Drove) (xs : List DroveSend) : State := onTile s0 fun T => { T with droves := ds, sends := xs }
def droveP : Packet := { typ := .droveData, vc := 2, words := 1, tag := 1, src := 0, dst := 0, drove := 4095, txn := 9, data := [7] }
def sFork (buf : List (Nat × Packet)) (flight : List Packet) : State :=
  { s0 with net := { s0.net with flight := flight, routers := [(0, { forks := [{ tag := 1, drove := 4095, mask := 18, beneath := [0, 1, 0, 0, 1], here := 0 }], forkBuf := buf })] } }
theorem witness_DrovesForkAndReport :
    (s0.tile 0).net.drvBusy = false ∧ (let T := ((onTile s0 fun T => { T with net := { T.net with drvBusy := true } }).tile 0); T.net.drvBusy = true) ∧
    fld ((s0.tile 0).reg 0xC03) 0 23 % 32 = 0 ∧ (16 ∈ s0.members 1 ∧ 0 ∈ s0.members 1 ∧ 4 ∉ s0.members 1) ∧ s0.droveAt 1 4095 = none ∧
    (let s := s0.store (spdKey 0 0) [16, 0, 0, 0, 4, 0]
     s.nat (spdKey 0 0) 2 = 16 ∧ s.nat (spdKey 0 2) 2 = 0 ∧ s.nat (spdKey 0 4) 2 = 4) ∧ Tab.wf (sDrove [oneDrove] []).tiles = true ∧
    (sDrove [oneDrove] []).droveAt 1 4095 = some 0 ∧ ((sDrove [oneDrove] [oneSend]).tile 0).sends = [oneSend] ∧ (sDrove [{ oneDrove with members := [] }] []).droveAt 1 4095 = some 0 ∧
    ((sFork [] [droveP]).router 0).forkBuf = [] ∧ (sFork [] [droveP]).linkLive 0 1 = true ∧ neighbour 0 1 = some 1 ∧ (∀ x ∈ (sFork [(2, droveP)] []).net.flight, x.vc ≠ 2) ∧
    oneSend.is 1 4095 9 = true ∧ oneDrove.removing = false ∧ oneSend.delivered.length + 1 = oneDrove.members.length := by decide +kernel
def withR (f : Region → Region) : State := s0.modRegion 0 f
theorem witness_RegionClocks :
    s0.org.dead.contains 0 = false ∧ (s0.region 0).railOffLatched = false ∧ ((withR fun R => { R with railOffLatched := true }).region 0).railOffLatched = true ∧
    (let R := (withR fun R => { R with pendingFmult := some 64 }).region 0
     R.pendingFmult = some 64 ∧ R.changing = none ∧ R.slewTo = none ∧ R.stopped = false ∧ R.power = .on ∧ R.tripped = false) ∧
    (let R := (withR fun R => { R with changing := some 64, tripped := true }).region 0; R.changing = some 64 ∧ R.tripped = true) ∧
    (let R := (withR fun R => { R with changing := some 16, slewTo := some 700 }).region 0; R.changing = some 16 ∧ R.tripped = false ∧ R.power = .on ∧ R.slewTo = some 700 ∧ 16 ≤ R.fmult) ∧
    0 ∈ regionTiles 0 ∧ (neighbour 0 1).isSome = true := by decide +kernel
/-- Tiles 0 and 1 with a scheduled link between them, and tile 0's segment of one entry. -/
def sVerge (entry : Nat) (d : Sched) : State :=
  let s := { s0 with host := { s0.host with paddocks := [(1, { (s0.paddock 1) with mixed := true })] } }
  let s := s.modTile 0 fun T => { (T.setReg 0xC20 (2 ^ 5)) with sched := { d with cal := [(1, { calibrated := true })], mem := [(0, BitVec.ofNat 128 entry), (1, 2 + 20 * 2 ^ 12)] } }
  s.modTile 1 fun T => { (T.setReg 0xC20 (2 ^ 7)) with sched := { T.sched with cal := [(3, { calibrated := true })] } }
/-- One word sent at tick 3, or taken at tick 18. -/
def sends3 : Nat := 1 * 2 ^ 4 + 1 * 2 ^ 6 + 3 * 2 ^ 12
def takes18 : Nat := 1 + 1 * 2 ^ 4 + 1 * 2 ^ 6 + 18 * 2 ^ 12
def running (sigma : Nat) : Sched := { state := .running, sigma := sigma, length := 20, credits := [(1, 16)] }
theorem witness_ScheduledMode :
    (neighbour 0 0 = none ∧ (neighbour 0 1).isSome = true ∧ 2 * linkL 0 1 - 1 = 11 ∧ (s0.tile 0).sched.state = .idle) ∧ State.reset.tag 0 = 0 ∧
    (let d : Sched := { mem := [(0, 3)] }; fld (tget d.mem 0).toNat 0 4 > 2) ∧
    (let s := sVerge sends3 (running 3)
     s.vergeSched 0 1 = true ∧ s.vergeSched 0 0 = false ∧ s.vergeSched 0 2 = false ∧ s.ticking 0 = true ∧ (s.tile 0).preempting = false ∧ bit ((s.tile 0).reg 0xC27) 31 = false ∧
     tget (s.tile 0).sched.credits 1 = 16 ∧ (3 : Nat) < linkL 0 1 ∧ 3 + linkL 0 1 < 20) ∧
    ((∀ k, k < 4 → s0.vergeSched 0 k = false) ∧ 19 + 1 = (running 19).length) ∧
    (linkL 0 1 ≤ 18 ∧ 18 < 20 ∧ 20 ≤ 18 + linkL 0 1 ∧ (running 18).wordThere 1 (linkL 0 1) 18 = false) ∧
    (let w : SWord := { index := 12, count := 1, data := [7], present := true }
     ({ running 18 with fifo := [(1, [w])] } : Sched).wordThere 1 (linkL 0 1) 18 = true ∧ w.count = 1) ∧
    (let s := onTile s0 fun T => (T.setReg 0xC24 (2047 * 2 ^ 16)).setReg 0xC23 0
     fld ((s.tile 0).reg 0xC24) 16 11 + (fld ((s.tile 0).reg 0xC24) 0 12 + 1) ≤ 2048) ∧
    (let s := onTile s0 fun T => { T.setReg 0xC27 (2 ^ 31) with sched := running 1 }
     ¬(bit ((s.tile 0).reg 0xC27) 31 = false ∨ (s.tile 0).sched.sigma ≤ fld ((s.tile 0).reg 0xC27) 0 20)) ∧
    (let w : SpdWrite := { off := 2 ^ 23 - 32, bytes := List.replicate 32 7 }; w.off % 32 = 0 ∧ w.off < 2 ^ 23 ∧ w.bytes.length = 32) := by decide +kernel
theorem witness_ScheduledMode_segments :
    (let s := sVerge sends3 {}
     let (l, b) := schRun (s.tile 0).sched.mem 0 2
     s.segmentCause 0 l b = 0 ∧ b.isSome = true ∧ l.map (·.covers 0 1 3) = [true] ∧ l.map (·.words) = [1]) ∧
    (let s := sVerge takes18 {}
     let (l, b) := schRun (s.tile 0).sched.mem 0 2
     s.segmentCause 0 l b = 0 ∧ b.isSome = true ∧ l.map (·.covers 1 1 18) = [true]) := by decide +kernel

/-! #### Translation, pre-emption, stacks, hosts -/
/-- The frames of context 3, and tables that map page 0 to the frame at 0x4000: each entry is 8 bytes at the table's start. -/
def sTables (e0 : Nat) : State :=
  let s := { s0 with host := { s0.host with frames := [(0, .ctx 3), (1, .table 3), (2, .table 3), (3, .table 3), (4, .ctx 3)] } }
  let s := s.store (hbmAddrKey 0) (toBytes 0x1001 8)
  let s := s.store (hbmAddrKey 0x1000) (toBytes 0x2001 8)
  let s := s.store (hbmAddrKey 0x2000) (toBytes 0x3001 8)
  s.store (hbmAddrKey 0x3000) (toBytes e0 8)
def walking (w : Walk) : State := { s0 with mmu := { s0.mmu with walks := [w], priBlocked := [] } }
theorem witness_PageWalksEnd :
    (let s := sTables 0x4003
     (s.ptRead 0).toOption = some 0x1001 ∧ s.ownsFrame 3 0 = true ∧ entryReserved 0x1001 = false ∧ (s.ptRead 0x1000).toOption = some 0x2001 ∧ s.ownsFrame 3 0x1000 = true ∧ (s.ptRead 0x2000).toOption = some 0x3001 ∧
     s.ownsFrame 3 0x2000 = true ∧ (s.ptRead 0x3000).toOption = some 0x4003 ∧ s.ownsFrame 3 0x3000 = true ∧ bit 0x4003 0 = true ∧ bit 0x4003 1 = true ∧ bit 0x4003 3 = false ∧
     fld 0x4003 4 2 = 0 ∧ pageInRange 0x4000 4096 = true ∧ s.ownsFrame 3 0x4000 = true ∧ s.ownsFrame 4 0x1000 = false ∧ (s.region 0).wcache = []) ∧
    entryReserved (2 ^ 52 + 1) = true ∧ bit 0 0 = false ∧ fld 0x4023 4 2 = 2 ∧ hbmAddr 0x13600000000 = none ∧
    ((walking { region := 143, ctx := 255, va := 2 ^ 56 - 4096 }).findWalk 143 255 (2 ^ 56 - 4096)).isSome = true ∧ s0.findWalk 0 3 0 = none ∧
    ((walking { ctx := 3, ats := true, pageReq := true }).mmu.walks.filter fun w => w.pageReq && w.ctx == 3 && w.va == 0) = [{ ctx := 3, ats := true, pageReq := true }] ∧
    ({ s0 with mmu := { s0.mmu with priBlocked := [0] } } : State).mmu.priBlocked.contains ((s0.ctx 3).fn) = true ∧ s0.pageReqs (portOfFn 0) < 512 ∧
    (let s := onCore s0 fun c => { c with hold := some { va := 4100 } }
     (s.core u0).hold = some { va := 4100 } ∧ (s.paddock (s.tag 0)).ctx = 3 ∧ 4100 / 4096 * 4096 = 4096 ∧ regionOf 0 = 0) := by decide +kernel
def invalidating (b : InvBy) (places : List (Nat × Nat × Nat)) : State := { s0 with mmu := { s0.mmu with invs := [{ by_ := b, ctxs := [3], places := places }] } }
theorem witness_InvalidationsDropAndComplete :
    Tab.wf s0.tiles = true ∧ Tab.wf s0.regions = true ∧ s0.pfCtx 0 3 = true ∧ s0.pfCtx 1 3 = false ∧
    (let F := ((s0.modFunc 0 fun F => { F with ats := true, pri := true }).func (s0.ctx 3).fn); F.ats = true ∧ F.pri = true) ∧ (s0.func (s0.ctx 3).fn).ats = false ∧
    (invalidating (.mmu 0) []).mmuBusy 0 = true ∧ s0.mmuBusy 0 = false ∧ (invalidating (.tile 0) []).xtcBusy 0 = true ∧ s0.xtcBusy 0 = false ∧ State.reset.tag 0 = 0 ∧ s0.tag 0 ≠ 0 ∧
    (invalidating (.mmu 0) []).mmu.invs[0]? = some { by_ := .mmu 0, ctxs := [3] } ∧ (invalidating (.mmu 0) []).mmu.invs[1]? = none ∧
    (invalidating (.mmu 0) []).placesBusy { by_ := .mmu 0, ctxs := [3] } = false ∧
    (let i : Inval := { ctxs := [3], places := [(0, 0, 4096)] }
     (onTile s0 fun T => { T with net := { T.net with requests := [{ pkt := { typ := .memRead, context := 3, addr := 4095 } }] } }).placesBusy i = true) := by decide +kernel
def aFault : Fault' := { id := 5 * 2 ^ 32, unit := 16, va := 64, ctx := 3, pad := 1 }
def faulting (f : Fault') (tail : Nat) : State :=
  ({ s0 with mmu := { s0.mmu with faults := [f], ctxs := [(3, { live := true, tail := tail })] }, net := { s0.net with faultNotes := [(0, f.id, 1)] } } : State).modCore u0 fun c => { c with hold := some { va := 64, fault := some f.id } }
/-- The job's image names core 0 of rank 0 as the handler of faults. -/
def sHandler : State := { s0 with host := { s0.host with jobs := [(5, { (s0.job 5) with img := { lvlMajor := 2, lvlMinor := 2, faultCore := true } })] } }
theorem witness_FaultRecordsAndResolutions :
    (faulting aFault 63).mmu.faults.find? (fun f => f.ctx == 3 && !f.recorded) = some aFault ∧ (((faulting aFault 63).mmuCtx 3).tail + 1) % 2 ^ ((faulting aFault 63).mmuCtx 3).log2 = ((faulting aFault 63).mmuCtx 3).head ∧
    (((faulting aFault 62).mmuCtx 3).tail + 1) % 2 ^ ((faulting aFault 62).mmuCtx 3).log2 ≠ ((faulting aFault 62).mmuCtx 3).head ∧ aFault.toCore = false ∧
    (∀ f ∈ s0.mmu.faults, f.recorded = true) ∧ (faulting aFault 0).net.faultNotes.find? (fun n => n.1 == 0) = some (0, aFault.id, 1) ∧ s0.net.faultNotes = [] ∧
    (s0.tile 0).notes.length < 64 ∧ sHandler.isHandler u0 = true ∧ s0.isHandler u0 = false ∧ sHandler.handlerTile 5 = some 0 ∧
    (faulting aFault 0).mmu.faults.find? (fun f => f.id == 5 * 2 ^ 32) = some aFault ∧ aFault.unit = 16 + u0.core.val ∧
    ((((faulting aFault 0).members 1)[aFault.id / 2 ^ 22 % 1024]?.bind (faulting aFault 0).tileOf).getD aFault.src) = 0 ∧
    ((faulting aFault 0).core u0).hold = some { va := 64, fault := some (5 * 2 ^ 32) } ∧ (∀ f ∈ (faulting aFault 0).mmu.faults, f.id = 7 → f.ctx ≠ 3) := by decide +kernel
/-- Fufin does its work. -/
def inService (s : State) : State := { s with start := { s.start with phase := 0 }, fold := { s.fold with pair0 := { s.fold.pair0 with st := .active } } }
def withPad (f : Paddock → Paddock) (g : Job → Job) : State :=
  { s0 with host := { s0.host with paddocks := [(1, f (s0.paddock 1))], jobs := [(5, g (s0.job 5)), (6, { (s0.job 5) with state := .queued })] } }
theorem witness_PreemptionSavesAndRestores :
    (∀ e ∈ s0.host.funcs, e.2.resetting = false) ∧
    (let s := (withPad (fun P => { P with preempt := true, reported := [1] }) id).modTile 0 fun T => { T with preempting := true }
     (s.paddock (s.tag 0)).preempt = true ∧ (s.paddock (s.tag 0)).frozen = false ∧ (s.tile 0).preempting = true ∧ (s.tile 0).atPoint = false ∧ s.atPoint 0 = true ∧ (s.tile 0).spd.cb = [] ∧
     (s.memberTiles (s.tag 0)).all (setIns [1] 0).contains = true ∧ (s.memberTiles (s.tag 0)).all (setIns [] 0).contains = false ∧ (s.paddock (s.tag 0)).resident = some 5 ∧ (s.job 5).state = .running ∧ s.org.moving = none) ∧
    (let s := withPad id fun J => { J with state := .suspending, holdHost := true }
     (s.job 5).state = .suspending ∧ (s.job 5).saveAsked = false ∧ (s.job 5).holdHost = true ∧ (s.job 5).resumeNext = false) ∧
    (let s := withPad (fun P => { P with slice := 1, jobs := [5, 6] }) id
     let s := inService s
     s.foldUp = true ∧ (s.paddock 1).slice ≠ 0 ∧ (s.job 5).state = .running ∧ (s.paddock 1).preempt = false ∧ (s.paddock 1).after = none ∧ s.turnJobs 1 ≠ []) ∧
    (let s := withPad (fun P => { P with frozen := true, jobs := [5, 6] }) fun J => { J with state := .suspended, holdHost := true }
     (s.paddock 1).frozen = true ∧ (s.paddock 1).saving = false ∧ (s.job 5).state = .suspended ∧ s.turnJobs 1 ≠ []) ∧
    (let s := withPad (fun P => { P with saving := true }) fun J => { J with state := .suspended, holdHost := true }
     (s.paddock 1).saving = true ∧ (s.paddock 1).after = none ∧ (s.job 5).holds ≠ 0) ∧
    (let s := withPad (fun P => { P with restoring := true }) fun J => { J with state := .resuming, saved := true, area := { tiles := [{ lid := 0 }, { lid := 16 }] } }
     (s.paddock 1).restoring = true ∧ (s.awake 1).1 = true ∧ (s.job 5).saved = true ∧ s.restorable 5 = true ∧ (s.memberTiles 1).Nodup ∧ (s.job 5).cancelNext = false ∧ (s.job 5).suspendNext = false) ∧
    (let s := withPad (fun P => { P with resident := none, jobs := [6] }) fun J => { J with state := .done }
     s.nextJob 1 = some 6 ∧ s.padFree 1 = true ∧ (s.awake 1).1 = true ∧ (s.job 6).state = .queued ∧ (s.job 6).img.minMembers ≤ (s.memberTiles 1).length ∧ (s.job 6).entryTable = false ∧ (s.job 6).img.segments = []) := by decide +kernel
def clearing (toFill : List Nat) : State := { State.reset with org := { State.reset.org with clearing := [0], clearingTiles := [575], toFill := toFill } }
theorem witness_ResetsAndClearing :
    (s0.tile 0).net.fenced = false ∧ (let s := onTile s0 fun T => { T with net := { T.net with fenced := true } }; (s.tile 0).net.fenced = true ∧ (s.paddock (s.tag 0)).resident = some 5 ∧ (s.job 5).terminal = false) ∧
    srKept 0x801 ≠ srKept 0xA00 ∧ Tab.wf s0.host.paddocks = true ∧ (clearing []).org.clearing.contains 0 = true ∧ (clearing []).stillFilling ((clearing []).clearedTiles 0) = false ∧
    (clearing [0]).stillFilling ((clearing [0]).clearedTiles 0) = true ∧ (clearing []).org.toBind = [] ∧ (clearing [0]).org.clearingTiles.contains 575 = true ∧ (clearing [0]).org.toFill.contains 575 = false := by decide +kernel

/-! #### Stacks and hosts -/
def withStack (f : Stack → Stack) : State := s0.setStack 0 (f { state := .inService })
/-- The last 64 words of stack 0's window. -/
def memReq (typ : PType) : Packet := { typ := typ, words := 64, tag := 1, context := 3, src := 0, dst := (stackNodes 0).headD 0, txn := 9, addr := 0x20000000000 + 0xF80000000 - 2048, data := List.replicate 64 7, poison := 2 ^ 63 }
theorem witness_HbmRequests :
    stackOfNode (memReq .memWrite).dst = some 0 ∧ (memReq .memWrite).tag ≠ 0 ∧ (memReq .memWrite).cut = false ∧ ((withStack id).stack 0).state = .inService ∧
    hbmRequestOk 0 (memReq .memWrite) = true ∧ ((withStack id).stack 0).selfRefresh = false ∧ bit (memReq .memWrite).addr 48 = false ∧
    (memReq .memWrite).data.length = (memReq .memWrite).words ∧ (memReq .memWrite).words ≤ 64 ∧ ((withStack id).stack 0).upset = [] ∧
    hbmRequestOk 0 { memReq .memWrite with addr := 2 ^ 48 + 0x20000000000 + 0xF80000000 - 32 } = true ∧ bit (2 ^ 48 + 0x20000000000 + 0xF80000000 - 32) 48 = true ∧
    hbmRequestOk 0 { memReq .memWrite with addr := 0x20000000000 + 0xF80000000 - 32 } = false ∧ (s0.stack 0).state = .inReset ∧
    ((withStack fun K => { K with state := .out }).stack 0).state = .out ∧ ((withStack fun K => { K with selfRefresh := true }).stack 0).selfRefresh = true := by decide +kernel
theorem witness_HbmStacksServe :
    (let K := (withStack fun K => { K with scrubLine := stackLines - 1 }).stack 0
     K.state = .inService ∧ K.selfRefresh = false ∧ K.scrubLine + 1 = stackLines ∧ (∀ i, i < 8 → tget K.upset (8 * (stackLines - 1) + i) = 0) ∧ K.migrating = none ∧ K.testing = none) ∧
    (let K := (withStack fun K => { K with migrating := some 63, migPtr := channelLines - 1 }).stack 0
     K.migrating = some 63 ∧ channelLines ≤ K.migPtr + 1 ∧ K.pendingRetire = []) ∧ (let K := (withStack fun K => { K with migrating := some 63, migPtr := channelLines - 2 }).stack 0; K.migPtr + 1 < channelLines) ∧
    ((withStack id).stack 0).srIdle ≠ 0 ∧ (let K := (withStack fun K => { K with srIdle := 0 }).stack 0; K.srIdle = 0 ∧ K.srForced = false) ∧ ((withStack id).stack 0).edgeFailed = false ∧
    (s0.stack 0).state = .inReset ∧ (s0.stack 0).lostPower = false ∧ (let K := (withStack fun K => { K with edgeFailed := true, srForced := true, lostPower := true }).stack 0; K.edgeFailed = true ∧ K.srForced = true ∧ K.lostPower = true) ∧
    (let K := (withStack fun K => { K with testing := some 5, testPart := 4 }).stack 0; K.testing = some 5 ∧ K.testPart = 4 ∧ K.testPart < 5 ∧ K.retired = [] ∧ K.pendingRetire = []) ∧
    (let K := (withStack fun K => { K with testing := some 5, testPart := 6, testData := true, pendingRetire := [5], testPlan := [(6, 1)] }).stack 0
     6 ≤ K.testPart ∧ K.testPlan = (6, 1) :: [] ∧ K.testErr = false ∧ K.pendingRetire = [5]) ∧ ({ s0 with start := { s0.start with phase := 10 } } : State).start.phase = 10 ∧ (inService s0).start.phase ≠ 10 := by decide +kernel
def withFunc (f : Func → Func) : State := (inService s0).modFunc 0 f
def withPort (f : HostPort → HostPort) : State := s0.setPort 0 (f (s0.port 0))
theorem witness_SessionsAndResets :
    ((withFunc id).func 0).enabled = false ∧ ((withFunc id).func 0).resetting = false ∧ (withFunc id).start.stopped = false ∧ (withFunc id).start.phase = 0 ∧ State.reset.start.phase ≠ 0 ∧
    ((withFunc fun F => { F with enabled := true }).func 0).enabled = true ∧ ((withFunc fun F => { F with enableHeld := true }).func 0).enableHeld = true ∧
    (let F := (withFunc fun F => { F with hver := 2 * 2 ^ 24 + 4 * 2 ^ 16 + 0x109 }).func 0; fld F.hver 24 8 = 2 ∧ fld F.hver 8 8 = 1) ∧
    (let F := (withFunc fun F => { F with hver := 2 ^ 24 + 9 * 2 ^ 16 + 0x204 }).func 0; fld F.hver 24 8 = 1 ∧ fld F.hver 8 8 = 2) ∧
    ((withPort fun P => { P with up := true }).port 0).up = true ∧ (s0.port 0).up = false ∧ (s0.port 0).perst = true ∧ ((withPort fun P => { P with perst := false }).port 0).perst = false ∧
    ((withPort fun P => { P with out := true }).port 0).out = true ∧ (∀ e ∈ s0.host.funcs, e.2.resetting = false) ∧ (∀ v ∈ vfsOf 0, (s0.func v).vfOn = false) ∧
    (let v := (vfsOf 0).getD 62 0; v ∈ (vfsOf 0).drop 62 ∧ ((s0.modFunc v fun F => { F with vfOn := true }).func v).vfOn = true) ∧ (∀ e ∈ State.reset.host.paddocks, e.2.live = false) := by decide +kernel
/-- A queue of 16 entries that runs, with what else is said. -/
def withQueue (f : Queue → Queue) : State := ((inService s0).modFunc 0 fun F => { F with nver := 0x200 }).setQueue 0 65535 (f { made := true, log2Sq := 4, log2Cq := 4 })
theorem witness_QueuesFetchAndComplete :
    (let Q := (withQueue id).queue 0 65535
     Q.made = true ∧ Q.stopped = false ∧ Q.inDevice = false ∧ 2 ^ Q.log2Sq ≤ 16 ∧ 15 < 2 ^ Q.log2Sq ∧ Q.cqUsed < (1 + 2 ^ Q.log2Cq - Q.cqHead) % 2 ^ Q.log2Cq ∧
     (0 + 2 ^ Q.log2Cq - Q.cqHead) % 2 ^ Q.log2Cq ≤ Q.cqUsed ∧ Q.sqHead = Q.sqTail ∧ Q.deleting = none ∧ ((withQueue id).func 0).resetting = false) ∧
    (let Q := (withQueue fun Q => { Q with sqTail := 1, cqUsed := 14 }).queue 0 65535
     Q.sqHead ≠ Q.sqTail ∧ Q.cqUsed + natSum (Q.fetched.map (·.hold)) + opEntries 0x30 ≤ 2 ^ Q.log2Cq ∧ opVersion 0x30 = some 0x100 ∧ 0x100 ≤ ((withQueue id).func 0).nver ∧ opVersion 0xFF = none ∧
     opVersion 0x38 = some 0x201 ∧ ((withQueue id).func 0).nver < 0x201) ∧
    (let Q := (withQueue fun Q => { Q with sqTail := 1, cqUsed := 15 }).queue 0 65535; ¬(Q.cqUsed + natSum (Q.fetched.map (·.hold)) + opEntries 0x30 ≤ 2 ^ Q.log2Cq)) ∧
    (let s := withQueue fun Q => { Q with inDevice := true, ctx := 3, sqTail := 1 }
     (s.queue 0 65535).inDevice = true ∧ (s.ctxPlace 3 (s.queue 0 65535).sqBase false).toOption = none ∧ (s.ctxRead 3 [] (pagePieces 0 8)).toOption = none) ∧
    (let s := withQueue fun Q => { Q with cqTail := 15, fetched := [{ no := 7 }] }
     (s.queue 0 65535).fetched.any (fun f => f.no == 7) = true ∧ (s.queue 0 65535).cqTail + 1 = 2 ^ (s.queue 0 65535).log2Cq ∧ 0x200 ≤ (s.func 0).nver) ∧
    (let k : Packet := { typ := .memRead, words := 2, src := 0, txn := 4 }
     let s := withPort fun P => { P with reads := [{ tag := 16383, pkt := some k, n := 64 }] }
     (s.port 0).reads.find? (fun r => r.tag == 16383) = some { tag := 16383, pkt := some k, n := 64 } ∧ 64 = 32 * k.words ∧ k.words ≤ 64 ∧ (s.port 0).reads.find? (fun r => r.tag == 0) = none) := by decide +kernel
/-- The command `c` waits alone in queue `q` of function 0. -/
def withCmd (q : Nat) (c : SqEntry) (s : State) : State :=
  (s.modFunc 0 fun F => { F with nver := 0x204, queues := 8 }).setQueue 0 q { made := true, log2Sq := 4, log2Cq := 4, fetched := [{ c := c, no := 0, hold := opEntries c.opcode.toNat }] }
/-- The hypothesis that a queue starts a command, as a computation. -/
def startsB (s : State) (q op : Nat) (c : SqEntry) : Bool :=
  (s.queue 0 q).fetched.find? (fun f => !f.started) == some { c := c, no := 0, hold := opEntries op } && c.opcode.toNat == op && !sqBadFrame c &&
  !bit c.flags.toNat 0 && !(s.func 0).resetting && s.foldUp
theorem startsB_sound {s : State} {q op : Nat} {c : SqEntry} (h : startsB s q op c = true) : s.starts 0 q op c { queue := q, id := c.id.toNat } := by
  simp only [startsB, Bool.and_eq_true, beq_iff_eq, Bool.not_eq_true'] at h
  exact ⟨h.1.1.1.1.1, h.1.1.1.1.2, h.1.1.1.2, .inl h.1.1.2, h.1.2, fun _ => h.2, rfl⟩
def cmd (op : BitVec 8) (w1 w2 w3 w4 w5 : BitVec 64) : SqEntry := { opcode := op, id := 77, ctx := 3, w1 := w1, w2 := w2, w3 := w3, w4 := w4, w5 := w5 }
def sCmd (c : SqEntry) : State := withCmd 0 c (inService s0)
theorem witness_commands_start :
    startsB (sCmd (cmd 0x01 0 0 0 0 0)) 0 0x01 (cmd 0x01 0 0 0 0 0) = true ∧ startsB (withCmd 4095 (cmd 0x34 5 0 0 0 0) (inService s0)) 4095 0x34 (cmd 0x34 5 0 0 0 0) = true := by decide +kernel
theorem witness_AdminAndPaddockCommands :
    (let c := cmd 0x01 0x1000 0x2000 (7 + 16 * 2 ^ 16 + 1 * 2 ^ 21) 0 0
     startsB (sCmd c) 0 0x01 c = true ∧ sqStray c [maskAll, maskAll, msk 0 27 + msk 32 12, msk 0 32, maskAll] = false ∧ wf c.w3 0 16 = 7 ∧ 7 < (sCmd c).fnQueues 0 ∧ wf c.w3 16 5 = 16 ∧
     wf c.w3 21 5 = 1 ∧ wf c.w1 0 12 = 0 ∧ wf c.w2 0 12 = 0 ∧ wf c.w3 32 11 < fnVectors 0 ∧ 0x204 ≤ (sCmd c).ver 0 ∧ bit c.w3.toNat 26 = false ∧ ((sCmd c).queue 0 7).made = false) ∧
    (let c := cmd 0x02 7 0 0 0 0
     let s := (sCmd c).setQueue 0 7 { made := true, fetched := [{ isJob := true }] }
     startsB s 0 0x02 c = true ∧ sqStray c [msk 0 16] = false ∧ 7 < s.fnQueues 0 ∧ (s.queue 0 7).made = true ∧ (s.queue 0 7).deleting = none ∧ ∀ f ∈ (s.queue 0 7).fetched, f.isJob = true) ∧
    (let t := (vfsOf 0).headD 0
     let c := cmd 0x03 (BitVec.ofNat 64 (t + 1 * 2 ^ 16 + 1 * 2 ^ 32 + 144 * 2 ^ 40)) 0 0 0 0
     let s := (sCmd c).modFunc t fun F => { F with vfOn := true }
     startsB s 0 0x03 c = true ∧ sqStray c [msk 0 8 + msk 16 16 + msk 32 16] = false ∧ 4 ≤ t ∧ pfOf t = 0 ∧ (s.func t).vfOn = true ∧ s.queuesUsed t ≤ 1 ∧ s.contextsUsed t ≤ 1 ∧ s.regionsUsed t ≤ 144 ∧
     1 + s.queuesUsed 0 ≤ s.fnQueues 0 + (s.func t).queues ∧ 1 + s.contextsUsed 0 ≤ s.fnContexts 0 + (s.func t).contexts ∧ 144 ≤ (s.func t).quota + s.fnQuota 0) ∧
    (let c := cmd 0x04 (1 + 16 * 2 ^ 32) 0x1000 0x2000 0 0
     startsB (sCmd c) 0 0x04 c = true ∧ sqStray c [msk 0 2 + msk 8 20 + msk 32 17, maskAll, maskAll] = false ∧ wf c.w1 32 5 = 16 ∧ wf c.w1 37 11 < fnVectors 0 ∧ bit c.w1.toNat 0 = true ∧ bit c.w1.toNat 1 = false ∧
     (sCmd c).contextsUsed 0 < (sCmd c).fnContexts 0 ∧ (sCmd c).freeCtx.isSome = true ∧ ((sCmd c).findFrames 0xFF (cdiv (32 * 2 ^ 16) 4096) 1).isSome = true) ∧
    (let c := cmd 0x05 0 0 0 0 0
     startsB (sCmd c) 0 0x05 c = true ∧ sqStray c [] = false ∧ (sCmd c).ctxMine 0 3 = true ∧ (sCmd c).ctxMine 0 4 = false ∧ (sCmd c).ctxRing 3 = false ∧
     (∃ e ∈ (sCmd c).host.paddocks, e.2.live = true ∧ e.2.ctx = 3) ∧ ∀ e ∈ State.reset.host.paddocks, e.2.ctx ≠ 3) := by decide +kernel
/-- No pair in the words of REPLACE_PADDOCK but what the first says. -/
def none2 : BitVec 64 := 0xFFFF + 0xFFFF * 2 ^ 32
def noPairs (w1 w2 : BitVec 64) : SqEntry := { cmd 0x14 w1 w2 none2 none2 none2 with w6 := none2, w7 := none2 }
def gone1 (c : SqEntry) : State := withCmd 0 c { inService s0 with host := { s0.host with paddocks := [], jobs := [] } }
theorem witness_AdminAndPaddockCommands_paddocks :
    (let c := cmd 0x10 0 0 0 (2 ^ 15) (15 * 2 ^ 8)
     startsB (gone1 c) 0 0x10 c = true ∧ attrsBeyond ((gone1 c).ver 0) c.w5.toNat = false ∧ sqStray c (0 :: bitmapMasks ++ [msk 0 13 + msk 16 16]) = false ∧ bitmapRegions c = [143] ∧
     (gone1 c).ctxMine 0 3 = true ∧ (gone1 c).assignable 143 = true ∧ (gone1 c).regionsUsed 0 + 1 ≤ (gone1 c).fnQuota 0 ∧ (gone1 c).padCount < 144) ∧
    (let c := cmd 0x10 0 0 0 0 1
     bitmapRegions c = [] ∧ wf c.w5 0 8 = 1 ∧ ((gone1 c).countRegions 1).length = 1) ∧
    (let c := cmd 0x11 1 2 0 0 0
     startsB (sCmd c) 0 0x11 c = true ∧ sqStray c (msk 0 16 :: bitmapMasks) = false ∧ bitmapRegions c = [1] ∧ (sCmd c).padMine 0 3 1 = true ∧ (sCmd c).padMine 0 3 2 = false ∧ (sCmd c).padBusy 1 = true ∧
     (let s := withCmd 0 c { inService s0 with host := { s0.host with paddocks := [(1, { (s0.paddock 1) with jobs := [], resident := none })] } }
      s.padBusy 1 = false ∧ (s.paddock 1).jobs = [] ∧ s.assignable 1 = true ∧ s.regionsUsed 0 + 1 ≤ s.fnQuota 0)) ∧
    (let c := cmd 0x12 1 1 0 0 0
     let s := withCmd 0 c { inService s0 with host := { s0.host with paddocks := [(1, { (s0.paddock 1) with regions := [0, 1], jobs := [5], resident := some 5 })], jobs := [(5, { (s0.job 5) with state := .suspended })] } }
     startsB s 0 0x12 c = true ∧ bitmapRegions c = [0] ∧ (∀ r ∈ bitmapRegions c, r ∈ (s.paddock 1).regions) ∧ (bitmapRegions c).length ≠ (s.paddock 1).regions.length ∧ s.padBusy 1 = false ∧
     (s.job 5).state = .suspended ∧ (s.paddock 1).saving = false) ∧
    (let c := cmd 0x13 1 0 0 0 (2 ^ 32 + 15 * 2 ^ 8)
     startsB (sCmd c) 0 0x13 c = true ∧ sqStray c [msk 0 16, 0, 0, 0, msk 8 5 + msk 16 16 + msk 32 3] = false ∧ bit c.w5.toNat 33 = false) ∧
    (let c := noPairs 1 none2
     startsB (sCmd c) 0 0x14 c = true ∧ sqStray c [msk 0 17 + msk 32 32, maskAll, maskAll, maskAll, maskAll, maskAll, maskAll] = false ∧ bit c.w1.toNat 16 = false ∧ replacePairs c = [] ∧
     (sCmd c).org.geoGen = 0 ∧ ((sCmd c).paddock 1).releasing = false ∧ ((sCmd c).paddock 1).after = none) ∧
    (let c := cmd 0x15 1 0 0 0 0
     startsB (sCmd c) 0 0x15 c = true ∧ sqStray c [msk 0 16] = false ∧ (sCmd c).padMine 0 3 1 = true ∧ ((sCmd c).paddock 1).releasing = false ∧ (sCmd c).clearOver 1 = true) ∧
    (let c := cmd 0x16 1 0x1000 96 0 0
     startsB (sCmd c) 0 0x16 c = true ∧ sqStray c [msk 0 16, maskAll, msk 0 16] = false ∧ 32 * (((sCmd c).members 1).length + 1) = wf c.w3 0 16) := by decide +kernel
/-- A free tile of field 0 for the place of member 16. -/
theorem witness_AdminAndPaddockCommands_replace :
    (let t := tileAtPos 0 50
     let c := noPairs (1 + 2 ^ 16) (BitVec.ofNat 64 (16 + tx t * 2 ^ 16 + ty t * 2 ^ 24 + 0xFFFF * 2 ^ 32))
     replacePairs c = [(16, tx t, ty t)] ∧ t < 576 ∧ (sCmd c).freeTile t = true ∧ pairStray c = false ∧ fieldOf t = 16 / 60 ∧ (sCmd c).lidPaddock 16 = 1) := by decide +kernel

/-! #### Memory, jobs, links, endpoints -/
theorem witness_MemoryAndImageCommands :
    (let c := cmd 0x20 1 0xFF 0 0 0
     startsB (sCmd c) 0 0x20 c = true ∧ sqStray c [maskAll, msk 0 8] = false ∧ c.w1 ≠ 0 ∧ wf c.w2 0 8 = 0xFF ∧ ((sCmd c).findFrames 0xFF 1 1).isSome = true ∧ (sCmd c).ctxMine 0 3 = true) ∧
    (let c := cmd 0x21 0x4000 1 0 0 0
     let s := withCmd 0 c (inService (sTables 0))
     startsB s 0 0x21 c = true ∧ framesOf 0x4000 4096 = [4] ∧ s.frame 4 = .ctx 3 ∧ s.frameMapped 3 4 = false ∧ s.frameRing 3 4 = false ∧ framesOf 0x1000 4096 = [1] ∧ s.frame 1 = .table 3) ∧
    (let c := cmd 0x22 0x5000 4096 (2 + 0 * 8) 0x4000 0
     startsB (sCmd c) 0 0x22 c = true ∧ sqStray c [maskAll, maskAll, msk 0 5 + msk 8 9, maskAll] = false ∧ wf c.w3 0 2 = 2 ∧ wf c.w3 3 2 = 0 ∧ bit c.w3.toNat 16 = false ∧ c.w1.toNat % 4096 = 0 ∧
     c.w4.toNat % 4096 = 0 ∧ c.w1.toNat + 4096 ≤ 2 ^ 56 ∧ ((sCmd c).ctx 3).hostTables = false ∧ ((sCmd c).ctx 3).maps = []) ∧
    (let c := cmd 0x23 0x1000 0x1000 0 0 0
     startsB (sCmd c) 0 0x23 c = true ∧ sqStray c [maskAll, maskAll, msk 0 1] = false ∧ wf c.w1 0 12 = 0 ∧ wf c.w2 0 12 = 0 ∧ c.w2 ≠ 0 ∧ ((sCmd c).ctx 3).hostTables = false) ∧
    (let c := cmd 0x24 0x1FF0 0 0 32 0
     let s := withCmd 0 c (inService { sTables 0 with host := { (sTables 0).host with ctxs := [(3, { live := true, maps := [(0, 4096, 0, 0x4000)] })] } })
     startsB s 0 0x24 c = true ∧ sqStray c [maskAll, maskAll, msk 0 2, maskAll] = false ∧ c.w4 ≠ 0 ∧ bit c.w3.toNat 1 = false ∧ bit c.w3.toNat 0 = false ∧ (s.queue 0 0).inDevice = false) ∧
    (let c := cmd 0x25 0x1000 0xFFFF 0 0 0
     let s := { sCmd c with mmu := { s0.mmu with ctxs := [(3, { live := true, head := 63, tail := 1 })] } }
     startsB s 0 0x25 c = true ∧ min (wf c.w2 0 16) (((s.mmuCtx 3).tail + 2 ^ (s.mmuCtx 3).log2 - (s.mmuCtx 3).head) % 2 ^ (s.mmuCtx 3).log2) = 2) ∧
    (let c := cmd 0x26 (5 * 2 ^ 32) 1 0 0 0
     let s := { sCmd c with mmu := { s0.mmu with faults := [aFault] } }
     startsB s 0 0x26 c = true ∧ sqStray c [maskAll, msk 0 2] = false ∧ wf c.w2 0 2 = 1 ∧ (∃ f ∈ s.mmu.faults, f.id = c.w1.toNat ∧ f.ctx = 3) ∧ s.mmu.resolvedIds.contains c.w1.toNat = false) ∧
    (let c := cmd 0x28 0x1000 0 0 0 0
     startsB (sCmd c) 0 0x28 c = true ∧ sqStray c [maskAll] = false ∧ ((sCmd c).freeImage 3).isSome = true ∧ ((sCmd c).parseImage 3 0x1000 []).toOption = none) ∧
    (let c := cmd 0x29 15 0 0 0 0
     let s := { sCmd c with host := { (sCmd c).host with ctxs := [(3, { live := true, images := [(15, { live := true })] })] } }
     startsB s 0 0x29 c = true ∧ sqStray c [msk 0 8] = false ∧ (tget (s.ctx 3).images 15).live = true ∧ ¬∃ e ∈ s.host.jobs, e.2.image = 15) := by decide +kernel
theorem witness_MemoryAndImageCommands_copy :
    (let J : Job := { live := true, kind := .copy, ctx := 3, state := .running, copyRead := true, copyLen := 32 }
     let s := { (withPort fun P => { P with reads := [{ tag := 9, job := 7, n := 32 }] }) with host := { (withPort fun P => { P with reads := [{ tag := 9, job := 7, n := 32 }] }).host with jobs := [(7, J)] } }
     (s.port 0).reads.find? (fun r => r.tag == 9) = some { tag := 9, job := 7, n := 32 } ∧ (s.job 7).live = true ∧ (s.job 7).copyDone + 32 = (s.job 7).copyLen ∧ (s.job 7).copyBad = false ∧
     (s.job 7).copyOut = false ∧ (s.job 7).area.frames = [] ∧ (s.job 7).owed = []) := by decide +kernel
def jobCmd (op : BitVec 8) (P : Paddock → Paddock) (J : Job → Job) : State := withCmd 0 (cmd op 5 0 0 0 0) (inService (withPad P J))
theorem witness_JobCommands :
    (let c := cmd 0x30 1 (2 ^ 17 - 4) 7 0 0
     let s := { sCmd c with host := { (sCmd c).host with ctxs := [(3, { live := true, images := [(0, { live := true, minMembers := 2 })] })] } }
     startsB s 0 0x30 c = true ∧ sqStray c [msk 0 25, maskAll, maskAll] = false ∧ bit c.w1.toNat 24 = false ∧ c.w2.toNat < 2 ^ 17 ∧ c.w2.toNat % 4 = 0 ∧ s.padMine 0 3 1 = true ∧
     (tget (s.ctx 3).images 0).live = true ∧ (s.paddock 1).releasing = false ∧ (s.paddock 1).slice = 0 ∧ (tget (s.ctx 3).images 0).minMembers = (s.members 1).length) ∧
    (let s := jobCmd 0x31 id fun J => { J with state := .queued }
     startsB s 0 0x31 (cmd 0x31 5 0 0 0 0) = true ∧ sqStray (cmd 0x31 5 0 0 0 0) [msk 0 32] = false ∧ s.jobMine 0 5 = true ∧ s.jobMine 0 4 = false ∧ (s.job 5).state = .queued) ∧
    (let s := jobCmd 0x33 id id
     startsB s 0 0x33 (cmd 0x33 5 0 0 0 0) = true ∧ sqStray (cmd 0x33 5 0 0 0 0) [msk 0 32, 0] = false ∧ (s.job 5).state = .running ∧ (s.job 5).descheduled = false ∧ (s.paddock (s.job 5).paddock).preempt = false ∧
     (s.paddock (s.job 5).paddock).resident = some 5) ∧
    (let s := jobCmd 0x32 (fun P => { P with frozen := true }) fun J => { J with state := .suspended, holdHost := true }
     startsB s 0 0x32 (cmd 0x32 5 0 0 0 0) = true ∧ (s.job 5).state = .suspended ∧ (s.job 5).saved = false ∧ (s.paddock 1).resident = some 5 ∧ (s.job 5).holdGeo = false ∧ (s.job 5).holdDev = false ∧
     (s.paddock 1).frozen = true ∧ (s.paddock 1).regions ≠ [] ∧ (s.paddock 1).releasing = false) ∧
    startsB (jobCmd 0x34 id id) 0 0x34 (cmd 0x34 5 0 0 0 0) = true ∧ ((jobCmd 0x34 id id).job 5).runFrom = none ∧ ((jobCmd 0x32 id fun J => { J with state := .cancelling }).job 5).state = .cancelling ∧
    ((jobCmd 0x33 id fun J => { J with state := .done }).job 5).state = .done ∧
    (let s := (withPad id id).modFunc 0 fun F => { F with jobSel := 5 }
     (s.func 0).resetting = false ∧ s.jobMine 0 (s.func 0).jobSel = true ∧ s.jobMine 1 (s.func 1).jobSel = false ∧ ((s.modFunc 0 fun F => { F with resetting := true }).func 0).resetting = true) := by decide +kernel
def withLamp (f : Lamp → Lamp) : State := { (inService s0).modLamp 17 f with org := { s0.org with variant := .f } }
def upLamp (L : Lamp) : Lamp := { L with state := .up, ver := 0x301 }
theorem witness_LinksTrainCarryAndFail :
    (let L := (withLamp id).lamp 17
     (withLamp id).start.stopped = false ∧ L.enable = true ∧ (withLamp id).lampLicensed 17 = true ∧ L.authFails < 3 ∧ L.state = .down ∧ L.waitRetry = false) ∧
    (∀ k : Fin 5, let L := (withLamp fun L => { L with state := .training, step := k.val + 1 }).lamp 17; L.state = .training ∧ L.step = k.val + 1) ∧
    (let L := (withLamp fun L => { L with state := .authenticating, step := 6, peer := (1, 2), hello := some (1, 2), saved := some (3, 4), savedUsed := true }).lamp 17
     L.state = .authenticating ∧ L.step = 6 ∧ L.peer ≠ (0xFFF, 0xFF) ∧ (withLamp id).fabric.fmgrOn = false ∧ L.saved ≠ none ∧ L.saved ≠ some (1, 2) ∧ L.savedUsed = true) ∧
    lampVersion 0x301 6 0x301 6 = some 0x301 ∧ lampVersion 0x301 6 0x100 0xFFFF = none ∧ (withLamp id).ident.attest = true ∧
    (let L := (withLamp fun L => { L with waitRetry := true }).lamp 17; L.waitRetry = true ∧ L.state = .down) ∧
    (let L := (withLamp upLamp).lamp 17; L.state = .up ∧ L.lowPwr = true ∧ 0x204 ≤ L.ver ∧ L.carries = true ∧ L.asked = false ∧ L.gbuf = [] ∧ L.rxSeq = 0 ∧ L.txBypass = 0xF ∧ L.rxBypass = 0xF ∧ L.rxFailed.length < 5 ∧ L.swapping = none ∧ L.replaysMs < 64 ∧ L.encrypted = false) ∧
    (let L := (withLamp fun L => { upLamp L with unacked := [(0, 8)], replaysMs := 64, encrypted := true, swapping := some 8, txBypass := 3, rxBypass := 3 }).lamp 17
     (∃ e ∈ L.unacked, 8 ≤ e.2) ∧ 64 ≤ L.replaysMs ∧ L.encrypted = true ∧ L.swapping = some 8 ∧ L.txBypass ≠ 0xF ∧ L.rxBypass ≠ 0xF) ∧
    ((withLamp fun L => { upLamp L with state := .lowPower }).lamp 17).state = .lowPower ∧
    (let s := (withLamp upLamp).modFabric fun F => { F with moduleId := 5, fmgrOn := true, fmgr := 9, routes := [(4096 * 18 + 7, 2 ^ 15 + 17 * 2 ^ 9)], floor := (withLamp upLamp).ownVersion }
     s.fabric.moduleId ≠ 0xFFF ∧ s.fabric.heard.foldl (fun v e => min v e.2.1) s.ownVersion = s.fabric.floor ∧ s.fabricRoute 18 7 = some 17 ∧ s.fabricRoute 17 7 = none ∧ s.fabric.fmgr = 9) ∧
    (∀ m, m < 18 → ((withLamp id).lamp m).carries = false) ∧ (withLamp id).fabric.rtTable < 19 ∧ ((withLamp fun L => { L with state := .disabled, enable := false }).lamp 17).state = .disabled ∧
    ((withLamp fun L => { L with state := .outOfService }).lamp 17).state = .outOfService ∧ ({ s0 with pins := { s0.pins with cabPwr := [17] } } : State).pins.cabPwr.contains 17 = true ∧ s0.pins.cabPwr.contains 17 = false := by decide +kernel
/-- Module 5 with port 17 up, a route to module 7 by it, and endpoint 3. -/
def sFab (E : Endpoint) (G : GEntry) : State := (withLamp upLamp).modFabric fun F =>
  { F with moduleId := 5, routes := [(4096 * 18 + 7, 2 ^ 15 + 17 * 2 ^ 9), (4096 * 17 + 7, 2 ^ 15 + 17 * 2 ^ 9)], eps := [(3, E)], groups := [(2, G)] }
def aDesc (op : Nat) : FDesc := { op := op, target := 2, dstMod := 7, bytes := 32 }
def fpkt (typ dst hops : Nat) : FPacket := { typ := typ, srcMod := 7, dstMod := dst, dstEp := 3, hops := hops, data := [1], words := 1 }
theorem witness_EndpointsGroupsAndHurdles :
    (let s := sFab {} {}
     s.fabric.moduleId ≠ 0xFFF ∧ (s.lamp 17).carries = true ∧ s.fabricRoute 17 7 = some 17 ∧ s.fabricRoute 18 7 = some 17 ∧ s.fabricRoute 17 8 = none ∧ (fpkt 0 7 14).hops < 15 ∧ (fpkt 1 7 15).hops = 15 ∧ (fpkt 0 5 0).dstMod = 5 ∧ (s.endpoint 3).open_ = false) ∧
    (let s := sFab { open_ := true, ctx := 3, acceptW := true, acceptR := true, winBytes := 32 } {}
     let D := s.endpoint 3
     D.open_ = true ∧ D.closing = false ∧ D.acceptMod = 0xFFF ∧ D.acceptW = true ∧ D.acceptR = true ∧ (fpkt 0 5 0).offset + 32 ≤ D.winBytes ∧ D.winBytes < 1 + 32 ∧ (s.ctxPlace 3 0 true).toOption = none) ∧
    (let d := { aDesc 1 with sent := 32, wait := [(0, 0, 32, false)] }
     let s := sFab { open_ := true, descs := [d] } {}
     (s.endpoint 3).descs = [d] ∧ d.wait = [(0, 0, 32, false)] ∧ d.bytes ≤ d.sent ∧ d.status = 0) ∧
    (let d := { aDesc 2 with sent := 32, wait := [(0, 0, 32, true)] }
     d.op = 2 ∧ d.wait = [(0, 0, 32, true)]) := by decide +kernel
theorem witness_EndpointsGroupsAndHurdles_groups :
    epReserved (3 + 5 * 2 ^ 8 + 2 ^ 24) = false ∧ fld (3 + 5 * 2 ^ 8) 0 8 = 3 ∧ (s0.ctx 3).live = true ∧ (s0.ctx 4).live = false ∧ fld (2 ^ 54) 54 74 ≠ 0 ∧
    (let s := sFab { open_ := true, head := 1, tail := 0, log2 := 12 } {}
     (s.endpoint 3).head ≠ (s.endpoint 3).tail ∧ ((s.endpoint 3).descs = [] ∧ (s.endpoint 3).full = false) ∧ s.fabricTxns.length < 65535 ∧ Tab.wf s.fabric.eps = true) ∧
    (let s := sFab {} { valid := true, up := 17, beneath := 2, localEp := 3 }
     s.groupsUsable = true ∧ (s.gentry 2).valid = true ∧ (s.gentry 2).up < 18 ∧ (s.lamp 17).ver ≥ 0x300 ∧ s.groupRoom (fpkt 4 5 0) = true ∧ (s.gentry 2).down = 0 ∧ (s.gentry 2).localEp ≠ 0x3FF ∧
     (s.endpoint 3).open_ = false ∧ (tget s.fabric.ghurdles 2).count = 0 ∧ 1 < (s.gentry 2).beneath) ∧
    (let s := (sFab {} { valid := true, up := 16, beneath := 2 }).modFabric fun F => { F with ghurdles := [(2, { count := 1, op := 6 })] }
     (tget s.fabric.ghurdles 2).count ≠ 0 ∧ (tget s.fabric.ghurdles 2).broken = false ∧ (s.gentry 2).up ≠ 17 ∧ (s.lamp (s.gentry 2).up).carries = false) ∧
    (let s := (sFab {} {}).modLamp 17 fun L => { L with gbuf := [fpkt 4 0xFFF 0] }
     fpkt 4 0xFFF 0 ∈ (s.lamp 17).gbuf) ∧ fpkt 4 0xFFF 0 ∉ ((sFab {} {}).lamp 17).gbuf := by decide +kernel
/-- Where page 0 of context 3 is mapped for writing, an engine finds its place in the frame at 0x4000. -/
theorem witness_translation :
    ((sTables 0x4007).ctxPlace 3 32 true).toOption = some (0, 0x4020) ∧ ((sTables 0x4003).ctxPlace 3 0 true).toOption = none ∧ ((sTables 0x4003).ctxPlace 3 0 false).toOption = some (0, 0x4000) ∧
    ((sTables 0x4007).ctxRead 3 [] (pagePieces 0 16)).toOption = some (List.replicate 16 0) ∧ ((sTables 0x4007).ctxWrite 3 0 (pagePieces 0 16) (List.replicate 16 1)).1 = true ∧
    ((sTables 0x4007).tableFor 3 0x5000 0).map (·.1) = some 0x3000 ∧ ((sTables 0x4007).epReads 3 [] 0 1).isSome = true := by decide +kernel

/-! #### Power, starts, the Fold, identity -/
def inS : State := inService s0
def withPower (f : Power → Power) : State := inS.modPower f
def withReg (f : Region → Region) : State := inS.modRegion 0 f
theorem witness_PowerReachesTheRegions :
    ¬(getSide inS.power.feeds true = false ∧ getSide inS.power.convs true = false) ∧ (let P := (withPower fun P => { P with feeds := (true, false), convs := (true, false) }).power; getSide P.feeds true = false ∧ getSide P.convs true = false ∧ getSide P.fsense true = true ∧ P.lost = false) ∧
    29 ∉ inS.power.brickLimit ∧ 29 ∉ inS.power.brickFailed ∧ 29 ∈ (withPower fun P => { P with brickFailed := [29] }).power.brickFailed ∧ 0 ∉ inS.org.dead ∧
    (inS.region 0).power = .on ∧ (inS.region 0).tripped = false ∧ (inS.region 0).live = true ∧
    (let s := withReg fun R => { R with power := .idle }
     (s.region 0).power = .idle ∧ (s.region 0).live = true) ∧ inS.mayOff 0 = false ∧
    (let s := State.reset.setRegion 0 { power := .idle, stopped := false }
     s.mayNap 0 = true) ∧
    (let s := (withReg fun R => { R with power := .off }).modPower fun P => { P with wakes := [0] }
     s.foldUp = true ∧ s.powerable 0 = true ∧ (s.region 0).waking = false ∧ (s.region 0).testFirst = false ∧ (s.waitersAt (brickOfRegion 0)).head? = some 0 ∧ s.wakesAt (brickOfRegion 0) .off = 0 ∧ 100 ≤ s.headroom (brickOfRegion 0)) ∧
    (let s := withReg fun R => { R with power := .nap, waking := true }
     (s.region 0).waking = true ∧ (∀ t ∈ regionTiles 0, (s.tile t).net.waiting = []) ∧ (s.region 0).pendingBank = none) ∧
    (let s := (withReg fun R => { R with power := .off, waking := true }).modStart fun x => { x with imageCopies := [(0, [])] }
     (s.region 0).waking = true ∧ s.start.phase = 0 ∧ s.start.imageCopies ≠ []) ∧
    (let R := (withReg fun R => { R with grant := 4000, burst := 0, untrusted := false }).region 0
     R.untrusted = false ∧ R.power = .on ∧ R.stopped = false ∧ R.tripped = false ∧ 0 < R.grant ∧ 4 * (R.corr * 5000 / 1000000) ≤ 5 * R.grant ∧ 5 * R.grant < 4 * (R.corr * 5001 / 1000000) ∧
     min (5000 * R.grant) (R.burst + R.corr * 5000 / 1000000 - R.grant) < 5000 * R.grant ∧ (R.pacingMs + 1) % 100 ≠ 0) ∧
    (let R := (withReg fun R => { R with untrusted := true, fmult := 17, pacingMs := 99 }).region 0; R.untrusted = true ∧ 16 < R.fmult ∧ (R.pacingMs + 1) % 100 = 0) := by decide +kernel
/-- The fused ceilings are free values (R565): where tile 0's are high enough its entries may fall by one. -/
theorem witness_PowerReachesTheRegions_ageing (h6 : 0 < Config.fusedCeiling 0 6 % 128) (h7 : 56 ≤ Config.fusedCeiling 0 7 % 128) :
    tileInRegion 0 0 = 0 ∧ 0 < inS.ceil 0 6 ∧ 56 ≤ inS.ceil 0 7 := ⟨by decide, h6, h7⟩
theorem witness_CapsHeatAndRegulatorFaults :
    inS.foldUp = true ∧ State.reset.foldUp = false ∧ inS.power.order = [0, 1, 2] ∧ (∀ x, x < 144 → (State.reset.region x).live = false) ∧ Tab.wf inS.regions = true ∧
    (let R := (withReg fun R => { R with badCount := 7 }).region 0; R.untrusted = false ∧ R.badCount = 7) ∧ (let R := (withReg fun R => { R with untrusted := true, refit := true, trustCount := 63, limit := 73, coolMs := 9 }).region 0
     R.untrusted = true ∧ R.refit = true ∧ R.trustCount = 63 ∧ R.limit < 74 ∧ R.coolMs = 9) ∧
    (inS.region 0).excluded = [] ∧ (inS.region 0).away = [] ∧ (inS.region 0).railOffLatched = false ∧ (inS.region 0).temp < 105 ∧
    (let R := (withReg fun R => { R with temps := [105, 0, 0, 0], fmult := 17 }).region 0; 105 ≤ R.temp ∧ R.hot = false ∧ R.live = true ∧ R.changing = none ∧ R.fmult ≠ 16) ∧
    (let R := (withReg fun R => { R with tripped := true, temps := [99, 0, 0, 0], trips := [1, 2] }).region 0; R.tripped = true ∧ R.valid ≠ [] ∧ R.temp < 100 ∧ R.shutHot = false ∧ 2 ≤ R.trips.length) ∧
    (let s := gone1 (cmd 0 0 0 0 0 0)
     let s := s.modRegion 0 fun R => { R with tripped := true, temps := [120, 0, 0, 0] }
     (s.region 0).tripped = true ∧ (s.region 0).shutHot = false ∧ 120 ≤ (s.region 0).temp ∧ s.padsIn 0 = []) ∧
    (let P := (withPower fun P => { P with inlets := (some 400, some 400), flows := (some 240, some 239) }).power; P.inlets.1.isSome = true ∧ P.inlets.2.isSome = true ∧ P.flows.1.isSome = true ∧ P.flows.2.isSome = true) ∧
    regNo (.compute 0) ∉ inS.power.masked ∧ regNo (.compute 0) ∈ (withPower fun P => { P with masked := [regNo (.compute 0)] }).power.masked ∧
    (let s := (inS.modRegion 0 fun R => { R with tripped := true }).modRegion 1 fun R => { R with tripped := true }
     2 ≤ ((upto 0 144).filter fun x => (s.region x).tripped).length) ∧ (withPower fun P => { P with lowest := true }).power.lowest = true ∧ inS.power.alerts = [] ∧ 0 ∉ inS.org.dead := by decide +kernel
def atPhase (n : Nat) : State := { s0 with start := { s0.start with phase := n } }
theorem witness_StartsAndLostTiles :
    (let s := withPower fun P => { P with convs := (false, false) }; s.power.lost = false ∧ s.power.convs = (false, false)) ∧ ({ s0 with power := { s0.power with lost := true } } : State).power.lost = true ∧
    (∀ n : Fin 11, (atPhase n).start.phase = n.val) ∧ (atPhase 3).foldAlive = true ∧ ((atPhase 4).fold.bankA.valid = false ∨ 0 ∈ [0, 1]) ∧ (atPhase 0).start.stopped = false ∧ (inS.lamp 0).enable = true ∧ (inS.lamp 0).state = .down ∧ inS.lampLicensed 0 = true ∧
    (∃ x ∈ (atPhase 8).startTiles, ((atPhase 8).tile x).spore.state ≠ 4) ∧
    (let s := State.reset.modStart fun x => { x with phase := 8 }
     (∀ x ∈ ([] : List Nat), (s.tile x).spore.state = 4)) ∧
    (let s := (atPhase 6).modStart fun x => { x with coolantWait := true }
     s.start.coolantWait = true ∧ s.coolantOk = true ∧ (s.modPower fun P => { P with foldCap := 3500, inlets := (some 900, some 900) }).coolantOk = false) ∧
    (let s := State.reset.modStart fun x => { x with phase := 7, waves := 3 }
     s.start.waves < 4 ∧ s.power.wakes = [] ∧ ∀ x, x < 144 → (s.region x).reserve = 0 ∧ (s.region x).waking = false) ∧
    (let p := (onTile (atPhase 8) fun T => { T with spore := { state := 2, received := [0], count := 1, rounds := 2 } } : State).tile 0 |>.spore
     p.round = false ∧ p.rounds < 3 ∧ p.state = 2 ∧ (∀ i, i < p.count → i ∈ p.received) ∧ 0 < p.count) ∧
    (neighbour 24 0 = some 0 ∧ (atPhase 8).fit 0 = true) ∧ (atPhase 9).underTest 0 = true ∧ inS.underTest 0 = false ∧ (∀ e ∈ inS.host.funcs, e.2.enableHeld = false) ∧
    (let s := { inS with org := { inS.org with lost := [(0, true)] } }
     s.foldUp = true ∧ s.lossTurn 0 = true ∧ s.lidOf 0 = some 0 ∧ s.org.toBind = [] ∧ (s.choose27 0 fun _ => true).isSome = true ∧ s.lossTurn 1 = false) ∧
    (let s := { (withPad (fun P => { P with frozen := true }) fun J => { J with state := .suspended }) with org := { inS.org with lost := [(0, true)], moving := some (0, 0, tileAtPos 0 50, 1) } }
     s.org.moving = some (0, 0, tileAtPos 0 50, 1) ∧ (s.paddock 1).resident = some 5 ∧ (s.paddock 1).frozen = true ∧ s.freeTile (tileAtPos 0 50) = true ∧ s.tileOf 0 = some 0 ∧ (s.job 5).state = .suspended) := by decide +kernel
theorem witness_FoldAnswersMessages :
    mailboxOf (.i3c none) = none ∧ inS.carried (.i3c none) = true ∧ inS.foldAlive = true ∧ inS.start.stopped = false ∧ controlVia (.i3c none) = false ∧ controlVia (.i3c (some 1)) = true ∧
    (let s := inS.modIdent fun I => { I with sessions := [{ id := 1, place := 260, up := true, mutual_ := true, key := 9 }] }
     s.carried (.i3c (some 1)) = true ∧ secureVia (.i3c (some 1)) = true ∧ endpointNo (.i3c (some 1)) = some 4) ∧ endpointNo (.pcie 3 none) = some 3 ∧
    (inS.mailbox 0).busy = false ∧ State.reset.isMaint 7 = false ∧ inS.maintActive = [] ∧ inS.maintQueue = [] ∧ (inS.modStart fun x => { x with stopped := true }).start.stopped = true ∧
    (let s := { inS with host := { inS.host with jobs := [(7, { live := true, kind := .maintenance, state := .running, activity := 2 })] } }
     s.isMaint 7 = true ∧ (s.job 7).runFrom = none ∧ (s.job 7).terminal = false ∧ (s.job 7).state = .running) ∧
    (∃ e ∈ inS.host.paddocks, e.2.live = true) ∧ (∀ e ∈ State.reset.host.paddocks, e.2.live = false) ∧
    (let s := inS.modFold fun F => { F with pair0 := { F.pair0 with st := .failed }, pair1 := { F.pair1 with st := .failed } }
     s.foldAlive = false ∧ s.fold.pair0.st ≠ .recovery ∧ s.fold.pair1.st ≠ .recovery) ∧ inS.fold.i3cAddr = none := by decide +kernel
theorem witness_FoldAnswersMessages_mailbox :
    (let s := inS.modMailbox 0 fun M => { M with busy := true, req := [(0, 1 + 6 * 2 ^ 16), (1, 9)], reqLen := 16 }
     (s.mailbox 0).busy = true ∧ (s.mailbox 0).intEn = false ∧ (s.mailbox 0).request = packed [(2, 1), (1, 6), (1, 0), (2, 9), (1, 0), (1, 0), (4, 0), (4, 0)]) := by decide +kernel
/-! #### Maintenance, updates, identity, records -/
def maintS (J : Job) : State := { inS with host := { inS.host with jobs := [(7, { J with live := true, kind := .maintenance, runFrom := none })] } }
def scrubJob (st : JobState) (k : Nat) : Job := { state := st, activity := 2, step := k, steps := 8 }
/-- A full deferral queue behind a scrub of stack 0. -/
def sQueue (n : Nat) : State := { inS with host := { inS.host with jobs :=
  (7, { live := true, kind := .maintenance, state := .running, activity := 2 }) :: (upto 100 n).map fun h => (h, { live := true, kind := .maintenance, state := .deferred, activity := 2, order := h }) } }
theorem witness_MaintenanceRunsInSteps_asks :
    (∀ e ∈ inS.host.funcs, e.2.resetting = false) ∧ inS.maintQueue = [] ∧ inS.fold.autoActivate = false ∧ State.reset.foldUp = false ∧ inS.foldUp = true ∧
    firstFail ((inS.modStack 0 fun K => { K with state := .inService }).maintChecks 1 2 0 1 1) = 0 ∧ firstFail ((inS.modStack 0 fun K => { K with state := .inService }).maintChecks 2 2 0 0 0) = 0 ∧
    firstFail (inS.maintChecks 3 3 0 0 0) = 0 ∧ firstFail ((inS.modStack 0 fun K => { K with state := .out }).maintChecks 2 2 0 0 0) = 0x14 ∧
    firstFail ({ inS with org := { inS.org with clearing := [] } }.maintChecks 4 1 3 0 0) = 0 ∧ firstFail (inS.maintChecks 5 1 0 0 0) = 0 ∧ firstFail (inS.maintChecks 6 0 0 0 4096) = 0 ∧
    firstFail (inS.maintChecks 7 5 0 1 0) = 0 ∧ firstFail (inS.maintChecks 8 0 0 0 96) = 0 ∧ firstFail (inS.maintChecks 9 0 0 0 0) = 0 ∧
    inS.maintWaits (maintJob 2 2 0 0 0) = false ∧ (sQueue 0).maintWaits (maintJob 2 2 0 0 0) = true ∧ (sQueue 0).maintFull = false ∧ (sQueue 32).maintWaits (maintJob 2 2 0 0 0) = true ∧ (sQueue 32).maintFull = true ∧
    (let c := cmd 0x38 (2 + 2 * 2 ^ 8) 0 0 0 0
     startsB (sCmd c) 0 0x38 c = true ∧ sqStray c [msk 0 32, maskAll, maskAll] = false ∧ wf c.w1 0 8 = 2 ∧ wf c.w1 8 8 = maintKind 2 0 ∧ wf c.w1 16 16 = 0 ∧ ((sCmd c).queue 0 0).inDevice = false) ∧
    (let s := inS.modIdent fun I => { I with sessions := [{ id := 1, place := 260, up := true, mutual_ := true, key := 9 }] }
     mailboxOf (.i3c (some 1)) = none ∧ s.carried (.i3c (some 1)) = true ∧ s.foldAlive = true ∧ s.start.stopped = false ∧ controlVia (.i3c (some 1)) = true ∧ controlVia (.i3c none) = false) := by decide +kernel
/-- A VARIANT licence's bytes, for a module's serial number. -/
def licencePre : List Byte := toBytes 0x4C434E59 4 ++ [1, 1, 0, 0]
def licencePost : List Byte := toBytes 4 4 ++ [3, 0, 0, 0] ++ List.replicate 168 0
def licenceOf (n : Nat) : List Byte := licencePre ++ (toBytes n 8 ++ licencePost)
theorem witness_MaintenanceRunsInSteps_licence : licenceFields (licenceOf Config.serial.toNat) = some (1, 4, 3, 0, 0, Config.serial.toNat) ∧ licenceFields [] = none := by
  have h : payField (licenceOf Config.serial.toNat) 8 8 = Config.serial.toNat :=
    (ofBytes_toBytes 8 Config.serial.toNat).trans (Nat.mod_eq_of_lt Config.serial.isLt)
  have f : ∀ p ∈ ([(0, 4, 0x4C434E59), (4, 1, 1), (5, 1, 1), (6, 2, 0), (0x10, 4, 4), (0x14, 1, 3), (0x15, 1, 0), (0x16, 2, 0), (0x18, 48, 0), (0x48, 24, 0)] : List (Nat × Nat × Nat)),
      payField (licenceOf Config.serial.toNat) p.1 p.2.1 = p.2.2 := by decide +kernel
  have l : (licenceOf Config.serial.toNat).length = 192 := by decide +kernel
  simp only [List.forall_mem_cons] at f
  obtain ⟨f0, f4, f5, f6, f10, f14, f15, f16, f18, f48, -⟩ := f
  refine ⟨?_, by decide +kernel⟩
  simp only [licenceFields, h, l, f0, f4, f5, f6, f10, f14, f15, f16, f18, f48]
  rfl
theorem witness_MaintenanceRunsInSteps_steps :
    (let s := maintS (scrubJob .running 0)
     (s.job 7).live = true ∧ (s.job 7).kind = .maintenance ∧ s.foldUp = true ∧ s.maintQueue = [] ∧ (s.job 7).owed = [] ∧ (s.job 7).area.frames = [] ∧ (s.job 7).resumeNext = false ∧ (s.stack 0).state ≠ .out ∧
     (s.stack 0).upset = [] ∧ (s.job 7).step + 1 < (s.job 7).steps ∧ (s.job 7).state = .running ∧ (s.job 6).live = false) ∧
    ((maintS (scrubJob .suspending 0)).job 7).state = .suspending ∧ ((maintS (scrubJob .cancelling 0)).job 7).state = .cancelling ∧
    (let J := (maintS (scrubJob .running 7)).job 7; J.steps ≤ J.step + 1 ∧ J.state = .running) ∧ (((maintS (scrubJob .running 0)).modStack 0 fun K => { K with state := .out }).stack 0).state = .out ∧
    (let s := (maintS { state := .running, activity := 1 }).modStack 0 fun K => { K with testing := some 5 }
     (s.job 7).activity = 1 ∧ (s.stack 0).state ≠ .out ∧ (s.stack 0).testing ≠ none) ∧
    (let s := (maintS { state := .running, activity := 3, steps := 1, target := 17 }).modLamp 17 upLamp
     (s.lamp 17).carries = true ∧ (s.job 7).steps ≤ (s.job 7).step + 1 ∧ (s.job 7).target = 17) ∧
    (let s := (maintS { state := .running, activity := 3, steps := 1, target := 17 }).modLamp 17 fun L => { L with state := .training }
     (s.lamp 17).state = .training ∧ (s.lamp 17).waitRetry = false) ∧
    (let s := { (maintS { state := .running, activity := 5 }) with host := { s0.host with jobs := (7, { live := true, kind := .maintenance, state := .running, activity := 5 }) :: s0.host.jobs } }
     (s.job 7).activity = 5 ∧ 0 ∉ s.org.dead ∧ (s.region 0).power ≠ .off ∧ 1 ∈ s.padsIn 0 ∧ (s.paddock 1).resident = some 5 ∧ (s.job 5).state = .running ∧ (s.job 7).state = .running) ∧
    (let s := maintS { state := .running, activity := 6, steps := 1 }
     s.fold.upd.state = .idle ∧ (s.job 7).steps ≤ (s.job 7).step + 1 ∧ s.checkSet { signed := true, matches_ := true, mirrors := true } = true ∧ s.checkSet { signed := false } = false) ∧
    (let s := (maintS { state := .running, activity := 7, w2 := 1, step := 4, steps := 9 }).modFold fun F => { F with pair1 := { F.pair1 with st := .held } }
     (s.job 7).w2 % 16 = 1 ∧ (s.job 7).step = 4 ∧ (s.job 7).steps = 9 ∧ s.fold.pair0.st = .active ∧ s.fold.pair1.st = .held) ∧
    (let s := maintS { state := .running, activity := 8, steps := 1 }
     (s.job 7).activity = 8 ∧ (s.job 7).steps ≤ (s.job 7).step + 1 ∧ variantCode s.org.variant < 3) ∧
    (let s := (maintS { state := .running, activity := 9, steps := 8 }).modFold fun F => { F with blocks := [{ closed := true }] }
     (∀ b ∈ s.fold.blocks, b.closed = true) ∧ s.fold.buffer = [] ∧ (s.job 7).step + 1 < (s.job 7).steps) ∧
    inS.fold.retry = [] ∧ inS.start.recharWanted = [] ∧ (inS.modFold fun F => { F with autoRotate := false }).fold.autoRotate = false ∧ inS.fold.freeBlocks ≥ 512 ∧
    (let s := (sQueue 32).modFold fun F => { F with retry := [{ activity := 2, tkind := 2 }] }
     s.fold.retry = [{ activity := 2, tkind := 2 }] ∧ firstFail (s.maintChecks 2 2 0 0 0) = 0 ∧ s.maintWaits (maintJob 2 2 0 0 0) = true ∧ s.maintFull = true ∧ s.start.recharWanted = []) := by decide +kernel
def withUpd (U : Update) : State := (inS.modIdent fun I => { I with sessions := [{ id := 1, place := 260, up := true, mutual_ := true, key := 9 }] }).modFold fun F => { F with upd := U }
def pairs (a b : FoldPair) : State := inS.modFold fun F => { F with pair0 := a, pair1 := b }
theorem witness_PairsLogAndFirmwareUpdates :
    (let s := pairs { st := .active, misses := [0] } { st := .standby }
     (s.fold.pair false).st = .active ∧ (s.fold.pair (!false)).st = .standby ∧ (∃ t ∈ (s.fold.pair false).misses, s.time < t + 86400000000000)) ∧
    (let s := pairs { st := .active } { st := .failed }
     (s.fold.pair (!false)).st ≠ .standby ∧ ¬(∃ t ∈ (s.fold.pair false).misses, s.time < t + 86400000000000) ∧ (s.fold.pair true).st ≠ .active ∧ (s.fold.pair true).st ≠ .standby ∧ (s.fold.pair true).st ≠ .recovery) ∧
    ((pairs { st := .active } { st := .standby }).fold.pair true).st = .standby ∧
    (let s := pairs { st := .active } { st := .stopped, restart := true }; (s.fold.pair true).st = .stopped ∧ (s.fold.pair true).restart = true ∧ s.foldAlive = true) ∧
    (let s := pairs { st := .failed } { st := .stopped, restart := true }; (s.fold.pair true).st = .stopped ∧ (s.fold.pair true).restart = true ∧ s.foldAlive = false) ∧
    (let s := inS.modFold fun F => { F with autoRotate := false, blocks := [{ entries := [{}] }] }
     s.foldAlive = true ∧ s.fold.buffer = [] ∧ s.fold.autoRotate = false ∧ s.fold.blocks.getLast? = some { entries := [{}] } ∧ [({} : LogEntry)] ≠ []) ∧
    lampNode 0 < 672 ∧ inS.foldAlive = true := by decide +kernel
theorem witness_PairsLogAndFirmwareUpdates_session :
    endpointNo (.i3c none) ≠ none ∧ inS.carried (.i3c none) = true ∧ inS.start.stopped = false ∧ secureVia (.i3c none) = false ∧
    (let s := withUpd {}
     endpointNo (.i3c (some 1)) = some 4 ∧ s.carried (.i3c (some 1)) = true ∧ s.foldAlive = true ∧ s.start.stopped = false ∧ secureVia (.i3c (some 1)) = true ∧ s.fold.upd.state = .idle ∧
     firstFail (s.maintChecks 6 0 0 0 4096) = 0 ∧ s.maintWaits (maintJob 6 0 0 0 4096) = false) ∧
    (let s := { inS with host := { inS.host with jobs := [(7, { live := true, kind := .maintenance, state := .running, activity := 6 })] } }
     s.maintWaits (maintJob 6 0 0 0 4096) = true ∧ firstFail (s.maintChecks 6 0 0 0 4096) = 0) ∧
    (let U := (withUpd { state := .learn, by_ := 4 }).fold.upd; U.by_ = 4 ∧ U.state = .learn) ∧
    (let s := withUpd { state := .ready, by_ := 4, passed := [5], job := 7 }; s.fold.upd.state = .ready ∧ 5 ∈ s.fold.upd.passed ∧ 0 ∉ s.fold.upd.passed ∧ s.isMaint s.fold.upd.job = false) ∧
    (∀ x ∈ [UpdState.download, .verify, .apply, .activate], (withUpd { state := x, by_ := 4 }).fold.upd.state = x) ∧
    (let s := withUpd { state := .download, got := 0, size := 4096 }
     s.foldUp = true ∧ (s.job s.fold.upd.job).state ≠ .cancelling ∧ s.fold.upd.got + 4096 ≤ s.fold.upd.size ∧ s.fold.upd.size < s.fold.upd.got + 4097) ∧ (let U := (withUpd { state := .download, got := 5, size := 5 }).fold.upd; U.got = U.size) ∧
    (let U := (withUpd { state := .apply, comp := 1, passed := [1, 2] }).fold.upd; (setIns U.applied U.comp).length < U.passed.length) ∧
    (let s := withUpd { state := .apply, comp := 1, passed := [1] }
     s.fold.upd.passed.length ≤ (setIns s.fold.upd.applied s.fold.upd.comp).length ∧ s.checkSet { signed := true, matches_ := true, mirrors := true } = true ∧ s.maintQueue = []) := by decide +kernel
def withIdent (f : Ident → Ident) : State := (inS.setPort 0 { inS.port 0 with up := true }).modIdent f
def withResp (R : Responder) : State := withIdent fun I => { I with responders := [(260, R), (placeNo (.doe 0), R)] }
theorem witness_SpdmIdeAndDebugAnswer_spdm :
    State.reset.spdmHere (.doe 0) = false ∧ (∀ a ∈ [SpdmAt.doe 0, .pcie 0, .i3c], (withIdent id).spdmHere a = true) ∧
    (let s := withResp { asked := true }; (s.responder (.doe 0)).asked = true ∧ (s.responder (.doe 0)).caps = false ∧ (s.responder (.i3c)).asked = true) ∧ ((withIdent id).responder (.doe 0)).asked = false ∧
    (let s := withResp { asked := true, caps := true, chunkId := 3, chunkNext := 2, chunkOut := [1] }
     let R := s.responder (.doe 0)
     R.caps = true ∧ R.chunkOut ≠ [] ∧ R.chunkId = 3 ∧ R.chunkNext = 2) ∧
    (∀ k : Fin 3, let s := withResp { asked := true, caps := true, algs := true, encap := k.val, encapSession := 1 }
     let R := s.responder (.doe 0)
     R.asked = true ∧ R.caps = true ∧ R.algs = true ∧ R.encap = k.val ∧ R.chunkOut = [] ∧ s.ident.attest = true) ∧
    (let s := withIdent fun I => { I with attest := false }
     s.ident.attest = false ∧ (∀ n : Fin 9, ∃ b, s.measure (n.val + 1) = some b)) ∧ (withIdent id).ident.sessions = [] ∧
    (let I := (withIdent fun I => { I with sessions := [{ id := 1 }, { id := 2 }] }).ident; 2 ≤ (I.sessions.filter fun x => x.place == placeNo (.doe 0)).length) ∧
    (let I := (withIdent fun I => { I with sessions := [{ id := 1, place := 256 }, { place := 257 }, { place := 258 }, { place := 260 }] }).ident
     4 ≤ (I.sessions.filter fun x => decide (256 ≤ x.place) && decide (x.place < 261)).length) ∧
    (let s := withIdent fun I => { I with sessions := [{ id := 1, up := true }] }
     s.session (placeNo (.doe 0)) 1 = some { id := 1, up := true } ∧ s.session (placeNo (.doe 0)) 2 = none ∧ placeNo (.doe 0) < 261) := by
  refine ⟨?_, ?_, ?_, ?_, ?_, ?_, ⟨rfl, fun n => ?_⟩, ?_⟩
  case refine_7 => match n with | 0 => exact ⟨_, rfl⟩ | 1 => exact ⟨_, rfl⟩ | 2 => exact ⟨_, rfl⟩ | 3 => exact ⟨_, rfl⟩ | 4 => exact ⟨_, rfl⟩ | 5 => exact ⟨_, rfl⟩ | 6 => exact ⟨_, rfl⟩ | 7 => exact ⟨_, rfl⟩ | 8 => exact ⟨_, rfl⟩
  all_goals decide +kernel
/-- A debugger's session with the host of function 0, where a frozen paddock's tile may be read. -/
def sDebug (P : Paddock → Paddock) (J : Job → Job) : State :=
  (((inService (withPad P J)).setPort 0 { s0.port 0 with up := true }).modIdent fun I =>
    { I with sessions := [{ id := 1, up := true, mutual_ := true, key := 9 }], debugLic := some (9, 100), consents := [{ ctx := 3, key := 9, scope := 1, until_ := 60 }] })
theorem witness_SpdmIdeAndDebugAnswer_debug :
    (let s := sDebug (fun P => { P with frozen := true }) fun J => { J with state := .suspended }
     s.spdmHere (.doe 0) = true ∧ s.session 0 1 = some { id := 1, up := true, mutual_ := true, key := 9 } ∧ s.ident.debugLic = some (9, 100) ∧ s.ctxMine 0 3 = true ∧ s.ctxMine 1 3 = false ∧
     (s.paddock 1).live = true ∧ (s.paddock 2).live = false ∧ (s.paddock 1).ctx = 3 ∧ bit 1 0 = true ∧ (s.paddock 1).releasing = false ∧ 0 ∈ s.members 1 ∧ 500 ∉ s.members 1 ∧ (s.paddock 1).resident = some 5 ∧
     (s.job 5).state ≠ .cancelling ∧ (s.paddock 1).frozen = true ∧ (s.tileOf 0).isSome = true) ∧
    ((sDebug id id).paddock 1).frozen = false ∧ ((sDebug (fun P => { P with releasing := true }) id).paddock 1).releasing = true ∧ (withIdent id).ident.debugLic = none ∧ (withIdent id).ident.consents = [] := by decide +kernel
def withIde (x : Ide) : State := (withIdent fun I => { I with sessions := [{ id := 1, up := true }, { id := 1, place := 4, up := true }], ide := [(0, x), (4, x)] }).modFunc 4 fun F => { F with vfOn := true }
theorem witness_SpdmIdeAndDebugAnswer_ide :
    (let s := withIde {}
     s.spdmHere (.doe 0) = true ∧ s.session 0 1 = some { id := 1, up := true } ∧ (s.ide 0 4).running = [] ∧ (s.ide 0 4).keys = [] ∧ (s.ide 0 4).secure = false ∧ s.spdmHere (.doe 4) = true ∧ s.session 4 1 = some { id := 1, place := 4, up := true }) ∧
    (let s := withIde { keys := [0, 1], running := [0, 1], secure := true }
     0 ∈ (s.ide 0 4).running ∧ 1 ∈ (s.ide 0 4).keys ∧ (s.ide 0 0).secure = true ∧ (s.ide 0 4).secure = true ∧ (∀ e ∈ s.host.funcs, e.2.resetting = false) ∧ (s.port 0).up = true) := by decide +kernel
/-- Records at the Fold. -/
def sRec (l : List EventRec) (f : Fold → Fold) : State := { (inS.modFold fun F => { F with autoRotate := false }).modFold f with events := l }
theorem witness_RecordsReachLogAndRings :
    (let s := sRec [{ code := 0x9001, fn := 0 }, { code := 0x5003, fn := 0 }, { code := 0x1203, node := 5, fn := 7 }] id
     s.events.length ≤ 3 ∧ s.events[1]? = some { code := 0x5003, fn := 0 } ∧ (∃ b ∈ s.events.take 1, b.node = 1023 ∧ b.region = 0xFF ∧ b.unit = 0xFFFF ∧ b.ctx = none) ∧ s.foldAlive = true ∧ s.fold.autoRotate = false ∧
     s.events[2]? = some { code := 0x1203, node := 5, fn := 7 } ∧ (∀ b ∈ s.events.take 2, b.node ≠ 5) ∧ eventClass 0x9001 = 0) ∧
    (let s := (pairs { st := .failed } { st := .failed }); s.foldAlive = false) ∧
    (let s := sRec [{ code := 0x5003, fn := 0 }] fun F => { F with blocks := [{ no := 1, entries := List.replicate 253 {} }] }
     s.fold.buffer = [] ∧ s.fold.blocks = [] ++ [{ no := 1, entries := List.replicate 253 {} }] ∧ (List.replicate 253 ({} : LogEntry)).length < 254) ∧
    (let s := { (sRec [{ code := 0x5003, fn := 0 }] id).modFunc 0 fun F => { F with ready := true } with errs := [(0, { tail := 511, intEn := true, minClass := 1 })] }
     (s.func 0).ready = true ∧ (s.func 1).ready = false ∧ ((tget s.errs 0).tail + 1) % 512 = (tget s.errs 0).head ∧ (tget s.errs 0).minClass ≤ eventClass 0x5003 ∧ s.fold.buffer.length < 65536) ∧
    (let s := { sRec [] id with errs := [(0, { tail := 510, intEn := true, minClass := 1 })] }
     ((tget s.errs 0).tail + 1) % 512 ≠ (tget s.errs 0).head ∧ (tget s.errs 0).intEn = true) ∧
    (let s := (onTile inS fun T => { T with arr := { T.arr with pendingBypass := [1] } })
     s.foldUp = true ∧ (s.tile (0 : Nat)).arr.pendingBypass ≠ [] ∧ (s.paddock (s.tag 0)).resident = some 5 ∧ (s.job 5).state = .running ∧ (s.job 5).descheduled = false) ∧
    (inS.power.lost = false ∧ (atPhase 1).start.phase = 1 ∧ ¬(inS.start.phase = 1 ∨ inS.start.phase = 2 ∨ inS.start.stopped = true)) := by decide +kernel
theorem witness_RecordsReachLogAndRings_full : (sRec [] fun F => { F with buffer := List.replicate 65536 {} }).fold.buffer.length ≥ 65536 :=
  Nat.le_of_eq (List.length_replicate (n := 65536) (a := ({} : LogEntry))).symm
/-! #### Ill-formed commands: one of each check of the operands, which the check refuses -/
def illPackets : List Packet := [{ vc := 4 }, { words := 65 }, { tag := 2 ^ 16 }, { src := 1024 }, { dst := 1024 }, { status := 16 }, { context := 256 }, { srcLid := 2 ^ 16 }, { dstLid := 2 ^ 16 },
  { drove := 2 ^ 16 }, { txn := 2 ^ 12 }, { addr := 2 ^ 64 }, { poison := 2 ^ 64 }, { data := List.replicate 65 0 }, { left := 64 }]
def illFabric : List FPacket := [{ typ := 16 }, { vl := 2 }, { status := 8 }, { words := 65 }, { srcMod := 2 ^ 12 }, { dstMod := 2 ^ 12 }, { hops := 16 }, { srcEp := 1024 }, { dstEp := 1024 }, { txn := 2 ^ 16 },
  { offset := 2 ^ 48 }, { poison := 2 ^ 64 }, { data := List.replicate 65 0 }]
def illFlits : List FlitHead := [{ typ := 16 }, { vl := 4 }, { seq := 4096 }, { ack := 4096 }, { cvl := 4 }, { credits := 1024 }]
def illHurdle : List HMsg := [{ paddock := 2 ^ 16 }, { channel := 64 }, { dst := 576 }, { src := 576 }, { tile := 576 }, { op := 16 }, { first := 576 }, { last := 576 }, { value := 2 ^ 64 }, { code := 256 }]
def illUpsets : List Upset := [.spdWord 262144 1, .spdWord 0 0, .privUnit 2 0 1, .privUnit 0 16384 1, .privUnit 0 0 0, .slotBit 4 0 0 0 0, .slotBit 0 2 0 0 0, .slotBit 0 0 64 0 0, .slotBit 0 0 0 64 0, .slotBit 0 0 0 0 24,
  .accEntry 4 0 0 true, .accEntry 0 512 0 true, .accEntry 0 0 64 true]
def illRequests : List PortReq := [{ requester := 7, write := false, words := [] }, { requester := 0, write := false, words := List.replicate 33 0 }, { requester := 0, write := false, words := [262144] }]
def illSamples : List PowerSample := [{ regions := [{ region := 0 }, { region := 0 }] }, { bricks := [(1, 0, 0), (1, 2, 3)] }, { edges := [(41, 0, 0), (41, 0, 0)] }]
theorem test_ill_formed_operands_refused :
    (∀ p ∈ illPackets, (Instr.write p).wf = false) ∧ (∀ p ∈ illFabric, (Instr.fabricWrite 0 p).wf = false) ∧ (∀ f ∈ illFlits, (Instr.codewordReceive 0 none [f] false false).wf = false) ∧
    (∀ m ∈ illHurdle, (Instr.hurdleArmMessage m).wf = false) ∧ (∀ x ∈ illUpsets, (Instr.arrayTick 0 [x]).wf = false) ∧ (∀ r ∈ illRequests, (Instr.spdPortArbitration 0 [r]).wf = false) ∧
    (∀ m ∈ illSamples, (Instr.capAllocation m).wf = false) ∧ (Instr.deviceRingPoll 0 0 [(2 ^ 64, 1)]).wf = false ∧ (Instr.table 0 (.fork 1 1 0 [540] [] 0 0)).wf = false ∧ (Instr.table 0 (.fork 1 1 0 [] [540] 0 0)).wf = false ∧
    (Instr.power 0 (.fmult 15)).wf = false := by decide +kernel
theorem test_ill_formed_commands_refused : ∀ i ∈ ([.registerWrite (.host 0) 0 0 0, .reg64LoRead (.host 0) 0 0, .memWrite {} [(0, 1), (0, 2)], .memRead {} [(0, 1), (0, 2)], .restoreComplete 0 false [(5, 1), (5, 1)],
  .hbmScrubStep 0 [(0, 1), (0, 1)] false, .migrationStep 0 [(0, 1), (0, 1)], .hbmTrainingDone 0 false none [1, 1], .hostLinkTrained 0 3 64, .hostLinkTrained 0 16 3, .trainingStepDone 0 true [2, 2] false 0 0 false,
  .linkState 0 0 [1], .ageingCheck 0 0 [1, 1], .sensorSelfCheck 0 (Vector.replicate 4 0) [3, 3], .tileImageCopyRebuild [4, 4], .startPhaseEnd [] [0, 0] 0, .linkBeatReceive 0 0 0 false (some { vc := 4 }),
  .fabricWriteAck 0 {} [(2 ^ 64, 0)], .overholdCutoff 0 0 0 { vc := 4 }] : List Instr), i.wf = false := by decide +kernel
theorem test_well_formed_commands_accepted :
    ∀ i ∈ [Instr.registerWrite (.host 0) 0 4 1, .reg64LoRead (.host 0) 0 8, .write (memReq .memWrite), .memWrite (memReq .memWrite) [(0, 1), (63, 2)], .fabricWrite 0 (fpkt 0 5 15), .codewordReceive 0 none [{ typ := 4, seq := 4095 }] false false,
      .hostLinkTrained 0 16 64, .linkState 0 0 [1, 2, 3, 4, 5], .power 0 (.fmult 16), .table 0 (.fork 1 1 0 [539] [] 0 0), .arrayTick 0 [.spdWord 262143 1], .highz], i.wf = true := by decide +kernel

/-! #### Small steps, with the results that the spec states -/
/-- What a step leaves of a state when one command waits; an outcome of another kind leaves the empty machine. -/
def after (i : Instr) (s : State) : State := match step { s with pending := [i] } with | .next t => t | _ => State.reset
def reg (s : State) (k : Nat) : Nat := (tget (s.core u0).g k).toNat
theorem test_step_takes_the_front : (after .bypass s0).pending = [] ∧ (match step s0 with | .next t => decide (t = s0) | _ => false) = true := by decide +kernel
-- R210: modulo 2^64, no trap, all ones on a division by zero, -2^63 by -1, 64 leading zeros of zero
theorem test_alu_add_wraps : reg (after (.alu u0 3 1 2 0 0x00) (s1 (2 ^ 64 - 1) 2)) 3 = 1 := by decide +kernel
theorem test_alu_divisions : reg (after (.alu u0 3 1 2 0 0x14) (s1 7 0)) 3 = 2 ^ 64 - 1 ∧ reg (after (.alu u0 3 1 2 0 0x16) (s1 7 0)) 3 = 7 ∧ reg (after (.alu u0 3 1 2 0 0x14) (s1 (2 ^ 63) (2 ^ 64 - 1))) 3 = 2 ^ 63 ∧
    reg (after (.alu u0 3 1 2 0 0x16) (s1 (2 ^ 63) (2 ^ 64 - 1))) 3 = 0 ∧ reg (after (.alu u0 3 1 2 0 0x16) (s1 (2 ^ 64 - 7) 3)) 3 = 2 ^ 64 - 1 ∧ reg (after (.alu u0 3 1 0 0 0x18) (s1 0 0)) 3 = 64 := by decide +kernel
-- R211: ADDI and SLTI sign-extend, ANDI, ORI and XORI zero-extend, SHI's kind is bits 7:6, LUI is a sign-extended immediate shifted by 16
theorem test_immediates : reg (after (.addi u0 3 1 0xFFFF) (s1 5 0)) 3 = 4 ∧ reg (after (.slti u0 3 1 0xFFFF) (s1 0 0)) 3 = 0 ∧ reg (after (.andi u0 3 1 0xFFFF) (s1 (2 ^ 64 - 1) 0)) 3 = 0xFFFF ∧
    reg (after (.ori u0 3 1 0x8000) (s1 1 0)) 3 = 0x8001 ∧ reg (after (.xori u0 3 1 0xFFFF) (s1 0 0)) 3 = 0xFFFF ∧ reg (after (.shi u0 3 1 0x84) (s1 (2 ^ 63) 0)) 3 = 0xF800000000000000 ∧
    reg (after (.shi u0 3 1 0x44) (s1 (2 ^ 63) 0)) 3 = 0x0800000000000000 ∧ reg (after (.lui u0 3 0 0x8000) s0) 3 = 0xFFFFFFFF80000000 := by decide +kernel
-- R212: the low bytes of rs, extended again by the width
theorem test_store_writes_low_bytes : (let t := after (.store u0 2 1 1 0x1FFF) (s1 (privBase + 0x801) 0x123456); t.byte (privKey 0 0 0x800) = 0x56 ∧ t.byte (privKey 0 0 0x801) = 0x34 ∧ t.byte (privKey 0 0 0x802) = 0) := by decide +kernel
theorem test_loads_extend : (let s := (s1 (privBase + 0x800) 0).store (privKey 0 0 0x800) [0x80, 0xFF]
    reg (after (.load u0 3 1 0 0) s) 3 = 0xFFFFFFFFFFFFFF80 ∧ reg (after (.load u0 3 1 4 0) s) 3 = 0x80 ∧ reg (after (.load u0 3 1 5 0) s) 3 = 0xFF80) := by decide +kernel
-- R213: memory becomes the sum, rd the old value; CAS writes rb only where the old value equals rd
theorem test_amo : (let s := (s1 (privBase + 0x800) 5).store (privKey 0 0 0x800) [7]
    reg (after (.amo u0 3 1 2 0 0x01) s) 3 = 7 ∧ (after (.amo u0 3 1 2 0 0x01) s).byte (privKey 0 0 0x800) = 12 ∧ (after (.amo u0 3 1 2 0 0x09) s).byte (privKey 0 0 0x800) = 7) := by decide +kernel
-- R214, R209: offsets count words in BR and JAL, bytes in LJAL
theorem test_branches : ((after (.br u0 1 2 2 0x1FFF) (s1 (2 ^ 64 - 1) 0)).core u0).pc.toNat = privBase + 0xFC ∧ ((after (.br u0 1 2 4 0x1FFF) (s1 (2 ^ 64 - 1) 0)).core u0).pc.toNat = privBase + 0x104 ∧
    (let t := after (.jal u0 3 2) s0; (t.core u0).pc.toNat = privBase + 0x108 ∧ reg t 3 = privBase + 0x104) ∧ (let t := after (.ljal u0 3 8) s0; (t.core u0).pc.toNat = privBase + 0x108 ∧ reg t 3 = privBase + 0x108) ∧
    (let t := after (.jalr u0 3 1 0xFFFF) (s1 (privBase + 0x40) 0); (t.core u0).pc.toNat = privBase + 0x3C) := by decide +kernel
-- R209
theorem test_long_immediates : reg (after (.li u0 3 (BitVec.ofNat 47 (2 ^ 46))) s0) 3 = 0xFFFFC00000000000 ∧ reg (after (.laddi u0 1 (BitVec.ofNat 47 (2 ^ 47 - 1))) (s1 3 0)) 1 = 2 := by decide +kernel
-- R215: EVAL is the immediate, the mode SUPERVISOR; ERET in JOB mode is illegal; QMOV's bit 15 must be zero
theorem test_ecall : (let c := (after (.ecall u0 0 0 0xABC) s0).core u0; c.eval = 0xABC ∧ c.epc.toNat = privBase + 0x100 ∧ c.supervisor = true ∧ c.pc.toNat = privBase) := by decide +kernel
-- R216: FP32 1 + 1 = 2 zero-fills the upper half; an FP32 input ignores the upper half of its register; R217: NaNs are canonical
theorem test_fpu : reg (after (.fpu u0 3 1 2 0 0x00) (s1 (2 ^ 63 + 0x3F800000) 0x3F800000)) 3 = 0x40000000 ∧ reg (after (.fpu u0 3 1 2 0 0x03) (s1 0 0)) 3 = 0x7FC00000 ∧
    (((after (.fpu u0 3 1 2 0 0x03) (s1 0x3F800000 0)).core u0).fcsr ≠ (s0.core u0).fcsr) ∧ reg (after (.fpu u0 3 1 2 0 0x80) (s1 0x3FF0000000000000 0x3FF0000000000000)) 3 = 0x4000000000000000 := by decide +kernel
-- R218: a vector addition wraps in each element
theorem test_vector_add : (let s := onCore s0 fun c => { c with v := [(1, BitVec.ofNat 512 0x05FF), (2, BitVec.ofNat 512 0x0101)] }
    tget ((after (.vint u0 3 1 2 0 0 0) s).core u0).v 3 = BitVec.ofNat 512 0x0600 ∧ tget ((after (.vint u0 3 1 2 0 1 0) s).core u0).v 3 = BitVec.ofNat 512 0x0700) := by decide +kernel
-- R163 and its example: offset 0x123456
theorem test_scratchpad_offset_example : bankOf (0x123456 / 32) = 15 ∧ bankWord 15 1165 = 0x123456 / 32 ∧ sheetOf (0x123456 / 32) = 36 := by decide +kernel
-- R20 and the example of logical tile 271
theorem test_logical_tile_example : tileAtPos 4 31 = 24 * 14 + 15 ∧ regionOf (tileAtPos 4 31) = 79 ∧ brickOfRegion 79 = 21 := by decide +kernel
-- R444 and the example of one address
theorem test_hbm_address_example : hbmAddr 0x1234567000 = some (3, 0xE9045000) ∧ hbmAddr 0x0230E9045000 = some (3, 0xE9045000) ∧ stackNodes 3 = [657, 658, 659] := by decide +kernel
-- R469: a read returns and clears
theorem test_hbm_ce_read : (let t := after (.hbmCeRead 0) (withStack fun K => { K with ce := 9, ue := 4 }); (t.stack 0).ce = 0 ∧ (t.stack 0).ue = 4 ∧ t.out = [.regRead (readerStack 0) 3 9]) := by decide +kernel
-- R582 and the example of a warm inlet: 42.6 and 42.4 degrees, 21.0 and 21.3 L/min
theorem test_fold_cap_example : (after (.foldCapUpdate (426, 424) (0, 0) (210, 213)) inS).power.foldCap = 10000 := by decide +kernel
-- R479: a tail out of range stops the queue
theorem test_sq_tail : ((after (.sqTailDoorbell 0 65535 15) (withQueue id)).queue 0 65535).sqTail = 15 ∧ ((after (.sqTailDoorbell 0 65535 16) (withQueue id)).queue 0 65535).stopped = true := by decide +kernel
-- R689: ERR_LOST is read and cleared
theorem test_err_lost_read : (let t := after (.errLostRead 7) { s0 with errs := [(7, { lost := 3, head := 5 })] }; (tget t.errs 7).lost = 0 ∧ (tget t.errs 7).head = 5) := by decide +kernel
-- R662: versions 1.2 and 1.3
theorem test_spdm_version : (after (.spdmGetVersion .i3c) inS).out = [.answer (16 + placeNo .i3c) 4 0 [0x12, 0x13]] ∧ (after (.spdmGetVersion .i3c) State.reset).out = [] := by decide +kernel
-- R720: the identity of the test port, by its instruction
theorem test_idcode : (after .idcode s0).out = [.answer 0x1149 4 0 [0x19A099CB]] := by decide +kernel
-- SHA-384 of "abc" begins CB00753F45A35E8B (FIPS 180-4's example)
theorem test_sha384 : (sha384 [0x61, 0x62, 0x63]).take 8 = [0xCB, 0x00, 0x75, 0x3F, 0x45, 0xA3, 0x5E, 0x8B] := by decide +kernel
-- The spec's table: no row gives bits, so no word spells a command
theorem test_words_spell_nothing : decodeTableWord 32 0 = none ∧ (State.reset.withFetchWord 32 0).pending = [] := by decide +kernel
-- R42-R49 and the worked example of a tile failing in mid-job: logical tile 149 at (19, 6), then at (19, 7) with its old tile unfit
def sF : State := { s0 with org := { s0.org with variant := .f } }
def sMoved : State := { s0 with org := { s0.org with variant := .f, unfit := [24 * 6 + 19], binds := [(149, .tile (24 * 7 + 19))] } }
theorem test_geometry_example_before : (sF.geoEntry 0 149).take 4 = [0x022D0613, 0x0000AAAA, 177 * 2 ^ 16 + 134, 0xFFFF0000 + 133] := by decide +kernel
theorem test_geometry_example_after : (sMoved.geoEntry 0 149).take 4 = [0x022D0713, 0x0000AA5A, 0xFFFF0000 + 166, 317 * 2 ^ 16 + 165] ∧ sMoved.geoReg 0 (0x106000 + 16 * 45 + 4) / 2 ^ 16 = 0xFFFD ∧
    sMoved.geoReg 0 (0x106000 + 16 * 45 + 8) / 2 ^ 16 = 0x95 := by decide +kernel
-- R152, R154 and the worked example of one expert layer: where a slice lands, and the combined element
theorem test_dispatch_example : ({ e := 128, k := 2, ordered := true, scoreFmt := 0, norm := 1, outFmt := 0, bundleMax := 16, rowBytes := 2048, bundleWait := 512, tableOff := 0, retBase := 0x600000, retBytes := 4096 } : LDesc).retRow 91 1 + 2048 = 0x6B8380 ∧ combineElem 0 [(0x3F3B26A8, 0x3FC0), (0x3E89B2B0, 0xC000)] = 0x3F0F := by decide +kernel

end Sys2Proof.Tests
end

section
/-! The integer instructions of the tidy cores (R208-R211): what issue comes to for an instruction that writes one general register or whose
word is illegal, the model's numbers as bit vectors, and the result of each ALU funct. -/
namespace Sys2Proof.Machine

/-! ### Instructions that write one general register -/

/-- Only the low 64 bits of a value written to a register count. -/
theorem Core.setG_congr (c : Core) (rd : Nat) (poison : Bool) {v w : Nat} (h : BitVec.ofNat 64 v = BitVec.ofNat 64 w) :
    c.setG rd v poison = c.setG rd w poison := by
  unfold Core.setG; rw [h]

/-- An instruction that may issue and whose body writes `rd` retires with that write alone; `f` is the write as a change of the core. -/
theorem issue_setReg {s : State} {u : CoreId} {i : Issue} {body : State → CoreRes} {f : Core → Core} {rd v : Nat} {poison : Bool}
    (h : s.atIssue u i.words i.level) (hb : i.bad = false) (hp : bit ((s.core u).pr i.pred) 0 = true)
    (hbody : body s = s.setReg u rd v poison) (hf : f (s.core u) = (s.core u).setG rd v poison) :
    s.issue u i body = .next (s.retire u i.words f) := by
  refine issue_core h hb hp ?_
  rw [hbody, State.setReg]
  congr 1
  refine modCore_congr s u ?_
  rw [hf]
  exact Core.setG_congr _ _ _ (BitVec.eq_of_toNat_eq (by simp))

/-- An immediate instruction that may issue writes its result to `rd` with the poison of `ra`. -/
theorem immOp_retires {s : State} {u : CoreId} {op rd ra imm : Nat} {bad : Bool} {g : Nat → Nat} {v : Core → Nat}
    (h : s.atIssue u 1 0x200) (hb : bad = false) (hv : BitVec.ofNat 64 (v (s.core u)) = BitVec.ofNat 64 (g ((s.core u).gr ra))) :
    s.immOp u op rd ra imm bad g = .next (s.retire u 1 fun c => c.setG rd (v c) (c.gBad ra)) :=
  issue_setReg (i := { word := encI op rd ra imm, bad := bad, gs := [rd, ra] }) h hb (bit_pr_zero _) rfl (Core.setG_congr _ _ _ hv)

/-- A long form that may issue writes its result to `rd`. -/
theorem longIssue_retires {s : State} {u : CoreId} {lop rd imm v : Nat} {gs : List Nat} {poison : Bool} {body : State → CoreRes} {f : Core → Core}
    (h : s.atIssue u 2 0x200) (hbody : body s = s.setReg u rd v poison) (hf : f (s.core u) = (s.core u).setG rd v poison) :
    s.issue u (longIssue lop rd imm false gs) body = .next (s.retire u 2 f) :=
  issue_setReg (i := longIssue lop rd imm false gs) h rfl (bit_pr_zero _) hbody hf

/-! ### Illegal words -/

/-- In JOB mode with a handler, an exception changes the core alone (R228). -/
theorem exception_eq_handled {s : State} {u : CoreId} (hsup : (s.core u).supervisor = false) (hevec : (s.core u).evec ≠ 0) (cause eval : Nat) :
    s.exception u cause eval = s.handled u cause eval := by
  have htaken : ((s.core u).supervisor || (s.core u).evec == 0) = false := by rw [hsup, beq_false_of_ne hevec]; rfl
  simp only [State.exception, htaken, Bool.false_eq_true, if_false, modCore_modCore]
  rfl

/-- An illegal word of an instruction that may issue raises ILLEGAL with the word, whatever its predicate (R208, R227). -/
theorem issue_illegal {s : State} {u : CoreId} {i : Issue} {body skip : State → CoreRes}
    (h : s.atIssue u i.words i.level) (hb : i.bad = true) (hsup : (s.core u).supervisor = false) (hevec : (s.core u).evec ≠ 0) :
    s.issue u i body skip = .next (s.handled u 1 i.word) := by
  have hf : s.fetch u (s.core u).pcOf i.words = (none, s) := fetch_clean h.clean
  rw [← exception_eq_handled hsup hevec]
  simp [State.issue, h.on, h.free, hf, hb]

/-- The word of format R is the sum of its fields in their places. -/
theorem encR_zero_eq (rd ra rb : Fin 32) (p : Fin 8) (funct : BitVec 8) :
    encR 0 rd ra rb p funct.toNat = rd.val * 2 ^ 21 + ra.val * 2 ^ 16 + rb.val * 2 ^ 11 + p.val * 2 ^ 8 + funct.toNat := by
  have := funct.isLt
  simp only [encR, atBit]; omega

/-- The word of format I is the sum of its fields in their places. -/
theorem encI_eq {op : Nat} (hop : op < 64) (rd ra : Fin 32) (imm : BitVec 16) :
    encI op rd ra imm.toNat = op * 2 ^ 26 + rd.val * 2 ^ 21 + ra.val * 2 ^ 16 + imm.toNat := by
  have := imm.isLt
  simp only [encI, atBit]; omega

/-! ### The model's numbers as bit vectors -/

theorem ofNat_toNat_self {w : Nat} (x : BitVec w) : BitVec.ofNat w x.toNat = x := by rw [BitVec.ofNat_toNat, BitVec.setWidth_eq]

theorem toNat_ne_zero {w : Nat} {x : BitVec w} (h : x ≠ 0) : x.toNat ≠ 0 := fun e => h (BitVec.eq_of_toNat_eq e)

theorem sext_eq_toInt (w n : Nat) : sext w n = (BitVec.ofNat w n).toInt := by
  have hcast : (n : Int) % 2 ^ w = ((n % 2 ^ w : Nat) : Int) := by rw [Int.natCast_emod, Int.natCast_pow]; rfl
  have hhalf : n % 2 ^ w < 2 ^ (w - 1) ↔ 2 * (n % 2 ^ w) < 2 ^ w := by
    rcases w with _ | w
    · simp [Nat.mod_one]
    · rw [Nat.add_sub_cancel, Nat.pow_succ]; omega
  simp only [sext, hcast, hhalf, BitVec.toInt_eq_toNat_cond, BitVec.toNat_ofNat, Int.natCast_pow]
  rfl

@[simp] theorem sext_toNat {w : Nat} (x : BitVec w) : sext w x.toNat = x.toInt := by
  rw [sext_eq_toInt, ofNat_toNat_self]

@[simp] theorem ofNat_wrap (i : Int) : BitVec.ofNat 64 (wrap 64 i) = BitVec.ofInt 64 i := by
  apply BitVec.eq_of_toNat_eq
  simp only [wrap, BitVec.toNat_ofNat, BitVec.toNat_ofInt]
  omega

theorem ofNat_b01 (b : Bool) : BitVec.ofNat 64 (b01 b) = if b then 1 else 0 := by cases b <;> rfl

theorem bit_toNat {w : Nat} (x : BitVec w) (i : Nat) : bit x.toNat i = x.getLsbD i := by
  rw [BitVec.getLsbD, Nat.testBit_eq_decide_div_mod_eq]; rfl

/-! ### Immediate operands -/

theorem ofNat_wrap_add_sext {w : Nat} (a : Nat) (x : BitVec w) :
    BitVec.ofNat 64 (wrap 64 (a + sext w x.toNat)) = BitVec.ofNat 64 a + x.signExtend 64 := by
  rw [ofNat_wrap, sext_toNat, BitVec.ofInt_add, BitVec.ofInt_natCast]; rfl

theorem ofNat_wrap_sext {w : Nat} (x : BitVec w) : BitVec.ofNat 64 (wrap 64 (sext w x.toNat)) = x.signExtend 64 := by
  rw [ofNat_wrap, sext_toNat]; rfl

theorem ofNat_wrap_sext_shift (x : BitVec 16) : BitVec.ofNat 64 (wrap 64 (sext 16 x.toNat * 2 ^ 16)) = x.signExtend 64 <<< 16 := by
  rw [ofNat_wrap, sext_toNat, BitVec.ofInt_mul, BitVec.shiftLeft_eq_mul_twoPow]; rfl

theorem sext_lt_sext_iff_slt (a : Nat) (x : BitVec 16) :
    sext 64 a < sext 16 x.toNat ↔ (BitVec.ofNat 64 a).slt (x.signExtend 64) = true := by
  rw [sext_eq_toInt, sext_toNat, BitVec.slt_iff_toInt_lt, BitVec.toInt_signExtend_of_le (by omega)]

/-! ### Integer instructions that may issue (R209-R211) -/

section
variable {s : State} {u : CoreId} {rd ra rb : Fin 32} {p : Fin 8} {funct : BitVec 8} {imm : BitVec 16}

/-! The meaning that `exec` gives each instruction. -/

theorem exec_alu : exec (.alu u rd ra rb p funct) s = execAlu u rd ra rb p funct s := rfl
theorem exec_addi : exec (.addi u rd ra imm) s = execAddi u rd ra imm s := rfl
theorem exec_andi : exec (.andi u rd ra imm) s = execAndi u rd ra imm s := rfl
theorem exec_ori : exec (.ori u rd ra imm) s = execOri u rd ra imm s := rfl
theorem exec_xori : exec (.xori u rd ra imm) s = execXori u rd ra imm s := rfl
theorem exec_shi : exec (.shi u rd ra imm) s = execShi u rd ra imm s := rfl
theorem exec_lui : exec (.lui u rd ra imm) s = execLui u rd ra imm s := rfl
theorem exec_slti : exec (.slti u rd ra imm) s = execSlti u rd ra imm s := rfl
theorem exec_li {imm : BitVec 47} : exec (.li u rd imm) s = execLi u rd imm s := rfl
theorem exec_laddi {imm : BitVec 47} : exec (.laddi u rd imm) s = execLaddi u rd imm s := rfl

theorem alu_retires (h : s.atIssue u 1 0x200) (hknown : aluKnown funct.toNat = true) (hone : 0x18 ≤ funct.toNat → rb = 0)
    (hp : bit ((s.core u).pr p) 0 = true) :
    exec (.alu u rd ra rb p funct) s = .next (s.retire u 1 fun c =>
      c.setG rd (aluOp funct.toNat (c.gr ra) (c.gr rb)) (c.gBad ra || (decide (funct.toNat < 0x18) && c.gBad rb))) := by
  have hbad : (!aluKnown funct.toNat || (decide (0x18 ≤ funct.toNat) && rb != 0)) = false := by
    simpa [hknown] using hone
  have hreads : decide (funct.toNat < 0x18) = !decide (0x18 ≤ funct.toNat) := by
    simp [← decide_not]
  simp only [exec_alu, execAlu, hreads]
  exact issue_setReg h hbad hp rfl rfl

theorem alu_illegal (h : s.atIssue u 1 0x200) (hsup : (s.core u).supervisor = false) (hevec : (s.core u).evec ≠ 0)
    (hone : 0x18 ≤ funct.toNat) (hrb : rb ≠ 0) :
    exec (.alu u rd ra rb p funct) s =
      .next (s.handled u 1 (rd.val * 2 ^ 21 + ra.val * 2 ^ 16 + rb.val * 2 ^ 11 + p.val * 2 ^ 8 + funct.toNat)) := by
  have hbad : (!aluKnown funct.toNat || (decide (0x18 ≤ funct.toNat) && rb != 0)) = true := by simp [hone, hrb]
  rw [← encR_zero_eq, exec_alu, execAlu]
  exact issue_illegal h hbad hsup hevec

theorem addi_retires (h : s.atIssue u 1 0x200) : exec (.addi u rd ra imm) s =
    .next (s.retire u 1 fun c => c.setG rd (BitVec.ofNat 64 (c.gr ra) + imm.signExtend 64).toNat (c.gBad ra)) := by
  rw [exec_addi]
  exact immOp_retires h rfl (by rw [ofNat_wrap_add_sext, ofNat_toNat_self])

theorem andi_retires (h : s.atIssue u 1 0x200) : exec (.andi u rd ra imm) s =
    .next (s.retire u 1 fun c => c.setG rd (c.gr ra &&& imm.toNat) (c.gBad ra)) := by
  rw [exec_andi]
  exact immOp_retires h rfl rfl

theorem ori_retires (h : s.atIssue u 1 0x200) : exec (.ori u rd ra imm) s =
    .next (s.retire u 1 fun c => c.setG rd (c.gr ra ||| imm.toNat) (c.gBad ra)) := by
  rw [exec_ori]
  exact immOp_retires h rfl rfl

theorem xori_retires (h : s.atIssue u 1 0x200) : exec (.xori u rd ra imm) s =
    .next (s.retire u 1 fun c => c.setG rd (c.gr ra ^^^ imm.toNat) (c.gBad ra)) := by
  rw [exec_xori]
  exact immOp_retires h rfl rfl

/-- SHI's word is illegal exactly where imm16[15:8] is not zero or the kind is 3. -/
theorem shiBad_iff (imm : BitVec 16) : (fld imm.toNat 8 8 != 0 || fld imm.toNat 6 2 == 3) = true ↔ 0xC0 ≤ imm.toNat := by
  have := imm.isLt
  simp only [fld, Bool.or_eq_true, bne_iff_ne, beq_iff_eq]; omega

theorem shi_retires (h : s.atIssue u 1 0x200) (hkind : imm.toNat < 0xC0) : exec (.shi u rd ra imm) s =
    .next (s.retire u 1 fun c => c.setG rd (aluOp (5 + imm.toNat / 64) (c.gr ra) (imm.toNat % 64)) (c.gBad ra)) := by
  have hk : fld imm.toNat 6 2 = imm.toNat / 64 := by simp only [fld]; omega
  have hamount : fld imm.toNat 0 6 = imm.toNat % 64 := by simp only [fld]; omega
  have hbad : (fld imm.toNat 8 8 != 0 || fld imm.toNat 6 2 == 3) = false :=
    Bool.eq_false_iff.2 fun hbad => Nat.not_le.2 hkind ((shiBad_iff imm).1 hbad)
  simp only [exec_shi, execShi, hk, hamount] at hbad ⊢
  exact immOp_retires h hbad rfl

theorem shi_illegal (h : s.atIssue u 1 0x200) (hsup : (s.core u).supervisor = false) (hevec : (s.core u).evec ≠ 0) (hkind : 0xC0 ≤ imm.toNat) :
    exec (.shi u rd ra imm) s = .next (s.handled u 1 (5 * 2 ^ 26 + rd.val * 2 ^ 21 + ra.val * 2 ^ 16 + imm.toNat)) := by
  rw [← encI_eq (by omega), exec_shi, execShi, State.immOp]
  exact issue_illegal h ((shiBad_iff imm).2 hkind) hsup hevec

theorem lui_retires (h : s.atIssue u 1 0x200) : exec (.lui u rd 0 imm) s =
    .next (s.retire u 1 fun c => c.setG rd (imm.signExtend 64 <<< 16).toNat false) := by
  rw [exec_lui]
  exact issue_setReg h rfl (bit_pr_zero _) rfl
    (Core.setG_congr _ _ _ (by rw [ofNat_wrap_sext_shift, ofNat_toNat_self]))

theorem lui_illegal (h : s.atIssue u 1 0x200) (hsup : (s.core u).supervisor = false) (hevec : (s.core u).evec ≠ 0) (hra : ra ≠ 0) :
    exec (.lui u rd ra imm) s = .next (s.handled u 1 (6 * 2 ^ 26 + rd.val * 2 ^ 21 + ra.val * 2 ^ 16 + imm.toNat)) := by
  rw [← encI_eq (by omega), exec_lui]
  exact issue_illegal h (by simpa using hra) hsup hevec

theorem slti_retires (h : s.atIssue u 1 0x200) : exec (.slti u rd ra imm) s =
    .next (s.retire u 1 fun c => c.setG rd (if (BitVec.ofNat 64 (c.gr ra)).slt (imm.signExtend 64) then 1 else 0) (c.gBad ra)) := by
  rw [exec_slti]
  exact immOp_retires h rfl (by simp only [b01, decide_eq_true_eq, sext_lt_sext_iff_slt])

theorem li_retires {imm : BitVec 47} (h : s.atIssue u 2 0x200) : exec (.li u rd imm) s =
    .next (s.retire u 2 fun c => c.setG rd (imm.signExtend 64).toNat false) := by
  rw [exec_li]
  exact longIssue_retires h rfl (Core.setG_congr _ _ _ (by rw [ofNat_wrap_sext, ofNat_toNat_self]))

theorem laddi_retires {imm : BitVec 47} (h : s.atIssue u 2 0x200) : exec (.laddi u rd imm) s =
    .next (s.retire u 2 fun c => c.setG rd (BitVec.ofNat 64 (c.gr rd) + imm.signExtend 64).toNat (c.gBad rd)) := by
  rw [exec_laddi]
  exact longIssue_retires h rfl (Core.setG_congr _ _ _ (by rw [ofNat_wrap_add_sext, ofNat_toNat_self]))
end

/-! ### Results of the ALU functs (R210) -/

section
variable (a b : BitVec 64)

theorem aluOp_add : BitVec.ofNat 64 (aluOp 0x00 a.toNat b.toNat) = a + b := by
  apply BitVec.eq_of_toNat_eq; simp [aluOp]
theorem aluOp_sub : BitVec.ofNat 64 (aluOp 0x01 a.toNat b.toNat) = a - b := by
  simp only [aluOp, ofNat_wrap, Int.sub_eq_add_neg, BitVec.ofInt_add, BitVec.ofInt_neg, BitVec.ofInt_natCast, ofNat_toNat_self, BitVec.sub_eq_add_neg]
theorem aluOp_and : BitVec.ofNat 64 (aluOp 0x02 a.toNat b.toNat) = a &&& b := by
  rw [aluOp, ← BitVec.toNat_and, ofNat_toNat_self]
theorem aluOp_or : BitVec.ofNat 64 (aluOp 0x03 a.toNat b.toNat) = a ||| b := by
  rw [aluOp, ← BitVec.toNat_or, ofNat_toNat_self]
theorem aluOp_xor : BitVec.ofNat 64 (aluOp 0x04 a.toNat b.toNat) = a ^^^ b := by
  rw [aluOp, ← BitVec.toNat_xor, ofNat_toNat_self]

theorem aluOp_shl : BitVec.ofNat 64 (aluOp 0x05 a.toNat b.toNat) = a <<< (b.toNat % 64) := by
  apply BitVec.eq_of_toNat_eq; simp [aluOp, Nat.shiftLeft_eq]
theorem aluOp_shr : BitVec.ofNat 64 (aluOp 0x06 a.toNat b.toNat) = a >>> (b.toNat % 64) := by
  rw [aluOp, ← Nat.shiftRight_eq_div_pow, ← BitVec.toNat_ushiftRight, ofNat_toNat_self]
theorem aluOp_sar : BitVec.ofNat 64 (aluOp 0x07 a.toNat b.toNat) = a.sshiftRight (b.toNat % 64) := by
  simp only [aluOp, ofNat_wrap, sext_toNat]
  rw [BitVec.sshiftRight, Int.shiftRight_eq_div_pow, Int.natCast_pow]; rfl

theorem aluOp_slt : BitVec.ofNat 64 (aluOp 0x08 a.toNat b.toNat) = if a.slt b then 1 else 0 := by
  simp only [aluOp, sext_toNat, ofNat_b01, BitVec.slt]
theorem aluOp_ult : BitVec.ofNat 64 (aluOp 0x09 a.toNat b.toNat) = if a.ult b then 1 else 0 := by
  simp only [aluOp, ofNat_b01, BitVec.ult]
theorem aluOp_min : BitVec.ofNat 64 (aluOp 0x0A a.toNat b.toNat) = if a.slt b then a else b := by
  simp only [aluOp, sext_toNat, BitVec.slt_iff_toInt_lt]; split <;> rw [ofNat_toNat_self]
theorem aluOp_max : BitVec.ofNat 64 (aluOp 0x0B a.toNat b.toNat) = if a.slt b then b else a := by
  simp only [aluOp, sext_toNat, BitVec.slt_iff_toInt_lt]; split <;> rw [ofNat_toNat_self]
theorem aluOp_minu : BitVec.ofNat 64 (aluOp 0x0C a.toNat b.toNat) = if a.ult b then a else b := by
  simp only [aluOp, BitVec.ult_iff_toNat_lt]
  split
  · next h => rw [Nat.min_eq_left (Nat.le_of_lt h), ofNat_toNat_self]
  · next h => rw [Nat.min_eq_right (Nat.not_lt.1 h), ofNat_toNat_self]
theorem aluOp_maxu : BitVec.ofNat 64 (aluOp 0x0D a.toNat b.toNat) = if a.ult b then b else a := by
  simp only [aluOp, BitVec.ult_iff_toNat_lt]
  split
  · next h => rw [Nat.max_eq_right (Nat.le_of_lt h), ofNat_toNat_self]
  · next h => rw [Nat.max_eq_left (Nat.not_lt.1 h), ofNat_toNat_self]

theorem aluOp_mul : BitVec.ofNat 64 (aluOp 0x10 a.toNat b.toNat) = a * b := by
  apply BitVec.eq_of_toNat_eq; simp [aluOp]

/-- Bits 127:64 of an integer kept in 128 bits are those of its quotient by 2^64. -/
theorem ofInt_shiftRight_64 (i : Int) : ((BitVec.ofInt 128 i) >>> 64).setWidth 64 = BitVec.ofInt 64 (i / 2 ^ 64) := by
  apply BitVec.eq_of_toNat_eq
  simp only [BitVec.toNat_setWidth, BitVec.toNat_ushiftRight, BitVec.toNat_ofInt, Nat.shiftRight_eq_div_pow]
  omega
theorem aluOp_mulh : BitVec.ofNat 64 (aluOp 0x11 a.toNat b.toNat) = ((a.signExtend 128 * b.signExtend 128) >>> 64).setWidth 64 := by
  have hprod : a.signExtend 128 * b.signExtend 128 = BitVec.ofInt 128 (a.toInt * b.toInt) := by rw [BitVec.ofInt_mul]; rfl
  simp only [aluOp, sext_toNat, ofNat_wrap, hprod, ofInt_shiftRight_64]
theorem aluOp_mulhu : BitVec.ofNat 64 (aluOp 0x12 a.toNat b.toNat) = ((a.setWidth 128 * b.setWidth 128) >>> 64).setWidth 64 := by
  have hprod : a.setWidth 128 * b.setWidth 128 = BitVec.ofInt 128 ((a.toNat * b.toNat : Nat) : Int) := by
    rw [BitVec.ofInt_natCast]; apply BitVec.eq_of_toNat_eq; simp
  rw [hprod, ofInt_shiftRight_64, aluOp]
  exact_mod_cast (BitVec.ofInt_natCast 64 _).symm

variable {a b}

theorem aluOp_div (hb : b ≠ 0) : BitVec.ofNat 64 (aluOp 0x14 a.toNat b.toNat) = a.sdiv b := by
  simp only [aluOp, if_neg (toNat_ne_zero hb), ofNat_wrap, sext_toNat]
  exact BitVec.eq_of_toInt_eq (by rw [BitVec.toInt_ofInt, BitVec.toInt_sdiv])
theorem aluOp_divu (hb : b ≠ 0) : BitVec.ofNat 64 (aluOp 0x15 a.toNat b.toNat) = a / b := by
  simp only [aluOp, if_neg (toNat_ne_zero hb)]
  rw [← BitVec.toNat_udiv, ofNat_toNat_self]
theorem aluOp_rem (hb : b ≠ 0) : BitVec.ofNat 64 (aluOp 0x16 a.toNat b.toNat) = a.srem b := by
  simp only [aluOp, if_neg (toNat_ne_zero hb), ofNat_wrap, sext_toNat]
  rw [← BitVec.toInt_srem, BitVec.ofInt_toInt]
theorem aluOp_remu (hb : b ≠ 0) : BitVec.ofNat 64 (aluOp 0x17 a.toNat b.toNat) = a % b := by
  simp only [aluOp, if_neg (toNat_ne_zero hb)]
  rw [← BitVec.toNat_umod, ofNat_toNat_self]

/-- Division by zero: quotients are all ones, remainders the dividend. -/
theorem aluOp_by_zero (a : BitVec 64) :
    BitVec.ofNat 64 (aluOp 0x14 a.toNat 0) = BitVec.allOnes 64 ∧ BitVec.ofNat 64 (aluOp 0x15 a.toNat 0) = BitVec.allOnes 64 ∧
    BitVec.ofNat 64 (aluOp 0x16 a.toNat 0) = a ∧ BitVec.ofNat 64 (aluOp 0x17 a.toNat 0) = a :=
  ⟨rfl, rfl, ofNat_toNat_self a, ofNat_toNat_self a⟩

/-! Counts of bits. -/

theorem clz64_of_ne_zero (ha : a ≠ 0) :
    ∃ i < 64, clz64 a.toNat = 63 - i ∧ a.getLsbD i = true ∧ ∀ j, i < j → a.getLsbD j = false := by
  have hn : a.toNat ≠ 0 := toNat_ne_zero ha
  refine ⟨a.toNat.log2, (Nat.log2_lt hn).2 a.isLt, if_neg hn, Nat.testBit_log2 hn, fun j hj => ?_⟩
  exact Nat.testBit_lt_two_pow ((Nat.log2_lt hn).1 hj)

/-- The scan for trailing zeros stops at the first set bit, or at the end of its range. -/
theorem ctzFrom_spec (x : Nat) : ∀ n i, i ≤ ctzFrom x i n ∧ ctzFrom x i n ≤ i + n ∧
    (∀ j, i ≤ j → j < ctzFrom x i n → bit x j = false) ∧ (ctzFrom x i n < i + n → bit x (ctzFrom x i n) = true) := by
  intro n
  induction n with
  | zero => exact fun i => ⟨Nat.le_refl i, Nat.le_refl i, fun j hij hj => absurd hij (Nat.not_le.2 hj), fun h => absurd h (Nat.lt_irrefl i)⟩
  | succ n ih =>
    intro i
    by_cases hi : bit x i = true
    · rw [ctzFrom, if_pos hi]
      exact ⟨Nat.le_refl i, by omega, fun j hij hj => absurd hj (by omega), fun _ => hi⟩
    · obtain ⟨hlo, hhi, hclear, hset⟩ := ih (i + 1)
      rw [ctzFrom, if_neg hi]
      refine ⟨by omega, by omega, fun j hij hj => ?_, fun h => hset (by omega)⟩
      rcases Nat.eq_or_lt_of_le hij with rfl | hij
      · exact Bool.eq_false_iff.2 hi
      · exact hclear j hij hj
theorem ctz_of_ne_zero (ha : a ≠ 0) :
    ∃ i < 64, ctzFrom a.toNat 0 64 = i ∧ a.getLsbD i = true ∧ ∀ j < i, a.getLsbD j = false := by
  obtain ⟨-, hhi, hclear, hset⟩ := ctzFrom_spec a.toNat 64 0
  simp only [bit_toNat] at hclear hset
  have hlt : ctzFrom a.toNat 0 64 < 64 := by
    refine Nat.lt_of_le_of_ne hhi fun heq => ha (BitVec.eq_of_getLsbD_eq fun j hj => ?_)
    rw [hclear j (Nat.zero_le j) (by omega)]; exact BitVec.getLsbD_zero.symm
  exact ⟨_, hlt, rfl, hset hlt, fun j hj => hclear j (Nat.zero_le j) hj⟩

theorem popCount_eq_countP (a : BitVec 64) : ∀ n, popCount a.toNat n = (List.range n).countP fun i => a.getLsbD i
  | 0 => rfl
  | n + 1 => by
    rw [popCount, popCount_eq_countP a n, List.range_succ, List.countP_append, List.countP_singleton, bit_toNat, Nat.add_comm]
    rfl
end

/-- Settles O10: each instruction by the lemma that it retires, or by the one that its word is illegal; each ALU funct by the lemma on its
result. -/
theorem integerInstructions : Obligations.IntegerInstructions := by
  unfold Obligations.IntegerInstructions
  refine ⟨fun s u rd ra rb p funct imm imm47 => ⟨fun h => ?_, fun h => ⟨li_retires h, laddi_retires h⟩⟩, fun a b => ?_⟩
  · refine ⟨alu_retires h, addi_retires h, andi_retires h, ori_retires h, xori_retires h, shi_retires h, lui_retires h, slti_retires h, fun hsup hevec => ?_⟩
    exact ⟨fun hone _ => alu_illegal h hsup hevec hone, shi_illegal h hsup hevec, lui_illegal h hsup hevec⟩
  · refine ⟨aluOp_add a b, aluOp_sub a b, aluOp_and a b, aluOp_or a b, aluOp_xor a b, aluOp_shl a b, aluOp_shr a b, aluOp_sar a b,
      aluOp_slt a b, aluOp_ult a b, aluOp_min a b, aluOp_max a b, aluOp_minu a b, aluOp_maxu a b, aluOp_mul a b, aluOp_mulh a b, aluOp_mulhu a b,
      fun hb => ⟨aluOp_div hb, aluOp_divu hb, aluOp_rem hb, aluOp_remu hb⟩, ?_, ?_, ?_, ?_, ?_⟩
    · rintro rfl
      exact aluOp_by_zero a
    · rintro rfl rfl
      exact ⟨(aluOp_div (by decide)).trans BitVec.intMin_sdiv_neg_one, (aluOp_rem (by decide)).trans (by decide)⟩
    · rintro rfl
      exact ⟨rfl, rfl⟩
    · intro ha
      obtain ⟨i, hi, hclz, hset, hclear⟩ := clz64_of_ne_zero ha
      obtain ⟨j, hj, hctz, hset', hclear'⟩ := ctz_of_ne_zero ha
      exact ⟨⟨i, hi, congrArg (BitVec.ofNat 64) hclz, hset, hclear⟩, j, hj, congrArg (BitVec.ofNat 64) hctz, hset', hclear'⟩
    · exact congrArg (BitVec.ofNat 64) (popCount_eq_countP a 64)

end Sys2Proof.Machine
end

section
/-! EXIT while a function is being reset (R242, R505). -/
namespace Sys2Proof.Machine

/-- Job 5 belongs to function 1, whose reset is under way. It is resident on paddock 1, whose context belongs to function 0, so that the
reset waits for no paddock. -/
def exitUnderReset : State :=
  let s := State.reset.setRegion 0 { power := .on, stopped := false }
  let s := { s with host := { s.host with
    funcs := [(1, { resetting := true })]
    ctxs := [(3, { live := true, fn := 0 })]
    paddocks := [(1, { live := true, ctx := 3, regions := [0], resident := some 5, jobs := [5] })]
    jobs := [(5, { live := true, fn := 1, ctx := 3, paddock := 1, state := .running })] } }
  s.setCore ⟨0, 0⟩ { running := true, pc := BitVec.ofNat 64 privBase }

/-- The core may issue an EXIT. -/
theorem exitUnderReset_atIssue : exitUnderReset.atIssue ⟨0, 0⟩ 1 0x200 where
  on := by decide +kernel
  free := by decide +kernel
  loads := by decide +kernel
  level := by decide +kernel
  clean := by
    intro k hk
    obtain rfl : k = 0 := by omega
    decide +kernel

/-- What a step leaves of a job. -/
def jobAfter (r : Res) (j : Nat) : Option Job := match r with | .next t => some (t.job j) | _ => none

/-- The EXIT's step ends the reset of function 1, and with it the job (R505). -/
theorem exit_underReset_discards_job : jobAfter (exec (.exit ⟨0, 0⟩ 0 0 0) exitUnderReset) 5 = some {} := by decide +kernel

/-- Refutes O23: its last clause does not exclude a function that is being reset. Core 0 of tile 0 exits in `exitUnderReset`, where tile 1
of the same paddock has not exited; the step also ends the reset of function 1, whose last act discards job 5, and no exit status of the job
is left. (The clauses on exceptions exclude such a function; the state's job is not of its own context's function.) -/
theorem not_exceptionsEndJobsAndExitStops : ¬ Obligations.ExceptionsEndJobsAndExitStops := by
  unfold Obligations.ExceptionsEndJobsAndExitStops
  rintro ⟨-, hexit⟩
  obtain ⟨-, -, hlast⟩ := hexit exitUnderReset ⟨0, 0⟩ 0 exitUnderReset_atIssue
  obtain ⟨t, hstep, -, -, hexits⟩ := hlast 5 1 (by decide +kernel) (by decide +kernel) (by decide +kernel) (by decide +kernel) (by decide +kernel)
  have hjob : t.job 5 = {} := by
    have := exit_underReset_discards_job
    rw [hstep] at this
    exact Option.some.inj this
  rw [hjob] at hexits
  exact absurd hexits (List.append_ne_nil_of_right_ne_nil _ (List.cons_ne_nil _ _)).symm

end Sys2Proof.Machine
end
